-- ==== Sys2Proof/Word.lean ====
section
/-! DEFINITION. The words of the AX7 (R6, R7) and their plainest arithmetic. -/

namespace Sys2Proof

/-- One byte of a frame, a bundle or a memory (R7). -/
abbrev Byte := BitVec 8

/-- One 32-bit register word or vector engine register (R545, R199). -/
abbrev Word := BitVec 32

/-- One 64-bit node, code or counter word (R39). -/
abbrev DWord := BitVec 64

end Sys2Proof
end

