-- ==== Sys2Proof/Machine/SipHash.lean ====
section
/-! DEFINITION. SipHash-2-4 (R159) and the placement taken from it (Table 6.1). -/

namespace Sys2Proof.Machine

/-- The four lanes of SipHash. -/
structure SipSt where
  v0 : DWord
  v1 : DWord
  v2 : DWord
  v3 : DWord
deriving DecidableEq, Repr

/-- One SipRound. -/
def sipRound (s : SipSt) : SipSt :=
  let v0 := s.v0 + s.v1
  let v1 := s.v1.rotateLeft 13 ^^^ v0
  let v0 := v0.rotateLeft 32
  let v2 := s.v2 + s.v3
  let v3 := s.v3.rotateLeft 16 ^^^ v2
  let v0 := v0 + v3
  let v3 := v3.rotateLeft 21 ^^^ v0
  let v2 := v2 + v1
  let v1 := v1.rotateLeft 17 ^^^ v2
  let v2 := v2.rotateLeft 32
  { v0 := v0, v1 := v1, v2 := v2, v3 := v3 }

/-- Absorbs one 8-byte word: two compression rounds. -/
def sipWord (s : SipSt) (m : Nat) : SipSt :=
  let w := BitVec.ofNat 64 m
  let t := sipRound (sipRound { s with v3 := s.v3 ^^^ w })
  { t with v0 := t.v0 ^^^ w }

/-- Absorbs the message, `fuel` words at most; the last word holds the bytes left over and the length modulo 256. -/
def sipAbsorb (len : Nat) : Nat → List Byte → SipSt → SipSt
  | 0, _, s => s
  | n + 1, m, s =>
    if m.length < 8 then sipWord s (leNat m + len % 256 * 2 ^ 56)
    else sipAbsorb len n (m.drop 8) (sipWord s (leNat (m.take 8)))

/-- SipHash-2-4 of a message under a 128-bit key whose byte i is byte i of the key register (R159). -/
def sipHash24 (key : Nat) (m : List Byte) : Nat :=
  let k0 := BitVec.ofNat 64 key
  let k1 := BitVec.ofNat 64 (key / 2 ^ 64)
  let s : SipSt := { v0 := k0 ^^^ 0x736f6d6570736575#64, v1 := k1 ^^^ 0x646f72616e646f6d#64
                     v2 := k0 ^^^ 0x6c7967656e657261#64, v3 := k1 ^^^ 0x7465646279746573#64 }
  let t := sipAbsorb m.length (m.length / 8 + 1) m s
  let u := sipRound (sipRound (sipRound (sipRound { t with v2 := t.v2 ^^^ 0xff#64 })))
  (u.v0 ^^^ u.v1 ^^^ u.v2 ^^^ u.v3).toNat

/-- The hash of an entity key (R159): class, length, key bytes. -/
def keyHash (domainKey cls : Nat) (key : List Byte) : Nat :=
  sipHash24 domainKey (leBytes 1 cls ++ leBytes 1 key.length ++ key)

/-- Placement from the hash (Table 6.1). -/
def homeIndex (h : Nat) : Nat := h % 65536
def partitionOf (h : Nat) : Nat := bits h 31 16 * 12 / 65536
def bucketOf (h bucketsLog2 : Nat) : Nat := bits h 63 32 % 2 ^ bucketsLog2
def tagOf (h : Nat) : Nat := (BitVec.ofNat 32 h ^^^ BitVec.ofNat 32 (h / 2 ^ 32)).toNat

/-- EDDY_KEY_CHKn (Table 6.15). -/
def keyCheck (key : Nat) : Nat := if key = 0 then 0 else sipHash24 key (List.replicate 8 0) % 2 ^ 32

end Sys2Proof.Machine
end

