-- ==== Sys2Proof/Machine/Maps.lean ====
section
/-! DEFINITION. Sparse stores in one canonical form: a list of (key, value) pairs with strictly rising keys.
The `D` operations also keep a default out of the list, so that equal stores are equal data. -/

namespace Sys2Proof.Machine

/-- A sparse store: strictly rising keys. -/
abbrev SMap (α : Type) := List (Nat × α)

/-- The value listed at a key. -/
def SMap.find? {α : Type} : SMap α → Nat → Option α
  | [], _ => none
  | (k', v) :: m, k => if k = k' then some v else if k < k' then none else SMap.find? m k

/-- Puts a value at a key, in place. -/
def SMap.put {α : Type} : SMap α → Nat → α → SMap α
  | [], k, v => [(k, v)]
  | (k', v') :: m, k, v =>
    if k < k' then (k, v) :: (k', v') :: m
    else if k = k' then (k, v) :: m
    else (k', v') :: SMap.put m k v

/-- Removes a key. -/
def SMap.del {α : Type} : SMap α → Nat → SMap α
  | [], _ => []
  | (k', v') :: m, k =>
    if k < k' then (k', v') :: m
    else if k = k' then m
    else (k', v') :: SMap.del m k

/-- Every key of the store is above `lo`, and the keys rise strictly. -/
def SMap.above {α : Type} (lo : Nat) : SMap α → Bool
  | [] => true
  | (k, _) :: m => decide (lo < k) && SMap.above k m

/-- The canonical form: keys rise strictly. -/
def SMap.wf {α : Type} : SMap α → Bool
  | [] => true
  | (k, _) :: m => SMap.above k m

/-- The listed value, or the default of the key. -/
def SMap.getD {α : Type} (dflt : Nat → α) (m : SMap α) (k : Nat) : α :=
  match m.find? k with
  | some v => v
  | none => dflt k

/-- Puts a value at a key; the default of the key is never listed. -/
def SMap.setD {α : Type} [DecidableEq α] (dflt : Nat → α) (m : SMap α) (k : Nat) (v : α) : SMap α :=
  if v = dflt k then m.del k else m.put k v

/-- The canonical form of a store with defaults: rising keys, and no entry equal to its default. -/
def SMap.wfD {α : Type} [DecidableEq α] (dflt : Nat → α) (m : SMap α) : Bool :=
  m.wf && m.all (fun e => decide (e.2 ≠ dflt e.1))

/-- The listed values whose keys and values pass a test. -/
def SMap.keep {α : Type} (p : Nat → α → Bool) (m : SMap α) : SMap α :=
  m.filter (fun e => p e.1 e.2)

/-- Changes every listed value; the keys stay. -/
def SMap.mapVals {α : Type} (f : Nat → α → α) : SMap α → SMap α
  | [] => []
  | (k, v) :: m => (k, f k v) :: SMap.mapVals f m

/-- One more than the largest key: a key not listed. -/
def SMap.fresh {α : Type} : SMap α → Nat
  | [] => 0
  | [(k, _)] => k + 1
  | _ :: e :: m => SMap.fresh (e :: m)

/-- The byte memory of the spec's address spaces: (address, byte) cells. -/
abbrev Memory := List Host.Cell

/-- The canonical form of a byte memory whose unlisted bytes read 0. -/
abbrev Memory.wf (m : Memory) : Bool := SMap.wfD (fun _ => (0 : Byte)) m

/-- One byte of memory. -/
def Memory.read (m : Memory) (a : Nat) : Byte := SMap.getD (fun _ => (0 : Byte)) m a

/-- Writes one byte. -/
def Memory.write (m : Memory) (a : Nat) (b : Byte) : Memory := SMap.setD (fun _ => (0 : Byte)) m a b

/-- `n` bytes from `a`. -/
def Memory.readBytes (m : Memory) (a : Nat) : Nat → List Byte
  | 0 => []
  | n + 1 => m.read a :: Memory.readBytes m (a + 1) n

/-- Writes bytes from `a` upwards. -/
def Memory.writeBytes (m : Memory) (a : Nat) : List Byte → Memory
  | [] => m
  | b :: bs => Memory.writeBytes (m.write a b) (a + 1) bs

end Sys2Proof.Machine
end

