-- ==== Sys2Proof/Machine/Types.lean ====
section
/-! DEFINITION. The data that frames, records, replies, time words and their queues are made of (chapters 3, 4 and 5):
the operands of the commands and the parts of State. -/

namespace Sys2Proof.Machine

/-- The order key of a record (R110). -/
structure OrderKey where
  stamp : Nat := 0
  dev : Nat := 0
  port : Nat := 0
  seq : Nat := 0
deriving DecidableEq, Repr

/-- Field-by-field unsigned comparison of order keys (R110). -/
def OrderKey.lt (a b : OrderKey) : Bool :=
  if a.stamp ≠ b.stamp then a.stamp < b.stamp
  else if a.dev ≠ b.dev then a.dev < b.dev
  else if a.port ≠ b.port then a.port < b.port
  else a.seq < b.seq

/-- Where a reply goes (R24): back to the sender's address on the record port and sub-port its record arrived on, or over
Braid to the endpoint (kind 0 attached on port `port`, else device `dev`) that sent it. -/
inductive Dest where
  | eth (port sub ip : Nat) (v6 : Bool) (udp session tenant : Nat)
  | braid (port dev endpoint : Nat)
deriving DecidableEq, Repr

/-- The key of a session: source IP address, source UDP port and SESSION (R75). -/
structure SessionKey where
  ip : Nat := 0
  v6 : Bool := false
  udp : Nat := 0
  session : Nat := 0
deriving DecidableEq, Repr

/-- One entry of a hub die's session table (R75): the port and sub-port it is bound to, the highest accepted FRAME_SEQ, the
accepted frame sequences of the window below it, the BT of the last accepted frame and the device's reply frame count
within the session (Table 3.3). -/
structure Session where
  key : SessionKey
  port : Nat := 0
  sub : Nat := 0
  high : Nat := 0
  seen : List Nat := []
  lastBt : Nat := 0
  replyFrames : Nat := 0
deriving DecidableEq, Repr

/-- The SecTAG of a received frame: association number, the secure channel (explicit in the tag or the channel the frame
resolves to), the recovered 64-bit packet number, and whether the ICV verified under GCM-AES-XPN-256 with confidentiality
offset 0 (R61, R63). -/
structure SecTag where
  an : Nat := 0
  sci : Nat := 0
  pn : Nat := 0
  icvOk : Bool := true
deriving DecidableEq, Repr

/-- The IP and UDP headers of a received datagram, as their standards define them (R8, R61). `own` says that the destination
is the port's own unicast address; `plain` that it has no IPv4 options, is no fragment, and has no IPv6 extension header or
jumbogram; `udp` that the protocol is UDP. -/
structure IpHead where
  v6 : Bool := false
  src : Nat := 0
  own : Bool := true
  plain : Bool := true
  udp : Bool := true
  csumZero : Bool := false
  csumOk : Bool := true
  srcPort : Nat := 0
  dstPort : Nat := 0
deriving DecidableEq, Repr

/-- What a received frame carries after its Ethernet, VLAN and MACsec headers. -/
inductive RxBody where
  | ip (h : IpHead) (payload : List Byte)
  | linkPause
  | other
deriving DecidableEq, Repr

/-- A frame that has arrived whole at a record port: its length from the destination address through the FCS, the FCS check,
the SecTAG, the 802.1Q tags as (priority, VID), what it carries, how many ticks ago its first destination address byte
passed from the PCS to the MAC (R107), and the FEC codewords corrected and not corrected while it arrived. -/
structure RxFrame where
  len : Nat := 64
  fcsOk : Bool := true
  secTag : Option SecTag := none
  tags : List (Nat × Nat) := []
  body : RxBody := .other
  ago : Nat := 0
  fecCorr : Nat := 0
  fecUncorr : Nat := 0
deriving DecidableEq, Repr

/-- The verdict of the session check on a frame's records (Table 3.7). -/
inductive SessVerdict where
  | process | noSessionFull | noSessionPort | duplicate | seqOld
deriving DecidableEq, Repr

/-- A lossless-class frame waiting in the ingress buffer (R131). -/
structure WaitFrame where
  len : Nat := 0
  stamp : Nat := 0
  dest : Dest
  verdict : SessVerdict := .process
  payload : List Byte := []
deriving DecidableEq, Repr

/-- The fields of a JRF header (Table 3.3). -/
structure JrfHead where
  magic : Nat := 0
  version : Nat := 0
  flags : Nat := 0
  records : Nat := 0
  tenant : Nat := 0
  length : Nat := 0
  session : Nat := 0
  frameSeq : Nat := 0
  en : Nat := 0
  device : Nat := 0
  tailZero : Bool := true
deriving DecidableEq, Repr

/-- The fields of a record header (Table 3.4). -/
structure RecHead where
  cls : Nat := 0
  pipe : Nat := 0
  length : Nat := 0
  flags : Nat := 0
  res6 : Nat := 0
  recId : Nat := 0
  origStamp : Nat := 0
  origKey : Nat := 0
  origPort : Nat := 0
  res29 : Nat := 0
deriving DecidableEq, Repr

/-- A parsed record: where it came in, its header fields, its order key (R74, R107, R109), its payload, and where its reply
goes. `replay` marks a REPLAY record, whose class, pipeline and payload are then those of the captured record. -/
structure Rec where
  queue : Nat := 0
  tenant : Nat := 0
  cls : Nat := 0
  pipe : Nat := 0
  dig : Bool := false
  replay : Bool := false
  recId : Nat := 0
  key : OrderKey := {}
  hdr : List Byte := []
  payload : List Byte := []
  reqSeq : Nat := 0
  recIndex : Nat := 0
  dest : Dest
deriving DecidableEq, Repr

/-- A reply before it is sent (Table 3.8); `ready` is the BT at which it was complete, `release` its release tick in Lockstep
mode, `recIdx` the record table entry it returns when it leaves (Table 5.2). -/
structure Reply where
  cls : Nat := 0
  pipe : Nat := 0
  code : Nat := 0
  cause : Nat := 0
  late : Bool := false
  sat : Bool := false
  stale : Bool := false
  recIndex : Nat := 0
  recId : Nat := 0
  key : OrderKey := {}
  reqSeq : Nat := 0
  portByte : Nat := 0
  payload : List Byte := []
  tenant : Nat := 0
  dest : Dest
  release : Option Nat := none
  recIdx : Option Nat := none
deriving DecidableEq, Repr

/-- A reply frame being gathered or waiting in a port's transmit queue (R82): all its replies go to one destination. -/
structure TxFrame where
  dest : Dest
  replies : List Reply := []
  first : Nat := 0
deriving DecidableEq, Repr

/-- A frame or message that has left the device, as bytes: the JRF frame of a record port (port, sub, JRF bytes), an answer
of a control protocol, a PFC frame (per class bits on or off), an LLDP frame, an MKA frame, a PTP Delay_Req. `tag` is the SecTAG that protects
it, with the SCI of the port's channel (R63). -/
inductive TxOut where
  | jrf (port sub : Nat) (dest : Dest) (tag : Option SecTag) (frame : List Byte)
  | event (ip udp : Nat) (port sub : Nat) (tag : Option SecTag) (frame : List Byte)
  | ctrl (port sub kind : Nat) (tag : Option SecTag)
  | pfc (port sub prio : Nat) (off : Bool) (tag : Option SecTag)
  | lldp (port sub : Nat) (tag : Option SecTag)
  | mka (port sub an : Nat)
  | ptp (port sub : Nat) (tag : Option SecTag)
deriving DecidableEq, Repr

/-- The pause quanta of a PFC frame by priority, with the SecTAG that protects the frame where it has one (R63, R67). -/
structure PfcQuanta where
  quanta : List Nat := []
  tag : Option SecTag := none
deriving DecidableEq, Repr

/-- A control protocol request for the port's own address (R61). -/
inductive CtrlProto where
  | arp | icmpEcho | neighbour | icmp6Echo | other
deriving DecidableEq, Repr

/-- A frame of a control protocol, with the SecTAG that protects it where it has one (R61, R63). -/
structure CtrlFrame where
  kind : CtrlProto := .other
  tag : Option SecTag := none
deriving DecidableEq, Repr

/-- A replay that a Braid port asks for, with the FEC codewords it corrected and could not correct since the last (R383, R405). -/
structure FlitError where
  port : Nat := 0
  corr : Nat := 0
  uncorr : Nat := 0
deriving DecidableEq, Repr

/-- A corrected error of a unit; `once` marks a die-link flit that was retried once (R18, R482). -/
structure CorrError where
  unit : Nat := 0
  once : Bool := false
deriving DecidableEq, Repr

/-- What a MACsec Key Agreement frame does to the port's associations (R63, R64): it makes a transmit association live, or
installs a receive association. `ckn` names the connectivity association key that it was made under, `auth` says that it verified under that key. -/
structure MkaMsg where
  auth : Bool := true
  ckn : List Byte := []
  tx : Option Nat := none
  rx : Option (Nat × Nat) := none
deriving DecidableEq, Repr

/-- A PTP message as the time base takes it (R104): transport, domain, one of the supported kinds. An Announce carries the
best-master comparison values of its grandmaster, in the order in which the algorithm of IEEE 1588 compares them; a Sync, with its Follow_Up where
it is two-step, is answered with a Delay_Req; the Delay_Resp completes a measurement of PTP time, in ns, at the present BT. -/
inductive PtpKind where
  | announce (rank : List Nat)
  | sync
  | time (ptpTime : Int)
  | unsupported
deriving DecidableEq, Repr

/-- A PTP message received on a record port (R104), with the SecTAG of its frame and the identity of the port that sent it. -/
structure PtpMsg where
  tag : Option SecTag := none
  source : Nat := 0
  transport : Nat := 0
  domain : Nat := 0
  kind : PtpKind := .unsupported
deriving DecidableEq, Repr

/-- A time word (R99, Table 14.9): the sender's BT with its sixty-fourths, its lock and validity, root, heartbeat, TURN, time parameters and wall offset; as
it arrives, `rxFrac`, the sixty-fourths of the tick at which its marked symbol came (R396). `delay` and `measured` are no part of the word: the receiver
writes there the one-way delay of the link, in sixty-fourths of a tick, and whether it could be measured. -/
structure TimeWord where
  bt : Nat := 0
  valid : Bool := true
  state : Nat := 1
  root : Nat := 0
  heartbeat : Nat := 0
  onAlt : Bool := false
  epochLog2 : Nat := 11
  ingress : Nat := 1000
  fabric : Nat := 600
  releaseAdd : Nat := 3000
  wall : Int := 0
  btFrac : Nat := 0
  turn : Nat := 0
  rxFrac : Nat := 0
  delay : Nat := 0
  measured : Bool := false
deriving DecidableEq, Repr

/-- One entry of the event log (R542, R81). -/
structure EvtEntry where
  seq : Nat := 0
  stamp : Nat := 0
  code : Nat := 0
  unit : Nat := 0
  tenant : Nat := 0
  detail : Nat := 0
deriving DecidableEq, Repr

/-- One secure association: association number, next or highest packet number, whether it is live (R63, R64). -/
structure SecAssoc where
  an : Nat := 0
  sci : Nat := 0
  pn : Nat := 0
  live : Bool := false
deriving DecidableEq, Repr

/-- One record port or 400G sub-port of Tributary (R59 to R67). A class is paused until a tick (R67). -/
structure PortSt where
  up : Bool := false
  waitA : List WaitFrame := []
  waitB : List WaitFrame := []
  xoffA : Bool := false
  xoffB : Bool := false
  pausedA : Nat := 0
  pausedB : Nat := 0
  gather : List TxFrame := []
  txq : List TxFrame := []
  txSa : Option SecAssoc := none
  rxSa : List SecAssoc := []
  keyChange : Bool := false
deriving DecidableEq, Repr

/-- Tributary (chapter 3). `ports` is keyed by 2n + s; `seqs` by hub and port number holds the ingress sequence counters; `sampled` the ATTN (bits 3 to
0) and DEGRADED (7 to 4) bits of the tenants at the end of a tick, where they changed, oldest first (R84). -/
structure TribSt where
  arrange : List Nat := [0, 0]
  ports : SMap PortSt := []
  seqs : SMap Nat := []
  sessions : List (List Session) := [[], []]
  held : List Reply := []
  evtSeq : Nat := 0
  evtLog : SMap EvtEntry := []
  evtQueue : List EvtEntry := []
  evtLost : Nat := 0
  out : List TxOut := []
  sampled : List (Nat × Nat) := []
deriving DecidableEq, Repr

end Sys2Proof.Machine
end

