-- ==== Sys2Proof/Machine/EddyOps.lean ====
section
/-! DEFINITION. Eddy's slots, fields, update operators and the application of one request to its bucket
(R164 to R170, R173 to R177). -/

namespace Sys2Proof.Machine

/-- A field descriptor of the Eddy schema (Table 6.6). -/
structure FieldDesc where
  offset : Nat := 0
  op : Nat := 0
  type : Nat := 0
  param : Nat := 0
  reserved : Nat := 0
deriving DecidableEq, Repr

/-- A key class descriptor (Table 6.3) and its field descriptors. -/
structure KeyClass where
  cls : Nat := 0
  slot : Nat := 0
  mode : Nat := 0
  bucketsLog2 : Nat := 10
  nfields : Nat := 0
  reserved : Nat := 0
  fields : List FieldDesc := []
deriving DecidableEq, Repr

/-- One update entry of an access entry (Table 6.9). -/
structure UpdEntry where
  field : Nat := 0
  src : Nat := 0
  arg : Nat := 0
  gateOff : Nat := 0
  gate : Nat := 0
  reserved : Nat := 0
deriving DecidableEq, Repr

/-- An access entry (Table 6.9). -/
structure AccessEntry where
  pipe : Nat := 0
  cls : Nat := 0
  snap : Nat := 0
  nupd : Nat := 0
  snapLen : Nat := 0
  reserved : Nat := 0
  upds : List UpdEntry := []
deriving DecidableEq, Repr

/-- One operand of an Eddy request (Table 6.10): the operator is carried by the request (R173). -/
structure EddyOp where
  field : Nat := 0
  op : Nat := 0
  type : Nat := 0
  param : Nat := 0
  offset : Nat := 0
  val : Nat := 0
deriving DecidableEq, Repr

/-- An Eddy request (Table 6.10), with the device that sent it and the hub die and record it belongs to there. -/
structure EddyReq where
  key : OrderKey := {}
  keyIndex : Nat := 0
  cls : Nat := 0
  klen : Nat := 1
  pre : Bool := false
  post : Bool := false
  insert : Bool := false
  mirror : Bool := false
  del : Bool := false
  pin : Bool := false
  unpin : Bool := false
  tenant : Nat := 0
  homeGen : Nat := 0
  snapLen : Nat := 0
  slot : Nat := 0
  bucketsLog2 : Nat := 10
  hash : Nat := 0
  keyBytes : List Byte := []
  ops : List EddyOp := []
  from_ : Nat := 0
deriving DecidableEq, Repr

/-- A snapshot body (Table 6.11). -/
structure SnapBody where
  key : OrderKey := {}
  keyIndex : Nat := 0
  state : Nat := 4
  mirror : Bool := false
  satmap : Nat := 0
  livePre : Nat := 0
  livePost : Nat := 0
  lastStamp : Nat := 0
  pre : Option (List Byte) := none
  post : Option (List Byte) := none
deriving DecidableEq, Repr

/-- A tag entry (Table 6.4). -/
structure TagEntry where
  tag : Nat := 0
  touch : Nat := 0
  pin : Bool := false
  valid : Bool := false
deriving DecidableEq, Repr

/-- A bucket: eight tag entries and eight slots of raw bytes (R164, Table 6.5). -/
structure EBucket where
  tags : List TagEntry := []
  slots : List (List Byte) := []
deriving DecidableEq, Repr

/-- Slot sizes (Table 6.3). -/
def slotBytes (code : Nat) : Nat := 128 * 2 ^ code

/-- An empty bucket of a class. -/
def EBucket.empty (slot : Nat) : EBucket :=
  { tags := List.replicate 8 {}, slots := List.replicate 8 (List.replicate (slotBytes slot) 0) }

/-- The width in bytes of a field type; BYTES takes its length from PARAM (Table 6.6). -/
def typeWidth (type param : Nat) : Nat :=
  if type ≤ 1 then 2 else if type ≤ 3 then 4 else if type ≤ 5 then 8 else if type = 6 then 4 else param

/-- Signed types (Table 6.6). -/
def typeSigned (type : Nat) : Bool := type = 1 || type = 3 || type = 5

/-- The bytes a field takes (Table 6.7). -/
def fieldSize (op type param : Nat) : Nat :=
  if op = 4 then 16 else if op = 5 then 8 + param * typeWidth type 0 else if op = 6 then param else typeWidth type param

/-- The alignment of a field (Table 6.7). -/
def fieldAlign (op type : Nat) : Nat :=
  if op = 4 ∨ op = 5 ∨ op = 6 ∨ op = 7 then 8 else if type = 7 then 1 else typeWidth type 0

/-- Operator and type pairs of Table 6.7, with the PARAM each allows. -/
def fieldPairOk (d : FieldDesc) : Bool :=
  match d.op with
  | 0 => if d.type = 7 then decide (1 ≤ d.param) && decide (d.param ≤ 8) else decide (d.type < 7) && d.param = 0
  | 1 => decide (d.type ≤ 5) && d.param = 0
  | 2 => decide (d.type ≤ 6) && d.param = 0
  | 3 => decide (d.type ≤ 6) && d.param = 0
  | 4 => d.type = 4 && decide (10 ≤ d.param) && decide (d.param ≤ 48)
  | 5 => decide (d.type ≤ 6) && decide (1 ≤ d.param) && decide (d.param ≤ 32)
  | 6 => d.type = 7 && (d.param = 8 || d.param = 16 || d.param = 32 || d.param = 64)
  | 7 => d.type = 4 && d.param = 0
  | _ => false

/-- The ordered key of a binary32 pattern (R37); −0 keys as +0 (R35). -/
def f32Key (b : Nat) : Nat :=
  let b := if b = 0x80000000 then 0 else b
  if b < 2 ^ 31 then b + 2 ^ 31 else 2 ^ 32 - 1 - b

/-- A binary32 NaN. -/
def f32IsNan (b : Nat) : Bool := decide (0x7F800000 < b % 2 ^ 31)

/-- The value of a type's bytes: two's complement, unsigned, or the ordered key of F32. -/
def typedVal (type v : Nat) : Int :=
  if type = 6 then (f32Key (v % 2 ^ 32) : Int)
  else
    let w := 8 * typeWidth type 0
    if typeSigned type then sgn w v else ((v % 2 ^ w : Nat) : Int)

/-- The range of an integer type. -/
def typeMin (type : Nat) : Int :=
  if typeSigned type then -((2 ^ (8 * typeWidth type 0 - 1) : Nat) : Int) else 0
def typeMax (type : Nat) : Int :=
  let w := 8 * typeWidth type 0
  if typeSigned type then ((2 ^ (w - 1) - 1 : Nat) : Int) else ((2 ^ w - 1 : Nat) : Int)

/-- Overwrites bytes of a slot from an offset. -/
def putAt (bs : List Byte) (off : Nat) (v : List Byte) : List Byte := bs.take off ++ v ++ bs.drop (off + v.length)

/-- The initial bytes of a field (Table 6.7). -/
def fieldInit (op type param : Nat) : List Byte :=
  match op with
  | 2 => leBytes (typeWidth type 0) (if type = 6 then 0x7F800000 else (typeMax type).toNat)
  | 3 => leBytes (typeWidth type 0) (if type = 6 then 0xFF800000 else wrapI (8 * typeWidth type 0) (typeMin type))
  | _ => List.replicate (fieldSize op type param) 0

/-- ⌊x⌋ of the largest n of at most `b` bits with n^256 ≤ m, built from its bits. -/
def root256 (m : Nat) : Nat → Nat → Nat
  | 0, n => n
  | b + 1, n => if (n + 2 ^ b) ^ 256 ≤ m then root256 m b (n + 2 ^ b) else root256 m b n

/-- T[i] of R168: 2^32 · 2^(−i/256) rounded to nearest. -/
def decayT (i : Nat) : Nat :=
  let n := root256 (2 ^ (8192 - i)) 33 0
  if (2 * n + 1) ^ 256 ≤ 2 ^ (8448 - i) then n + 1 else n

/-- The decayed value of a DECAY_ADD field before the operand is added (R168). -/
def decayVal (v d h : Nat) : Nat :=
  let k := d / 2 ^ h
  let i := d / 2 ^ (h - 8) % 256
  let v := if 64 ≤ k then 0 else v / 2 ^ k
  if i = 0 then v else v * decayT i / 2 ^ 32

/-- The result of one operator on a field's bytes: the new bytes, and whether the field saturated (R166 to R169). The
operand is extended to 64 bits as the request carries it. An F32 operand that is a NaN leaves the field; −0 is +0. -/
def applyOp (op type param val stamp : Nat) (old : List Byte) : List Byte × Bool :=
  let w := typeWidth type param
  let f32 := type = 6
  let val := if f32 ∧ val % 2 ^ 32 = 0x80000000 then 0 else val
  if f32 ∧ (op = 0 ∨ op = 2 ∨ op = 3 ∨ op = 5) ∧ f32IsNan (val % 2 ^ 32) then (old, false)
  else
    match op with
    | 0 => (leBytes w val, false)
    | 1 =>
      let sum := typedVal type (leNat old) + typedVal type val
      let c := clampI (typeMin type) (typeMax type) sum
      (leBytes w (wrapI (8 * w) c), decide (c ≠ sum))
    | 2 => if typedVal type val < typedVal type (leNat old) then (leBytes w val, false) else (old, false)
    | 3 => if typedVal type (leNat old) < typedVal type val then (leBytes w val, false) else (old, false)
    | 4 =>
      let v := decayVal (leAt old 0 8) (stamp - leAt old 8 8) param
      let sum := v + val % 2 ^ 32 * 2 ^ 16
      (leBytes 8 (min sum (2 ^ 64 - 1)) ++ leBytes 8 stamp, decide (2 ^ 64 - 1 < sum))
    | 5 =>
      let ew := typeWidth type 0
      let head := leAt old 0 1
      let cnt := leAt old 1 1
      (putAt (leBytes 1 ((head + 1) % param) ++ leBytes 1 (min (cnt + 1) param) ++ old.drop 2) (8 + head * ew)
        (leBytes ew val), false)
    | 6 =>
      let j := val % 65536 % (8 * param)
      (putAt old (j / 8) (leBytes 1 (setBit (leAt old (j / 8) 1) (j % 8) true)), false)
    | 7 => (leBytes 8 stamp, false)
    | _ => (old, false)

/-- A slot's 32-bit maps and stamps (Table 6.5). -/
def slotSat (s : List Byte) : Nat := leAt s 0x24 4
def slotLive (s : List Byte) : Nat := leAt s 0x28 4
def slotLast (s : List Byte) : Nat := leAt s 0x30 8

/-- Gives a field its initial value: bytes, LIVEMAP bit set, SATMAP bit cleared (R170). -/
def initField (s : List Byte) (f op type param offset : Nat) : List Byte :=
  let s := putAt s (64 + offset) (fieldInit op type param)
  let s := putAt s 0x28 (leBytes 4 (setBit (slotLive s) f true))
  putAt s 0x24 (leBytes 4 (setBit (slotSat s) f false))

/-- Applies one operand to a slot: a field that is not live is first given its initial value (R170). A saturation sets the
field's SATMAP bit, a SET clears it (R166, R167). Also whether it saturated. -/
def applyOperand (s : List Byte) (o : EddyOp) (stamp : Nat) : List Byte × Bool :=
  let s := if bit (slotLive s) o.field then s else initField s o.field o.op o.type o.param o.offset
  let n := fieldSize o.op o.type o.param
  let r := applyOp o.op o.type o.param o.val stamp (slice s (64 + o.offset) n)
  let s := putAt s (64 + o.offset) r.1
  let sat := if r.2 then setBit (slotSat s) o.field true
    else if o.op = 0 then setBit (slotSat s) o.field false else slotSat s
  (putAt s 0x24 (leBytes 4 sat), r.2)

/-- Applies operands in order (R174); also how many saturated. -/
def applyOperands (s : List Byte) (stamp : Nat) : List EddyOp → List Byte × Nat
  | [] => (s, 0)
  | o :: os =>
    let r := applyOperand s o stamp
    let t := applyOperands r.1 stamp os
    (t.1, b2n r.2 + t.2)

/-- A new slot (R165, R170, R174): header, zero field area, every field of the schema at its initial value. -/
def newSlot (req : EddyReq) (fields : List FieldDesc) : List Byte :=
  let s := padTo (slotBytes req.slot)
    ((req.keyBytes ++ List.replicate 32 0).take 32 ++ leBytes 1 req.klen ++ leBytes 1 req.cls ++
     List.replicate 22 0 ++ leBytes 8 req.key.stamp)
  (fields.zipIdx).foldl (fun s e => initField s e.2 e.1.op e.1.type e.1.param e.1.offset) s

/-- The slot of a bucket that holds the request's key: VALID, TAG, KLEN and KEY equal (R164, R174). -/
def findSlot (b : EBucket) (req : EddyReq) : Option Nat :=
  (List.range 8).find? (fun i =>
    let t := nth b.tags i {}
    let s := nth b.slots i []
    t.valid && t.tag = tagOf req.hash && leAt s 0x20 1 = req.klen && s.take 32 = (req.keyBytes ++ List.replicate 32 0).take 32)

/-- The lowest slot that is not VALID. -/
def freeSlot (b : EBucket) : Option Nat := (List.range 8).find? (fun i => !(nth b.tags i {}).valid)

/-- TOUCH bits of a stamp (Table 6.4). -/
def touchOf (stamp : Nat) : Nat := bits stamp 46 17

/-- x is older than y, modulo 2^30 (R174). -/
def touchOlder (x y : Nat) : Bool :=
  let d := (y + 2 ^ 30 - x % 2 ^ 30) % 2 ^ 30
  decide (1 ≤ d) && decide (d ≤ 2 ^ 29)

/-- The unpinned slot with the oldest TOUCH; ties go to the lowest slot (R174). -/
def evictSlot (b : EBucket) : Option Nat :=
  (List.range 8).foldl (fun best i =>
    let t := nth b.tags i {}
    if t.pin then best
    else
      match best with
      | none => some i
      | some j => if touchOlder t.touch (nth b.tags j {}).touch then some i else some j) none

/-- What the application of one request did (R174, Table 6.8). -/
structure EddyResult where
  bucket : EBucket
  state : Nat := 0
  satmap : Nat := 0
  livePre : Nat := 0
  livePost : Nat := 0
  lastStamp : Nat := 0
  pre : Option (List Byte) := none
  post : Option (List Byte) := none
  evicted : Bool := false
  sats : Nat := 0
deriving DecidableEq, Repr

/-- The request at the slot chosen for it: `s` is the slot's bytes before its updates, `state` 0 found or 1 created. LAST_STAMP and TOUCH move where
a slot is created or deleted, a byte of it changes, or its pin does (R174). -/
def applyAtSlot (b : EBucket) (req : EddyReq) (i state : Nat) (s : List Byte) (pinned evicted : Bool) : EddyResult :=
  let data := fun (t : List Byte) => slice t 64 req.snapLen
  let r := applyOperands s req.key.stamp req.ops
  let pin := (pinned || req.pin) && !req.unpin
  let changed := state = 1 || decide (r.1 ≠ s) || pin != pinned || req.del
  let t := if changed then putAt r.1 0x30 (leBytes 8 req.key.stamp) else r.1
  let old := nth b.tags i {}
  let tag : TagEntry :=
    { tag := tagOf req.hash, valid := !req.del, pin := pin
      touch := if changed then touchOf req.key.stamp else old.touch }
  { bucket := { tags := setNth b.tags i tag, slots := setNth b.slots i t }
    state := state, satmap := slotSat t, livePre := slotLive s, livePost := slotLive t, lastStamp := slotLast s
    pre := if req.pre then some (data s) else none
    post := if req.post then some (data r.1) else none
    evicted := evicted, sats := r.2 }

/-- Applies a released request to its bucket (R174): find, else insert in the lowest free slot, else evict, else refuse.
`fields` are the fields of the request's class in the schema active for its stamp. -/
def applyRequest (b : EBucket) (fields : List FieldDesc) (req : EddyReq) : EddyResult :=
  match findSlot b req with
  | some i => applyAtSlot b req i 0 (nth b.slots i []) (nth b.tags i {}).pin false
  | none =>
    if req.insert = false then { bucket := b, state := 2 }
    else
      match freeSlot b with
      | some i => applyAtSlot b req i 1 (newSlot req fields) false false
      | none =>
        match evictSlot b with
        | some i => applyAtSlot b req i 1 (newSlot req fields) false true
        | none => { bucket := b, state := 3 }

/-- The snapshot body that answers a request (Table 6.11). -/
def snapOf (req : EddyReq) (r : EddyResult) : SnapBody :=
  { key := req.key, keyIndex := req.keyIndex, state := r.state, mirror := req.mirror, satmap := r.satmap
    livePre := r.livePre, livePost := r.livePost, lastStamp := r.lastStamp, pre := r.pre, post := r.post }

/-- A body with no data, in a state of its own (Table 6.8). -/
def snapEmpty (req : EddyReq) (state : Nat) : SnapBody :=
  { key := req.key, keyIndex := req.keyIndex, state := state, mirror := req.mirror }

/-- A 64-bit tag entry (Table 6.4). -/
def tagBits (t : TagEntry) : Nat := t.tag % 2 ^ 32 + t.touch % 2 ^ 30 * 2 ^ 32 + b2n t.pin * 2 ^ 62 + b2n t.valid * 2 ^ 63
def tagOfBits (v : Nat) : TagEntry := { tag := bits v 31 0, touch := bits v 61 32, pin := bit v 62, valid := bit v 63 }

/-- A bucket as an export chunk carries it: the raw tag block and the slots (R189). -/
def bucketBytes (b : EBucket) : List Byte := (b.tags.map (fun t => leBytes 8 (tagBits t))).flatten ++ b.slots.flatten

/-- A bucket read back from its raw bytes (R190). -/
def bucketOfBytes (slot : Nat) (bs : List Byte) : EBucket :=
  { tags := (List.range 8).map (fun i => tagOfBits (leAt bs (8 * i) 8))
    slots := (List.range 8).map (fun i => slice bs (64 + i * slotBytes slot) (slotBytes slot)) }

/-- The update entries of an access entry as request operands and flags (R171, R172): immediates sign-extended, but unsigned
whole units for DECAY_ADD; gated updates whose gate is not met are not sent. -/
def gateMet (u : UpdEntry) (fields : List Byte) : Bool :=
  if bit u.gate 7 then bit (leAt fields u.gateOff 1) (u.gate % 8) != bit u.gate 3 else true

/-- The operand of one update entry, extended to 64 bits (Table 6.10). -/
def updOperand (u : UpdEntry) (d : FieldDesc) (fields : List Byte) : Nat :=
  if u.src = 0 then
    let w := if d.op = 4 then 4 else if d.op = 6 then 2 else typeWidth d.type d.param
    let v := leAt fields u.arg w
    if typeSigned d.type ∧ d.op ≠ 4 ∧ d.op ≠ 6 then wrapI 64 (sgn (8 * w) v) else v
  else if u.src = 1 then
    if d.op = 4 then u.arg % 65536 * 65536 % 2 ^ 32 else wrapI 64 (sgn 16 u.arg)
  else 0

/-- The width in bytes of an operand taken from the record (Table 6.7). -/
def operandWidth (d : FieldDesc) : Nat := if d.op = 4 then 4 else if d.op = 6 then 2 else typeWidth d.type d.param

/-- An access entry whose operands and gates lie inside the record's field bytes (R172). -/
def accessFits (a : AccessEntry) (c : KeyClass) (fields : List Byte) : Bool :=
  a.upds.all (fun u =>
    (if bit u.gate 7 then decide (u.gateOff < fields.length) else true) &&
    (if u.src = 0 ∧ u.field < 32 then decide (u.arg + operandWidth (nth c.fields u.field {}) ≤ fields.length) else true))

/-- The request of one key (R171, R173), whose last update entry for the pin decides: `recCls` is the record's class; an absent access entry asks for nothing. -/
def buildRequest (c : KeyClass) (a : Option AccessEntry) (recCls : Nat) (key : OrderKey) (idx tenant homeGen hash dev : Nat)
    (keyBytes fields : List Byte) : EddyReq :=
  let readOnly := c.mode = 1 && recCls ≠ 3
  let base : EddyReq :=
    { key := key, keyIndex := idx, cls := c.cls, klen := keyBytes.length, insert := !readOnly, tenant := tenant
      homeGen := homeGen, slot := c.slot, bucketsLog2 := c.bucketsLog2, hash := hash, keyBytes := keyBytes, from_ := dev }
  match a with
  | none => base
  | some a =>
    let sent := if readOnly then [] else a.upds.filter (fun u => gateMet u fields)
    let pins := sent.filter (fun u => u.field == 0xFE)
    { base with
      pre := a.snap = 1 || a.snap = 3, post := decide (2 ≤ a.snap), snapLen := a.snapLen
      del := sent.any (fun u => u.field = 0xFF)
      pin := pins.getLast?.any (fun u => u.arg == 1)
      unpin := pins.getLast?.any (fun u => u.arg == 0)
      ops := (sent.filter (fun u => decide (u.field < 32))).map (fun u =>
        let d := nth c.fields u.field {}
        { field := u.field, op := d.op, type := d.type, param := d.param, offset := d.offset, val := updOperand u d fields }) }

end Sys2Proof.Machine
end

