-- ==== Sys2Proof/Machine/Float.lean ====
section
/-! DEFINITION. IEEE 754 binary32 arithmetic on bit patterns, rounded to nearest-even and computed exactly (R207), with the
flag conditions of Table 7.9; the correctly rounded functions 2^x, log2 x and e^x from fixed-point series. -/

namespace Sys2Proof.Machine

/-- Lane flags (Table 7.9). -/
def flOob : Nat := 1
def flIov : Nat := 2
def flDz : Nat := 4
def flFinv : Nat := 8
def flFovf : Nat := 16

/-- The NaN every operation yields (R207), and the infinities. -/
def qNan : Nat := 0x7FC00000
def fInf : Nat := 0x7F800000
def fMaxFinite : Nat := 0x7F7FFFFF

def fNan (b : Nat) : Bool := decide (fInf < b % 2 ^ 31)
def fIsInf (b : Nat) : Bool := b % 2 ^ 31 == fInf
def fNeg (b : Nat) : Bool := bit b 31
def fZero (b : Nat) : Bool := b % 2 ^ 31 == 0
def signBit (neg : Bool) : Nat := if neg then 2 ^ 31 else 0

/-- Significand and exponent of a finite pattern: value = ± m · 2^e. -/
def fMant (b : Nat) : Nat := if bits b 30 23 = 0 then b % 2 ^ 23 else b % 2 ^ 23 + 2 ^ 23
def fExp (b : Nat) : Int := if bits b 30 23 = 0 then -149 else (bits b 30 23 : Int) - 150

/-- Rounds ± m · 2^e to nearest-even; `sticky` says that the exact magnitude lies strictly between m · 2^e and
(m + 1) · 2^e. -/
def roundF32 (neg : Bool) (m : Nat) (e : Int) (sticky : Bool) : Nat :=
  if m = 0 then signBit neg
  else
    let q := max (((m.log2 : Nat) : Int) + e - 23) (-149)
    let n :=
      if q ≤ e then m * 2 ^ (e - q).toNat
      else
        let sh := (q - e).toNat
        let half := 2 ^ (sh - 1)
        let rem := m % 2 ^ sh
        let quo := m / 2 ^ sh
        if half < rem ∨ (rem = half ∧ (sticky ∨ quo % 2 = 1)) then quo + 1 else quo
    signBit neg + min ((q + 149).toNat * 2 ^ 23 + n) fInf

/-- Rounds an exact integer multiple of 2^e. -/
def roundInt (v : Int) (e : Int) : Nat := roundF32 (decide (v < 0)) v.natAbs e false

/-- The exact value of a finite pattern as an integer multiple of 2^e0, for e0 at most its exponent. -/
def fScaled (b : Nat) (e0 : Int) : Int :=
  let m := (fMant b * 2 ^ (fExp b - e0).toNat : Nat)
  if fNeg b then -(m : Int) else (m : Int)

/-- The FOVF flag of a finite operation's result. -/
def ovf (r : Nat) : Nat := if fIsInf r then flFovf else 0

/-- binary32 addition: result and flags. -/
def fAdd (a b : Nat) : Nat × Nat :=
  if fNan a || fNan b then (qNan, 0)
  else if fIsInf a && fIsInf b then if fNeg a = fNeg b then (a, 0) else (qNan, flFinv)
  else if fIsInf a then (a, 0)
  else if fIsInf b then (b, 0)
  else
    let e0 := min (fExp a) (fExp b)
    let v := fScaled a e0 + fScaled b e0
    let r := if v = 0 then signBit (fNeg a && fNeg b) else roundInt v e0
    (r, ovf r)

/-- Inverts the sign bit; a NaN becomes the NaN of R207. -/
def fNegate (a : Nat) : Nat := if fNan a then qNan else if fNeg a then a - 2 ^ 31 else a + 2 ^ 31
def fAbs (a : Nat) : Nat := if fNan a then qNan else a % 2 ^ 31

def fSub (a b : Nat) : Nat × Nat := if fNan b then (qNan, 0) else fAdd a (fNegate b)

/-- binary32 multiplication. -/
def fMul (a b : Nat) : Nat × Nat :=
  let neg := fNeg a != fNeg b
  if fNan a || fNan b then (qNan, 0)
  else if (fIsInf a && fZero b) || (fZero a && fIsInf b) then (qNan, flFinv)
  else if fIsInf a || fIsInf b then (signBit neg + fInf, 0)
  else
    let r := roundF32 neg (fMant a * fMant b) (fExp a + fExp b) false
    (r, ovf r)

/-- binary32 division. -/
def fDiv (a b : Nat) : Nat × Nat :=
  let neg := fNeg a != fNeg b
  if fNan a || fNan b then (qNan, 0)
  else if (fIsInf a && fIsInf b) || (fZero a && fZero b) then (qNan, flFinv)
  else if fIsInf a then (signBit neg + fInf, 0)
  else if fIsInf b then (signBit neg, 0)
  else if fZero b then (signBit neg + fInf, flDz)
  else
    let n := fMant a * 2 ^ 64
    let r := roundF32 neg (n / fMant b) (fExp a - fExp b - 64) (decide (n % fMant b ≠ 0))
    (r, ovf r)

/-- 1 / A (FRCP). -/
def fRcp (a : Nat) : Nat × Nat :=
  if fNan a then (qNan, 0)
  else if fIsInf a then (signBit (fNeg a), 0)
  else if fZero a then (signBit (fNeg a) + fInf, flDz)
  else
    let n := 2 ^ 64
    let r := roundF32 (fNeg a) (n / fMant a) (-fExp a - 64) (decide (n % fMant a ≠ 0))
    (r, ovf r)

/-- ⌊√m⌋ from its bits, `b` bits at most. -/
def isqrt (m : Nat) : Nat → Nat → Nat
  | 0, n => n
  | b + 1, n => if (n + 2 ^ b) * (n + 2 ^ b) ≤ m then isqrt m b (n + 2 ^ b) else isqrt m b n

/-- Square root. -/
def fSqrt (a : Nat) : Nat × Nat :=
  if fNan a then (qNan, 0)
  else if fZero a then (a, 0)
  else if fNeg a then (qNan, flFinv)
  else if fIsInf a then (a, 0)
  else
    let odd := fExp a % 2 ≠ 0
    let m := fMant a * (if odd then 2 else 1) * 2 ^ 64
    let e := if odd then fExp a - 1 else fExp a
    let r := isqrt m 50 0
    (roundF32 false r (e / 2 - 32) (decide (r * r ≠ m)), 0)

/-- Fixed-point fraction bits of the series. -/
def fxp : Nat := 192

/-- Σ from k to k + n − 1 of 2^fxp / (k · 2^k): ln 2 from its series. -/
def ln2Sum : Nat → Nat → Nat
  | 0, _ => 0
  | n + 1, k => 2 ^ fxp / (k * 2 ^ k) + ln2Sum n (k + 1)

/-- ln 2 in fixed point. -/
def ln2Fx : Nat := ln2Sum 192 1

/-- Σ x^k / k! in fixed point from term `t` = x^(k−1)/(k−1)!, for 0 ≤ x < 1. -/
def expSum (x : Nat) : Nat → Nat → Nat → Nat
  | 0, _, _ => 0
  | n + 1, k, t => t + expSum x n (k + 1) (t * x / 2 ^ fxp / k)

/-- e^x in fixed point for 0 ≤ x < 1. -/
def expFx (x : Nat) : Nat := expSum x 60 1 (2 ^ fxp)

/-- 2^(n + f) rounded, f in fixed point with 0 < f < 1. -/
def pow2Round (n : Int) (f : Nat) : Nat := roundF32 false (expFx (f * ln2Fx / 2 ^ fxp)) (n - fxp) true

/-- FEXP2 (R207): 2^A rounded once. -/
def fExp2 (a : Nat) : Nat × Nat :=
  if fNan a then (qNan, 0)
  else if fIsInf a then (if fNeg a then 0 else fInf, 0)
  else if fZero a then (0x3F800000, 0)
  else if fExp a < -54 then (0x3F800000, 0)
  else if 128 * 2 ^ 54 ≤ fScaled a (-54) then (fInf, flFovf)
  else if fScaled a (-54) ≤ -(150 * 2 ^ 54) then (0, 0)
  else
    let v := fScaled a (-54)
    let n := v / 2 ^ 54
    let f := (v % 2 ^ 54).toNat
    if f = 0 then (roundF32 false 1 n false, 0)
    else
      let r := pow2Round n (f * 2 ^ (fxp - 54))
      (r, ovf r)

/-- Σ z^(2k+1) / (2k+1) in fixed point, for the odd term `t` = z^(2k+1). -/
def atanhSum (z2 : Nat) : Nat → Nat → Nat → Nat
  | 0, _, _ => 0
  | n + 1, k, t => t / (2 * k + 1) + atanhSum z2 n (k + 1) (t * z2 / 2 ^ fxp)

/-- log2 of 1 + r, in fixed point, for a significand m in [2^23, 2^24). -/
def log2Mant (m : Nat) : Nat :=
  let z := (m - 2 ^ 23) * 2 ^ fxp / (m + 2 ^ 23)
  2 * atanhSum (z * z / 2 ^ fxp) 64 0 z * 2 ^ fxp / ln2Fx

/-- FLOG2 (R207): log2 A rounded once. -/
def fLog2 (a : Nat) : Nat × Nat :=
  if fNan a then (qNan, 0)
  else if fZero a then (2 ^ 31 + fInf, flDz)
  else if fNeg a then (qNan, flFinv)
  else if fIsInf a then (fInf, 0)
  else
    let l := (fMant a).log2
    let m := fMant a * 2 ^ (23 - l)
    let e : Int := fExp a + l
    if m = 2 ^ 23 then (roundInt e 0, 0)
    else
      let v := e * (2 ^ fxp : Nat) + log2Mant m
      (roundF32 (decide (v < 0)) v.natAbs (-(fxp : Int)) true, 0)

/-- e^(−y) of a finite y ≥ 0 as fixed point with `fxp` fraction bits, y = ys · 2^−149 (R294); y at or above 2^9 gives 0. -/
def expNegFx (ys : Nat) : Nat :=
  if 2 ^ 158 ≤ ys then 0
  else
    let y := ys * 2 ^ (fxp - 149)
    let n := y / ln2Fx
    let r := y % ln2Fx
    let f := if r = 0 then 0 else ln2Fx - r
    let k := if r = 0 then n else n + 1
    expFx f / 2 ^ k

/-- The ordered key of R37. -/
def ordKey (b : Nat) : Nat := if b < 2 ^ 31 then b + 2 ^ 31 else 2 ^ 32 - 1 - b

/-- FMIN and FMAX: by the ordered key; a NaN operand yields the other operand. -/
def fMin (a b : Nat) : Nat :=
  if fNan a then (if fNan b then qNan else b) else if fNan b then a else if ordKey b < ordKey a then b else a
def fMax (a b : Nat) : Nat :=
  if fNan a then (if fNan b then qNan else b) else if fNan b then a else if ordKey a < ordKey b then b else a

/-- Ordered comparison of values that are not NaNs: −0 equals +0. -/
def fVal (b : Nat) : Int := if fNeg b then -((b % 2 ^ 31 : Nat) : Int) else (b : Int)
def fLt (a b : Nat) : Bool := !fNan a && !fNan b && decide (fVal a < fVal b)
def fLe (a b : Nat) : Bool := !fNan a && !fNan b && decide (fVal a ≤ fVal b)
def fEq (a b : Nat) : Bool := !fNan a && !fNan b && decide (fVal a = fVal b)

/-- A finite value rounded to an integer: mode 0 nearest-even, 1 toward zero, 2 down, 3 up (CVTFI). -/
def fToInt (mode : Nat) (b : Nat) : Int :=
  let e0 := min (fExp b) 0
  let v := fScaled b e0
  let d : Int := ((2 ^ (-e0).toNat : Nat) : Int)
  let q := v / d
  let r := v % d
  if r = 0 then q
  else
    match mode with
    | 0 => if d < 2 * r ∨ (2 * r = d ∧ q % 2 ≠ 0) then q + 1 else q
    | 1 => if v < 0 then q + 1 else q
    | 2 => q
    | _ => q + 1

/-- CVTFI: saturates to the signed or unsigned range; a NaN gives 0. -/
def cvtFI (m a : Nat) : Nat × Nat :=
  let unsigned := bit m 2
  let lo : Int := if unsigned then 0 else -(2 ^ 31 : Nat)
  let hi : Int := if unsigned then (2 ^ 32 - 1 : Nat) else (2 ^ 31 - 1 : Nat)
  if fNan a then (0, flFinv)
  else if fIsInf a then (wrapI 32 (if fNeg a then lo else hi), flIov)
  else
    let v := fToInt (m % 4) a
    let c := clampI lo hi v
    (wrapI 32 c, if c = v then 0 else flIov)

/-- CVTIF. -/
def cvtIF (m a : Nat) : Nat := if bit m 0 then roundInt (a : Int) 0 else roundInt (sgn 32 a) 0

end Sys2Proof.Machine
end

