-- ==== Sys2Proof/Machine/Trees.lean ====
section
/-! DEFINITION. Features, node words, leaves, slot images and the evaluation of one tree for one record (R34 to R50,
R224, R225, R230 to R233). -/

namespace Sys2Proof.Machine

/-- The feature table: one descriptor byte per feature (R34, Table 2.3). -/
abbrev FTable := List Nat

def featDomain (d : Nat) : Nat := d % 8
def featCat (d : Nat) : Bool := bit d 3
/-- U16 and S16 are 2 bytes wide, the other domains 4 (R34). -/
def featWidth (d : Nat) : Nat := if featDomain d ≤ 1 then 2 else 4

/-- The byte offset of feature `f`: the sum of the widths before it (R34). -/
def featOffset (ft : FTable) (f : Nat) : Nat := ((ft.take f).map featWidth).sum

/-- The bytes of all feature values, and of the vector with its missing mask (R34). -/
def featBytes (ft : FTable) : Nat := (ft.map featWidth).sum
def vecBytes (ft : FTable) : Nat := featBytes ft + ceilDiv ft.length 8

/-- A feature of a vector: `none` when its mask bit is 1 or it is an F32 NaN (R35, R36); an F32 −0 reads as +0. -/
def readFeat (ft : FTable) (vec : List Byte) (f : Nat) : Option Nat :=
  let d := nth ft f 0
  let v := leAt vec (featOffset ft f) (featWidth d)
  if bit (leAt vec (featBytes ft + f / 8) 1) (f % 8) then none
  else if featDomain d = 4 then (if fNan v then none else some (if v = 2 ^ 31 then 0 else v))
  else some v

/-- The integer value of a feature in its domain (R35); F32 through its ordered key (R37). -/
def featInt (d v : Nat) : Int :=
  match featDomain d with
  | 1 => sgn 16 v
  | 3 => sgn 32 v
  | 4 => (ordKey v : Int)
  | _ => (v : Int)

/-- A threshold in the feature's domain (R37): S16 and S32 compare against a signed 32-bit threshold. -/
def threshInt (d t : Nat) : Int :=
  match featDomain d with
  | 1 => sgn 32 t
  | 3 => sgn 32 t
  | 4 => (ordKey t : Int)
  | _ => (t : Int)

/-- The fields of a node word (Table 2.4). -/
def nKind (w : DWord) : Nat := bits w.toNat 63 61
def nMiss (w : DWord) : Nat := bits w.toNat 60 60
def nFeat (w : DWord) : Nat := bits w.toNat 59 48
def nVal (w : DWord) : Nat := bits w.toNat 47 16
def nRight (w : DWord) : Nat := bits w.toNat 15 0

/-- Words of an internal node or leaf (Table 2.5). -/
def nWords (kind : Nat) : Nat := if kind = 2 then 2 else 1
def nLeaf (kind : Nat) : Bool := kind = 3 || kind = 4 || kind = 5

/-- The two-word header of a slot image (Table 8.2). -/
structure SlotHead where
  trees : Nat := 0
  catBase : Nat := 0
  winBase : Nat := 0
  words : Nat := 0
  catSets : Nat := 0
  reserved : Nat := 0
deriving DecidableEq, Repr

def slotHead (img : List DWord) : SlotHead :=
  let a := (nth img 0 0).toNat
  let b := (nth img 1 0).toNat
  { trees := bits a 17 0, catBase := bits a 36 18, winBase := bits a 55 37, words := bits b 18 0
    catSets := bits b 31 19, reserved := bits a 63 56 + bits b 63 32 }

/-- A directory entry (Table 8.3). -/
structure DirEntry where
  spill : Bool := false
  root : Nat := 0
  spBlock : Nat := 0
  spLen : Nat := 0
  outBase : Nat := 0
  vlen : Nat := 0
  depth : Nat := 0
  reserved : Nat := 0
deriving DecidableEq, Repr

def dirEntryOf (w : DWord) : DirEntry :=
  let v := w.toNat
  let sp := bit v 63
  { spill := sp, root := bits v 18 0, spBlock := bits v 28 0, spLen := bits v 34 29, outBase := bits v 46 41
    vlen := bits v 51 47, depth := bits v 56 52
    reserved := bits v 62 57 + (if sp then bits v 40 35 else bits v 40 19) }

/-- Directory index i is word 2 + i of the image (R224). -/
def dirEntry (img : List DWord) (i : Nat) : DirEntry := dirEntryOf (nth img (2 + i) 0)

/-- Category-set membership (R42): set i lies at CAT_BASE + 4i; values of 256 or more are no members. -/
def catMember (img : List DWord) (catBase set v : Nat) : Bool :=
  decide (v < 256) && bit (nth img (catBase + 4 * set + v / 64) 0).toNat (v % 64)

/-- The four terms of an oblique node (R43). -/
def obliqueTerms (w0 w1 : DWord) : List (Nat × Int) :=
  let v := w0.toNat
  let u := w1.toNat
  [(nFeat w0, sgn 8 (bits v 23 16)), (bits u 63 52, sgn 8 (bits v 31 24)),
   (bits u 51 40, sgn 8 (bits v 39 32)), (bits u 39 28, sgn 8 (bits v 47 40))]

/-- Whether an internal node sends the record left (R37, R42, R43); a missing feature takes the MISS branch (R36). -/
def goesLeft (ft : FTable) (img : List DWord) (catBase : Nat) (vec : List Byte) (a : Nat) : Bool :=
  let w := nth img a 0
  let miss := nMiss w = 0
  match nKind w with
  | 0 =>
    match readFeat ft vec (nFeat w) with
    | none => miss
    | some x => decide (featInt (nth ft (nFeat w) 0) x < threshInt (nth ft (nFeat w) 0) (nVal w))
  | 1 =>
    match readFeat ft vec (nFeat w) with
    | none => miss
    | some x => catMember img catBase (nVal w % 4096) x
  | _ =>
    let w1 := nth img (a + 1) 0
    let ts := obliqueTerms w w1
    if ts.any (fun t => (readFeat ft vec t.1).isNone) then miss
    else
      decide ((ts.map (fun t => t.2 * featInt (nth ft t.1 0) ((readFeat ft vec t.1).getD 0))).sum
        < sgn 28 (bits w1.toNat 27 0))

/-- A reached leaf: the values it adds, element i to output base + i, as exact integers (INT32) or binary32 bits (FP32);
whether a float linear leaf was clamped (R48); and the leaf's lane cycles (Table 8.5). -/
structure LeafVal where
  vals : List Int := []
  clamped : Bool := false
  cycles : Nat := 0
deriving DecidableEq, Repr

/-- A float leaf value as stored: −0 is stored as +0 (R44). -/
def storedF32 (v : Nat) : Nat := if v = 2 ^ 31 then 0 else v

/-- The words of an element list packed two to a word (R45). -/
def vecElem (img : List DWord) (a i : Nat) : Nat :=
  let w := (nth img (a + i / 2) 0).toNat
  if i % 2 = 0 then w % 2 ^ 32 else w / 2 ^ 32

/-- A feature converted to binary32 (R48). -/
def featF32 (d v : Nat) : Nat :=
  match featDomain d with
  | 1 => roundInt (sgn 16 v) 0
  | 3 => roundInt (sgn 32 v) 0
  | 4 => v
  | _ => roundInt (v : Int) 0

/-- The exact value of an INT32 linear leaf (R47). -/
def linearInt (ft : FTable) (img : List DWord) (vec : List Byte) (a k : Nat) : Int :=
  let h := (nth img a 0).toNat
  let s := ((List.range k).map (fun i =>
    let t := (nth img (a + 1 + i) 0).toNat
    let f := bits t 59 48
    match readFeat ft vec f with
    | none => 0
    | some x => sgn 16 (bits t 15 0) * featInt (nth ft f 0) x)).sum
  sgn 32 (bits h 31 0) + s / (2 ^ bits h 36 32 : Nat)

/-- The value of an FP32 linear leaf (R48): terms in order, each product and each sum rounded; a result that is not finite
is replaced, and the reply carries SAT. -/
def linearF32 (ft : FTable) (img : List DWord) (vec : List Byte) (a k : Nat) : Nat × Bool :=
  let b := storedF32 ((nth img a 0).toNat % 2 ^ 32)
  let v := (List.range k).foldl (fun acc i =>
    let t := (nth img (a + 1 + i) 0).toNat
    let f := bits t 59 48
    match readFeat ft vec f with
    | none => acc
    | some x => (fAdd acc (fMul (storedF32 (t % 2 ^ 32)) (featF32 (nth ft f 0) x)).1).1) b
  if fNan v then (0, true)
  else if fIsInf v then (signBit (fNeg v) + fMaxFinite, true)
  else (v, false)

/-- The leaf at word `a` (R44 to R48). -/
def leafVal (ft : FTable) (img : List DWord) (vec : List Byte) (f32 : Bool) (a : Nat) : LeafVal :=
  let w := nth img a 0
  let elem := fun (v : Nat) => if f32 then ((storedF32 v : Nat) : Int) else sgn 32 v
  match nKind w with
  | 3 => { vals := [elem (nVal w)] }
  | 4 => { vals := (List.range (bits w.toNat 52 48)).map (fun i => elem (vecElem img (bits w.toNat 34 16) i)) }
  | _ =>
    let k := bits w.toNat 51 48
    let t := bits w.toNat 34 16
    if f32 then
      let r := linearF32 ft img vec t k
      { vals := [(r.1 : Int)], clamped := r.2, cycles := 1 + k }
    else { vals := [linearInt ft img vec t k], cycles := 1 + k }

/-- Walks a tree from the internal node at word `a`, at most `fuel` internal nodes; adds the lane cycles of the nodes met (R230 to R233). Whether
the chosen child is a leaf is looked up in the leaf map (R231). -/
def walkTree (ft : FTable) (img : List DWord) (leaf : Nat → Bool) (catBase : Nat) (vec : List Byte) (f32 : Bool) : Nat → Nat → Nat → LeafVal
  | 0, _, _ => {}
  | fuel + 1, a, cyc =>
    let w := nth img a 0
    let n := nWords (nKind w)
    let next := if goesLeft ft img catBase vec a then a + n else a + nRight w
    if leaf next then
      let l := leafVal ft img vec f32 next
      { l with cycles := l.cycles + (cyc + n) }
    else walkTree ft img leaf catBase vec f32 fuel next (cyc + n)

/-- A tree evaluated from its root: a root that is itself a leaf is found in the first stage R (R231). A tree is at most 24 deep (R41). -/
def evalRoot (ft : FTable) (img : List DWord) (leaf : Nat → Bool) (catBase : Nat) (vec : List Byte) (f32 : Bool) (root : Nat) : LeafVal :=
  if nLeaf (nKind (nth img root 0)) then leafVal ft img vec f32 root else walkTree ft img leaf catBase vec f32 25 root 0

/-- One directory entry evaluated for one vector: an on-chip tree from its root in the image, by the image's leaf map; a spilled tree from its words
in the set's Spillway area, whose leaves show by their kind as they stand in the window (R225, R226, R243). -/
def evalEntry (ft : FTable) (img : List DWord) (leaves : List Nat) (spill : List DWord) (vec : List Byte) (f32 : Bool) (e : DirEntry) : LeafVal :=
  if e.spill then
    let tree := spill.drop (e.spBlock * 32)
    evalRoot ft tree (fun a => nLeaf (nKind (nth tree a 0))) 0 vec f32 0
  else evalRoot ft img leaves.contains (slotHead img).catBase vec f32 e.root

/-- The words of a tree's leaves, from word `a` down, at most `fuel` internal nodes deep (R226). -/
def leafWords (img : List DWord) : Nat → Nat → List Nat
  | 0, _ => []
  | fuel + 1, a =>
    let w := nth img a 0
    if nLeaf (nKind w) then [a] else leafWords img fuel (a + nWords (nKind w)) ++ leafWords img fuel (a + nRight w)

/-- The leaf map of a slot image, as the addresses of its set bits (R226): the device walks every on-chip tree from its root. -/
def leafMap (img : List DWord) : List Nat :=
  (List.range (slotHead img).trees).flatMap (fun i =>
    let e := dirEntry img i
    if e.spill then [] else leafWords img 26 e.root)

end Sys2Proof.Machine
end

