-- ==== Sys2Proof/Machine/Match.lean ====
section
/-! DEFINITION. Match units: search layouts, keys, entries, the first match, and the answer of a rule table
(R254 to R264). -/

namespace Sys2Proof.Machine

/-- A key field descriptor (Table 9.2). -/
structure KeyField where
  feat : Nat := 0
  kind : Nat := 0
  bitPos : Nat := 16
  width : Nat := 1
  missFill : Bool := false
  base : Nat := 0
  reserved : Nat := 0
deriving DecidableEq, Repr

/-- A search layout (R255): NFIELDS and the descriptors read; `reserved` sums head bytes and unread descriptors. -/
structure KeyLayout where
  nfields : Nat := 1
  fields : List KeyField := []
  reserved : Nat := 0
deriving DecidableEq, Repr

/-- A selector entry (Table 9.4). -/
structure SelEntry where
  kind : Nat := 0
  layout : Nat := 0
  index : Nat := 0
  outBase : Nat := 0
  vlen : Nat := 0
  depth : Nat := 0
  reserved : Nat := 0
deriving DecidableEq, Repr

/-- An entry record (Table 9.3). -/
structure MuEntry where
  key : Nat := 0
  mask : Nat := 0
  prio : Nat := 0
  pres : Nat := 0
  result : Nat := 0
  reserved : Nat := 0
deriving DecidableEq, Repr

/-- The image of one logical match unit (R253, R254): layouts, thresholds, category sets of four words, selectors, entries
by relative address, table memory. -/
structure MuImage where
  layouts : List KeyLayout := []
  thresholds : List Nat := []
  catSets : List (List DWord) := []
  selectors : List SelEntry := []
  entries : SMap MuEntry := []
  table : List DWord := []
deriving DecidableEq, Repr

/-- A free entry (R258). -/
def MuEntry.free (e : MuEntry) : Bool := e.pres % 4 == 0

/-- The order key of a raw field (R256). -/
def rawKey (d x : Nat) : Nat :=
  match featDomain d with
  | 1 => (wrapI 32 (sgn 16 x) + 2 ^ 31) % 2 ^ 32
  | 3 => (x + 2 ^ 31) % 2 ^ 32
  | 4 => ordKey x
  | _ => x

/-- The bits of one key field, the missing bit at WIDTH (R256, R257). -/
def fieldBits (img : MuImage) (ft : FTable) (vec : List Byte) (f : KeyField) : Nat :=
  let d := nth ft f.feat 0
  match readFeat ft vec f.feat with
  | none => (if f.kind = 0 ∧ f.missFill then 2 ^ f.width - 1 else 0) + 2 ^ f.width
  | some x =>
    match f.kind with
    | 0 => bitmap ((List.range f.width).map (fun i =>
        !decide (featInt d x < threshInt d (nth img.thresholds (f.base + i) 0))))
    | 1 => rawKey d x / 2 ^ (f.base % 32) % 2 ^ f.width
    | _ => bitmap ((List.range f.width).map (fun j =>
        decide (x < 256) && bit (nth (nth img.catSets (f.base + j) []) (x / 64) 0).toNat (x % 64)))

/-- The search key of a selector (R255): selector in bits [15:0], the fields of its layout above. -/
def searchKey (img : MuImage) (ft : FTable) (vec : List Byte) (sel : Nat) : Nat :=
  let lay := nth img.layouts (nth img.selectors sel {}).layout {}
  sel % 65536 + (((lay.fields.take lay.nfields).map (fun f => fieldBits img ft vec f * 2 ^ f.bitPos)).sum)

/-- An entry matches: present in generation g, and equal at every cared bit (R259). -/
def entryMatches (e : MuEntry) (key g : Nat) : Bool := bit e.pres g && (key ^^^ e.key) &&& e.mask == 0

/-- The matching entry of highest priority; ties go to the lowest address (R259). -/
def firstMatch (entries : SMap MuEntry) (key g : Nat) : Option (Nat × MuEntry) :=
  entries.foldl (fun best e =>
    if entryMatches e.2 key g then
      match best with
      | none => some e
      | some b => if b.2.prio < e.2.prio then some e else some b
    else best) none

/-- The array as it stands: the copy's rows, with upset rows in their place (R271). -/
def arrayRows (copy upsets : SMap MuEntry) : SMap MuEntry := upsets.foldl (fun m e => m.put e.1 e.2) copy

/-- What one search in one unit gives (R271): the match, and the rows rewritten from the copy. `none` is a second
disagreement, which is uncorrectable. -/
def searchUnit (copy upsets : SMap MuEntry) (key g : Nat) : Option (Option (Nat × MuEntry)) × List Nat :=
  let ok := fun (a : Nat) (row : MuEntry) =>
    let c := (copy.find? a).getD {}
    decide (c = row) && entryMatches c key g
  match firstMatch (arrayRows copy upsets) key g with
  | none => (some none, [])
  | some (a, e) =>
    if ok a e then (some (some (a, e)), [])
    else
      match firstMatch (arrayRows copy (upsets.del a)) key g with
      | none => (some none, [a])
      | some (a', e') => (if ok a' e' then some (some (a', e')) else none, [a])

/-- The elements a tree search adds (R262): a scalar or vector leaf word, table addresses in the unit's table memory. -/
def muLeafVals (img : MuImage) (f32 : Bool) (w : Nat) : List Int :=
  let word := BitVec.ofNat 64 w
  let elem := fun (v : Nat) => if f32 then ((storedF32 v : Nat) : Int) else sgn 32 v
  if nKind word = 3 then [elem (nVal word)]
  else (List.range (bits w 52 48)).map (fun i => elem (vecElem img.table (bits w 34 16) i))

/-- Combines the answers of a replica's parts (R264): highest PRIO, then lowest table address 8,192 × k + a. -/
def combineParts (parts : List (Nat × Nat × MuEntry)) : Option (Nat × MuEntry) :=
  (parts.map (fun p => (8192 * p.1 + p.2.1, p.2.2))).foldl (fun best e =>
    match best with
    | none => some e
    | some b =>
      if b.2.prio < e.2.prio ∨ (b.2.prio = e.2.prio ∧ e.1 < b.1) then some e else some b) none

/-- An edit entry of a RULE_EDIT body (Table 9.5). -/
structure EditEntry where
  op : Nat := 1
  part : Nat := 0
  addr : Nat := 0
  prio : Nat := 0
  key : Nat := 0
  mask : Nat := 0
  value : Nat := 0
  reserved : Nat := 0
deriving DecidableEq, Repr

/-- Reads an edit entry from its 64 bytes. -/
def parseEdit (b : List Byte) : EditEntry :=
  { op := leAt b 0 1, part := leAt b 1 1, addr := leAt b 2 2, prio := leAt b 4 2, key := leAt b 8 24, mask := leAt b 32 24
    value := leAt b 56 4, reserved := leAt b 6 2 + leAt b 60 4 }

/-- The entry rule of R258: every key bit whose mask bit is 0 is 0; a free entry is all 0; reserved bytes 0. -/
def entryOk (e : MuEntry) : Bool :=
  e.reserved == 0 && decide (e.pres < 4) && (e.key &&& e.mask) == e.key &&
  (if e.pres = 0 then e.key == 0 && e.mask == 0 && e.prio == 0 && e.result == 0 else true)

/-- Writes of one edit entry with parity p (R269): a write is present in generation p only, a delete leaves it there. -/
def applyEdit (entries : SMap MuEntry) (e : EditEntry) (p : Nat) : SMap MuEntry :=
  if e.op = 1 then
    entries.put e.addr { key := e.key, mask := e.mask, prio := e.prio, pres := 2 ^ p, result := e.value }
  else
    match entries.find? e.addr with
    | some old => entries.put e.addr { old with pres := setBit old.pres p false }
    | none => entries

/-- Settle (R269): the other presence bit takes the value of `P`p; an entry left with none becomes free. -/
def settleEntry (entries : SMap MuEntry) (a p : Nat) : SMap MuEntry :=
  match entries.find? a with
  | some e => if bit e.pres p then entries.put a { e with pres := 3 } else entries.del a
  | none => entries

end Sys2Proof.Machine
end

