-- ==== Sys2Proof/Machine/Settle.lean ====
section
/-! DEFINITION. Dispatch policies, candidates, ranking, the ordered settlement, route and tag sections and command lists
(chapter 11, R304 to R323). -/

namespace Sys2Proof.Machine

/-- A dispatch policy (Table 11.1). `flags` is the FLAGS byte. -/
structure Policy where
  index : Nat := 0
  policy : Nat := 0
  source : Nat := 0
  flags : Nat := 0
  nscore : Nat := 1
  keep : Nat := 1
  want : Nat := 1
  wbase : Nat := 0
  spill : Nat := 0
  destBase : Nat := 0
  minScore : Nat := 0
  reserved : Nat := 0
deriving DecidableEq, Repr

def Policy.f32 (p : Policy) : Bool := bit p.flags 0
def Policy.renorm (p : Policy) : Bool := bit p.flags 1
def Policy.minEn (p : Policy) : Bool := bit p.flags 2
def Policy.wsrc (p : Policy) : Nat := bits p.flags 4 3
def Policy.cmdlist (p : Policy) : Nat := bits p.flags 6 5

/-- A destination table entry (Table 11.2). -/
structure DestEntry where
  cap : Nat := 0
  valid : Bool := false
  targetEn : Bool := false
  reserved : Nat := 0
  target : Nat := 0
deriving DecidableEq, Repr

/-- CAP 0xFFFFFF is unlimited (Table 11.2). -/
def capUnlimited : Nat := 0xFFFFFF

/-- A policy from its 32 bytes (Table 11.1). -/
def policyOfBytes (b : List Byte) : Policy :=
  { index := leAt b 0 1, policy := leAt b 1 1, source := leAt b 2 1, flags := leAt b 3 1, nscore := leAt b 4 1
    keep := leAt b 5 1, want := leAt b 6 1, wbase := leAt b 7 1, spill := leAt b 8 2, destBase := leAt b 10 2
    minScore := leAt b 12 4, reserved := leAt b 16 16 }

/-- A destination table entry from its 8 bytes (Table 11.2). -/
def destOfBytes (b : List Byte) : DestEntry :=
  { cap := leAt b 0 3, valid := bit (leAt b 3 1) 0, targetEn := bit (leAt b 3 1) 1, reserved := leAt b 3 1 / 4
    target := leAt b 4 4 }

/-- The load checks of R304 on a policy. -/
def policyOk (dests : SMap DestEntry) (p : Policy) : Bool :=
  decide (p.index < 16) && decide (p.policy ≤ 3) && decide (p.source ≤ 1) && p.wsrc != 3 && p.cmdlist != 3 &&
  decide (p.flags < 128) && (if p.source = 0 then decide (1 ≤ p.nscore) && decide (p.nscore ≤ 64) else p.nscore == 0) &&
  decide (1 ≤ p.keep) && decide (p.keep ≤ 16) && decide (1 ≤ p.want) && decide (p.want ≤ p.keep) &&
  (if p.wsrc = 2 then decide (p.wbase ≤ 63) else p.wbase == 0) && (p.policy == 3 || p.spill == 0) &&
  (if p.source = 0 then decide (p.destBase + p.nscore ≤ 65536) else p.destBase == 0) &&
  !(p.wsrc == 1 && !p.f32) && p.reserved == 0 && !(p.policy == 0 && p.cmdlist != 0) &&
  (if p.policy = 3 then
     match dests.find? p.spill with
     | some d => d.valid && d.cap == capUnlimited
     | none => false
   else true)

/-- The candidate section at the end of a ROUTE payload (R306): entries (DEST, CTAG), UTAG, and the bytes it takes; or a
MALFORMED cause. `room` is the payload that remains after the feature block or key section. -/
def parseCands (p : List Byte) (room : Nat) : Except Nat (List (Nat × Nat) × Nat × Nat) :=
  let tr := p.drop (p.length - 8)
  let n := leAt tr 0 1
  let len := 8 * (n + 1)
  if room < 8 ∨ p.length < 8 ∨ 16 < n ∨ room < len then .error 8
  else
    let es := p.drop (p.length - len)
    if (List.range n).any (fun i => leAt es (8 * i + 2) 2 ≠ 0) ∨ leAt tr 1 3 ≠ 0 then .error 4
    else .ok ((List.range n).map (fun i => (leAt es (8 * i) 2, leAt es (8 * i + 4) 4)), leAt tr 4 4, len)

/-- A ranked candidate: its index i, destination, score key, weight (R308) and CTAG. -/
structure Ranked where
  dest : Nat := 0
  score : Nat := 0
  weight : Nat := 0
  ctag : Nat := 0
deriving DecidableEq, Repr

/-- The comparison key of a score (R307): signed, or the ordered key of R37 with −0 as +0. -/
def scoreKey (f32 : Bool) (s : Nat) : Int :=
  if f32 then ((ordKey (if s = 2 ^ 31 then 0 else s) : Nat) : Int) else sgn 32 s

/-- The score is below MIN_SCORE (R307). -/
def scoreLow (p : Policy) (s : Nat) : Bool :=
  p.minEn && (if p.f32 then fLt s p.minScore else decide (sgn 32 s < sgn 32 p.minScore))

/-- Inserts a candidate behind every candidate that scores at least as high: candidates come in rising i. -/
def insRanked (f32 : Bool) (c : Ranked) : List Ranked → List Ranked
  | [] => [c]
  | d :: l => if scoreKey f32 d.score < scoreKey f32 c.score then c :: d :: l else d :: insRanked f32 c l

/-- Drops a candidate whose destination ranks above it already (R307). -/
def dedupRanked (seen : List Nat) : List Ranked → List Ranked
  | [] => []
  | c :: l => if c.dest ∈ seen then dedupRanked seen l else c :: dedupRanked (c.dest :: seen) l

/-- Ranks the candidates of a record (R307): the ranked list, cut to KEEP, and how many candidates were not ranked. -/
def rankCands (p : Policy) (dests : SMap DestEntry) (results : List Word) (cands : List (Nat × Nat)) :
    List Ranked × Nat :=
  let all : List (Nat × Nat × Nat) :=
    if p.source = 0 then (List.range p.nscore).map (fun i => (i, p.destBase + i, 0))
    else (cands.zipIdx).map (fun c => (c.2, c.1.1, c.1.2))
  let word := fun (i : Nat) => (nth results i 0).toNat
  let ok := all.filter (fun c =>
    decide (c.1 < results.length) && (match dests.find? c.2.1 with | some d => d.valid | none => false) &&
    !(p.f32 && fNan (word c.1)) && !scoreLow p (word c.1))
  let weight := fun (i : Nat) =>
    if p.wsrc = 0 then 0x3F800000 else if p.wsrc = 1 then word i
    else if p.wbase + i < results.length then word (p.wbase + i) else 0
  let sorted := ok.foldl (fun l c =>
    insRanked p.f32 { dest := c.2.1, score := word c.1, weight := weight c.1, ctag := c.2.2 } l) []
  let ded := dedupRanked [] sorted
  (ded.take p.keep, all.length - ded.length)

/-- The SLOT of a choice that holds none (R321). -/
def noSlot : Nat := 0xFFFFFFFF

/-- A presented choice (R312): rank, destination, GRANT code, slot, weight, CTAG. -/
structure Choice where
  rank : Nat := 0
  dest : Nat := 0
  grant : Nat := 0
  slot : Nat := 0
  weight : Nat := 0
  ctag : Nat := 0
deriving DecidableEq, Repr

/-- A dispatched choice: granted, or spilled with a slot (R316, R321). -/
def Choice.dispatched (c : Choice) : Bool := (c.grant == 0 || c.grant == 3) && c.slot != noSlot

/-- A record that awaits settlement: the hub die and record table entry it belongs to, its order key and epoch, its policy,
its ranked list, what it has presented so far, its UTAG and REC_ID, and the BT at which its list became ready. -/
structure SetlRec where
  hub : Nat := 0
  ent : Nat := 0
  tenant : Nat := 0
  epoch : Nat := 0
  key : OrderKey := {}
  recId : Nat := 0
  policy : Policy := {}
  ranked : List Ranked := []
  choices : List Choice := []
  utag : Nat := 0
  late : Bool := false
deriving DecidableEq, Repr

/-- `presents(R, r)` of R310. -/
def SetlRec.presents (x : SetlRec) (r : Nat) : Bool :=
  decide (r < x.ranked.length) &&
  (if x.policy.policy = 2 then decide ((x.choices.filter Choice.dispatched).length < x.policy.want)
   else decide (r < x.policy.want))

/-- The GRANT code of a refusal (Table 11.3, R316). -/
def refuseGrant (pol : Nat) : Nat := if pol = 2 then 2 else if pol = 3 then 3 else 1

/-- The choice of rank r refused at or after close (R316). -/
def SetlRec.refuseAt (x : SetlRec) (r : Nat) : SetlRec :=
  let c := nth x.ranked r {}
  { x with choices := x.choices ++ [{ rank := r, dest := if x.policy.policy = 3 then x.policy.spill else c.dest
                                      grant := refuseGrant x.policy.policy, slot := noSlot, weight := c.weight, ctag := c.ctag }] }

/-- The counts of a bank. -/
abbrev CapBank := SMap Nat

/-- Presents the choice of rank r against the counters (R310, R311). -/
def SetlRec.present (cap : Nat → Nat) (bank : CapBank) (x : SetlRec) (r : Nat) : CapBank × SetlRec :=
  let c := nth x.ranked r {}
  let d := c.dest
  let n := SMap.getD (fun _ => 0) bank d
  let take := fun (grant dest : Nat) =>
    let k := SMap.getD (fun _ => 0) bank dest
    (bank.put dest (k + 1),
     { x with choices := x.choices ++ [{ rank := r, dest := dest, grant := grant, slot := k, weight := c.weight, ctag := c.ctag }] })
  if cap d = capUnlimited ∨ n < cap d then take 0 d
  else if x.policy.policy = 3 then take 3 x.policy.spill
  else (bank, { x with choices := x.choices ++ [{ rank := r, dest := d, grant := refuseGrant x.policy.policy, slot := noSlot
                                                  weight := c.weight, ctag := c.ctag }] })

/-- One pass over the records, which stand in order-key order (R310). -/
def settlePass (cap : Nat → Nat) (r : Nat) : CapBank → List SetlRec → CapBank × List SetlRec
  | bank, [] => (bank, [])
  | bank, x :: xs =>
    let y := if x.presents r then x.present cap bank r else (bank, x)
    let t := settlePass cap r y.1 xs
    (t.1, y.2 :: t.2)

/-- The length of pass r in hub cycles (R317); `side` is the hub die that counts a destination. -/
def passCycles (side : Nat → Nat) (xs : List SetlRec) (r : Nat) : Nat :=
  let q := fun (h : Nat) => (xs.filter (fun x => x.presents r && side (nth x.ranked r {}).dest == h)).length
  max (ceilDiv (q 0) 32 + 16) (ceilDiv (q 1) 32 + 16)

/-- The outcome of the ordered procedure (R310, R317): the bank, the records, its length in hub cycles, the choices refused
by an overrun, and of those the ones of hub die 1's records. -/
structure SettleOut where
  bank : CapBank := []
  recs : List SetlRec := []
  cycles : Nat := 0
  overrun : Nat := 0
  overrun1 : Nat := 0
deriving DecidableEq, Repr

/-- The passes from `r` on; `limit` is the hub cycles until the close tick, `cut` says that a pass has been cut. -/
def settlePasses (cap side : Nat → Nat) (limit : Nat) : Nat → Nat → Bool → SettleOut → SettleOut
  | 0, _, _, o => o
  | n + 1, r, cut, o =>
    let any := o.recs.any (fun x => x.presents r)
    if any = false then o
    else
      let len := passCycles side o.recs r
      if cut = true ∨ limit < o.cycles + len then
        let k := (o.recs.filter (fun x => x.presents r)).length
        let k1 := (o.recs.filter (fun x => x.presents r && x.hub == 1)).length
        settlePasses cap side limit n (r + 1) true
          { o with recs := o.recs.map (fun x => if x.presents r then x.refuseAt r else x), overrun := o.overrun + k
                   overrun1 := o.overrun1 + k1 }
      else
        let t := settlePass cap r o.bank o.recs
        settlePasses cap side limit n (r + 1) false { o with bank := t.1, recs := t.2, cycles := o.cycles + len }

/-- Records in order-key order. -/
def insKey (x : SetlRec) : List SetlRec → List SetlRec
  | [] => [x]
  | y :: l => if x.key.lt y.key then x :: y :: l else y :: insKey x l

/-- The ordered procedure of an epoch (R310, R317), on a zeroed bank. -/
def settleOrdered (cap side : Nat → Nat) (limit : Nat) (xs : List SetlRec) : SettleOut :=
  settlePasses cap side limit 16 0 false { recs := xs.foldl (fun l x => insKey x l) [] }

/-- One record alone: its own passes against the counters that remain (R316). -/
def settleLate (cap : Nat → Nat) (bank : CapBank) (x : SetlRec) : CapBank × SetlRec :=
  (List.range 16).foldl (fun s r => if s.2.presents r then s.2.present cap s.1 r else s) (bank, x)

/-- A record that became ready after close: every presented choice is refused (R316). -/
def refuseAll (x : SetlRec) : SetlRec :=
  (List.range 16).foldl (fun y r => if y.presents r then y.refuseAt r else y) x

/-- The choices of a NONE policy (R315): the first WANT ranked candidates, GRANT 0, no slot. -/
def noneChoices (x : SetlRec) : List Choice :=
  ((x.ranked.take x.policy.want).zipIdx).map (fun c =>
    { rank := c.2, dest := c.1.dest, grant := 0, slot := noSlot, weight := c.1.weight, ctag := c.1.ctag })

/-- RENORM (R314): the choices with their weights, and whether the division was skipped. -/
def renormChoices (disp : Choice → Bool) (cs : List Choice) : List Choice × Bool :=
  let s := (cs.filter disp).foldl (fun a c => (fAdd a c.weight).1) 0
  if fNan s || fIsInf s || fZero s then (cs, true)
  else (cs.map (fun c => if disp c then { c with weight := (fDiv c.weight s).1 } else c), false)

/-- The route section (Table 3.11). -/
def routeBytes (cs : List Choice) : List Byte :=
  leBytes 1 cs.length ++ leBytes 7 0 ++
  (cs.map (fun c => leBytes 2 c.dest ++ leBytes 1 c.rank ++ leBytes 1 c.grant ++ leBytes 4 c.weight)).flatten

/-- The tag section (R321). -/
def tagBytes (epoch utag : Nat) (source : Nat) (cs : List Choice) : List Byte :=
  leBytes 4 epoch ++ leBytes 4 utag ++
  (cs.map (fun c => leBytes 4 c.slot ++ leBytes 4 (if source = 0 then 0 else c.ctag))).flatten

/-- One part of a command list (Table 11.6): its flags, destination, part number and entries (Table 11.7, 32 bytes each). -/
structure CmdPart where
  flags : Nat := 0
  epoch : Nat := 0
  dest : Nat := 0
  part : Nat := 0
  policy : Nat := 0
  tenant : Nat := 0
  setId : Nat := 0
  commit : Nat := 0
  target : Nat := 0
  entries : List (List Byte) := []
deriving DecidableEq, Repr

/-- A command list entry (Table 11.7). -/
def cmdEntry (x : SetlRec) (c : Choice) : List Byte :=
  leBytes 8 x.recId ++ leBytes 4 c.weight ++ leBytes 4 c.slot ++ leBytes 2 x.key.seq ++ leBytes 2 (x.key.dev % 8192) ++
  leBytes 1 (x.key.port % 16) ++ leBytes 1 c.rank ++ leBytes 1 (b2n (c.grant == 3)) ++ leBytes 1 0 ++
  leBytes 4 x.utag ++ leBytes 4 (if x.policy.source = 0 then 0 else c.ctag)

/-- The bytes of a part (Tables 11.6 and 11.7). -/
def cmdPartBytes (dev : Nat) (p : CmdPart) : List Byte :=
  leBytes 2 0x4C43 ++ leBytes 1 1 ++ leBytes 1 p.flags ++ leBytes 4 p.epoch ++ leBytes 2 p.dest ++
  leBytes 2 p.entries.length ++ leBytes 2 p.part ++ leBytes 1 p.policy ++ leBytes 1 p.tenant ++
  leBytes 2 (dev % 8192) ++ leBytes 2 0 ++ leBytes 4 p.setId ++ leBytes 4 p.commit ++ leBytes 4 0 ++ p.entries.flatten

/-- Splits entries into parts of 255; one empty part for none (R322). -/
def splitParts : Nat → List (List Byte) → List (List (List Byte))
  | 0, l => [l]
  | n + 1, l => if l.length ≤ 255 then [l] else l.take 255 :: splitParts n (l.drop 255)

/-- Dispatched choices to one destination in slot order, as (slot, entry). -/
def insSlot (e : Nat × List Byte) : List (Nat × List Byte) → List (Nat × List Byte)
  | [] => [e]
  | f :: l => if e.1 < f.1 then e :: f :: l else f :: insSlot e l

/-- The entries of one policy for one destination, in slot order (R322). -/
def cmdEntries (recs : List SetlRec) (pol dest : Nat) : List (List Byte) :=
  let es := (recs.filter (fun x => x.policy.index = pol)).flatMap (fun x =>
    (x.choices.filter (fun c => c.dispatched && c.dest == dest)).map (fun c => (c.slot, cmdEntry x c)))
  ((es.foldl (fun l e => insSlot e l) []).map Prod.snd)

/-- The ordered lists of one policy (R322): one list to each destination with TARGET_EN that got a choice; under CMDLIST 2
an empty one to every other destination with TARGET_EN. -/
def cmdLists (base : CmdPart) (recs : List SetlRec) (dests : SMap DestEntry) (p : Policy) : List CmdPart :=
  if p.cmdlist = 0 then []
  else
    (dests.filter (fun d => d.2.targetEn)).flatMap (fun d =>
      let es := cmdEntries recs p.index d.1
      if es.isEmpty && p.cmdlist == 1 then []
      else
        let ps := splitParts (es.length / 255 + 1) es
        (ps.zipIdx).map (fun q =>
          { base with flags := b2n (q.2 + 1 == ps.length), dest := d.1, part := q.2, policy := p.index
                      target := d.2.target, entries := q.1 }))

end Sys2Proof.Machine
end

