-- ==== Sys2Proof/Machine/VecIsa.lean ====
section
/-! DEFINITION. The vector engines' instruction set on one lane (R198 to R215): registers with missing tags, predicates,
flags, segments, loop terms, and the value of every operation. -/

namespace Sys2Proof.Machine

/-- An instruction word taken apart (Table 7.5). -/
structure VIns where
  op : Nat := 0
  pg : Nat := 0
  pn : Nat := 0
  d : Nat := 0
  a : Nat := 0
  b : Nat := 0
  m : Nat := 0
  imm : Nat := 0
deriving DecidableEq, Repr

/-- The fields of an instruction word (Table 7.5). -/
def vIns (w : DWord) : VIns :=
  let v := w.toNat
  { op := bits v 63 56, pg := bits v 55 53, pn := bits v 52 52, d := bits v 51 47, a := bits v 46 42
    b := bits v 41 37, m := bits v 36 32, imm := bits v 31 0 }

/-- A program of a model set (Table 7.10): code words and constant bytes. -/
structure VProg where
  kind : Nat := 1
  index : Nat := 0
  flags : Nat := 0
  nres : Nat := 0
  codeLen : Nat := 0
  constLen : Nat := 0
  cycles : Nat := 0
  setId : Nat := 0
  setVersion : Nat := 0
  reserved : Nat := 0
  code : List DWord := []
  const : List Byte := []
deriving DecidableEq, Repr

/-- A segment as a lane sees it (R201, R202): its bytes, `none` for a byte that is absent. -/
abbrev Seg := List (Option Byte)

/-- One register: 32 value bits and the missing tag. -/
abbrev VReg := Word × Bool

/-- One lane (Table 7.1, R198): registers, predicates, flags, the output vector as (value, missing) with the width in bytes
of each feature, the carry words, the result words, and the segments by code. -/
structure Lane where
  v : List VReg := []
  p : List Bool := []
  flags : Nat := 0
  feats : List (Nat × Bool) := []
  widths : List Nat := []
  carry : List VReg := []
  res : List Word := []
  segs : List Seg := []
deriving DecidableEq, Repr

/-- An open loop (R209): body start, iteration, count, byte stride, index stride. -/
structure LoopFrame where
  start : Nat := 0
  i : Nat := 0
  count : Nat := 1
  bstride : Nat := 0
  istride : Nat := 0
deriving DecidableEq, Repr

/-- A register: V0 reads 0, untagged (Table 7.1). -/
def Lane.reg (l : Lane) (i : Nat) : VReg := if i = 0 then (0, false) else nth l.v i (0, false)

/-- Writes a register; writes to V0 are ignored. -/
def Lane.setReg (l : Lane) (i : Nat) (r : VReg) : Lane := if i = 0 then l else { l with v := setNth l.v i r }

/-- A predicate: P0 reads 1. -/
def Lane.pred (l : Lane) (i : Nat) : Bool := if i = 0 then true else nth l.p i false

/-- Writes a predicate; writes to P0 are ignored. -/
def Lane.setPred (l : Lane) (i : Nat) (b : Bool) : Lane := if i = 0 then l else { l with p := setNth l.p i b }

/-- Sets sticky flags, unless an operand is tagged (R199). -/
def Lane.raise (l : Lane) (tagged : Bool) (fl : Nat) : Lane := if tagged then l else { l with flags := l.flags ||| fl }

/-- The guard of R200. -/
def Lane.guard (l : Lane) (i : VIns) : Bool := l.pred i.pg != (i.pn == 1)

/-- The second operand of a register-form operation (R205, R206). -/
def Lane.opB (l : Lane) (i : VIns) : VReg := if bit i.m 4 then (BitVec.ofNat 32 i.imm, false) else l.reg i.b

/-- A two-operand operation: destination takes its value and the tag of either operand; flags as R199 allows. -/
def laneBin (f : Nat → Nat → Nat × Nat) (i : VIns) (l : Lane) : Lane :=
  let a := l.reg i.a
  let b := l.opB i
  let r := f a.1.toNat b.1.toNat
  let t := a.2 || b.2
  (l.setReg i.d (BitVec.ofNat 32 r.1, t)).raise t r.2

/-- A one-operand operation. -/
def laneUn (f : Nat → Nat × Nat) (i : VIns) (l : Lane) : Lane :=
  let a := l.reg i.a
  let r := f a.1.toNat
  (l.setReg i.d (BitVec.ofNat 32 r.1, a.2)).raise a.2 r.2

/-- Clamps to the signed range; the flag when it saturates. -/
def satS (v : Int) : Nat × Nat :=
  let c := clampI (-(2 ^ 31 : Nat)) (2 ^ 31 - 1 : Nat) v
  (wrapI 32 c, if c = v then 0 else flIov)

/-- Clamps to the unsigned range; the flag when it saturates. -/
def satU (v : Int) : Nat × Nat :=
  let c := clampI 0 (2 ^ 32 - 1 : Nat) v
  (wrapI 32 c, if c = v then 0 else flIov)

/-- Integer operations of Table 7.6: (value, flags). -/
def opAdd (a b : Nat) : Nat × Nat := ((a + b) % 2 ^ 32, 0)
def opSub (a b : Nat) : Nat × Nat := (wrapI 32 ((a : Int) - b), 0)
def opAdds (a b : Nat) : Nat × Nat := satS (sgn 32 a + sgn 32 b)
def opSubs (a b : Nat) : Nat × Nat := satS (sgn 32 a - sgn 32 b)
def opAddus (a b : Nat) : Nat × Nat := satU ((a : Int) + b)
def opSubus (a b : Nat) : Nat × Nat := satU ((a : Int) - b)
def opMul (a b : Nat) : Nat × Nat := (a * b % 2 ^ 32, 0)
def opMulhu (a b : Nat) : Nat × Nat := (a * b / 2 ^ 32, 0)
def opMulhs (a b : Nat) : Nat × Nat := (wrapI 32 (sgn 32 a * sgn 32 b / (2 ^ 32 : Nat)), 0)
def opMins (a b : Nat) : Nat × Nat := (if sgn 32 b < sgn 32 a then b else a, 0)
def opMaxs (a b : Nat) : Nat × Nat := (if sgn 32 a < sgn 32 b then b else a, 0)
def opMinu (a b : Nat) : Nat × Nat := (min a b, 0)
def opMaxu (a b : Nat) : Nat × Nat := (max a b, 0)
def opAbs (a : Nat) : Nat × Nat := satS ((sgn 32 a).natAbs : Int)
def opDivu (a b : Nat) : Nat × Nat := if b = 0 then (0, flDz) else (a / b, 0)
def opDivs (a b : Nat) : Nat × Nat := if b = 0 then (0, flDz) else satS (Int.tdiv (sgn 32 a) (sgn 32 b))
def opAnd (a b : Nat) : Nat × Nat := (a &&& b, 0)
def opOr (a b : Nat) : Nat × Nat := (a ||| b, 0)
def opXor (a b : Nat) : Nat × Nat := (a ^^^ b, 0)
def opAndn (a b : Nat) : Nat × Nat := (a &&& (2 ^ 32 - 1 - b), 0)
def opShl (a b : Nat) : Nat × Nat := (a * 2 ^ (b % 32) % 2 ^ 32, 0)
def opShr (a b : Nat) : Nat × Nat := (a / 2 ^ (b % 32), 0)
def opSar (a b : Nat) : Nat × Nat := (wrapI 32 (sgn 32 a / (2 ^ (b % 32) : Nat)), 0)

/-- Population count of the low `n` bits. -/
def popCount : Nat → Nat → Nat
  | 0, _ => 0
  | n + 1, a => a % 2 + popCount n (a / 2)

def opPopc (a : Nat) : Nat × Nat := (popCount 32 a, 0)
def opClz (a : Nat) : Nat × Nat := (if a = 0 then 32 else 31 - a.log2, 0)

/-- BFX: the field at IMM[4:0], of length IMM[9:5] + 1; M[0] sign-extends. Field bits above bit 31 of A are 0. -/
def opBfx (i : VIns) (a : Nat) : Nat × Nat :=
  let len := bits i.imm 9 5 + 1
  let f := a / 2 ^ (i.imm % 32) % 2 ^ len
  (if bit i.m 0 then wrapI 32 (sgn len f) else f, 0)

/-- BFI: D with the field replaced by the low bits of A. -/
def opBfi (i : VIns) (d a : Nat) : Nat :=
  let pos := i.imm % 32
  let len := bits i.imm 9 5 + 1
  let hi := min 32 (pos + len)
  let mask := 2 ^ hi - 2 ^ pos
  (d &&& (2 ^ 32 - 1 - mask)) ||| (a * 2 ^ pos % 2 ^ hi &&& mask)

def laneBfi (i : VIns) (l : Lane) : Lane :=
  let a := l.reg i.a
  let d := l.reg i.d
  l.setReg i.d (BitVec.ofNat 32 (opBfi i d.1.toNat a.1.toNat), a.2 || d.2)

/-- MOVI, MOV, CLRM, SETM and SEL (R199). -/
def laneMovi (i : VIns) (l : Lane) : Lane := l.setReg i.d (BitVec.ofNat 32 i.imm, false)
def laneMov (i : VIns) (l : Lane) : Lane := l.setReg i.d (l.reg i.a)
def laneClrm (i : VIns) (l : Lane) : Lane := l.setReg i.d ((l.reg i.a).1, false)
def laneSetm (i : VIns) (l : Lane) : Lane := l.setReg i.d ((l.reg i.a).1, true)
def laneSel (i : VIns) (l : Lane) : Lane :=
  l.setReg i.d (if l.pred (i.m % 8) != bit i.m 3 then l.reg i.a else l.opB i)

/-- The conditions of Table 7.7 on untagged operands. -/
def cmpCond (c a b : Nat) : Bool :=
  match c with
  | 0 => a == b
  | 1 => a != b
  | 2 => decide (sgn 32 a < sgn 32 b)
  | 3 => decide (sgn 32 a ≤ sgn 32 b)
  | 4 => decide (a < b)
  | 5 => decide (a ≤ b)
  | 6 => fEq a b
  | 7 => fLt a b
  | 8 => fLe a b
  | 9 => fNan a || fNan b
  | 11 => (a &&& b) != 0
  | _ => false

/-- CMP (R199): MISS reads the tag of A alone; any other condition on a tagged operand yields 0. -/
def laneCmp (i : VIns) (l : Lane) : Lane :=
  let a := l.reg i.a
  let b := l.opB i
  let r := if i.m % 16 = 10 then a.2 else if a.2 || b.2 then false else cmpCond (i.m % 16) a.1.toNat b.1.toNat
  l.setPred (i.d % 8) r

/-- PLOG. -/
def lanePlog (i : VIns) (l : Lane) : Lane :=
  let a := l.pred (i.a % 8)
  let b := l.pred (i.b % 8)
  l.setPred (i.d % 8)
    (match i.m % 4 with
     | 0 => a && b
     | 1 => a || b
     | 2 => a != b
     | _ => a && !b)

/-- The segment of a PWL table that an input falls in (R212). -/
def pwlSegment (t : List Byte) (x : Int) : Nat → Nat
  | 0 => 0
  | n + 1 => if sgn 32 (leAt t (8 + 16 * (n + 1)) 4) ≤ x then n + 1 else pwlSegment t x n

/-- PWL (R212): exact, saturated to int32. -/
def opPwl (const : List Byte) (off a : Nat) : Nat × Nat :=
  let t := const.drop off
  let x := sgn 32 a
  let j := pwlSegment t x (leAt t 0 1 - 1)
  let xj := sgn 32 (leAt t (8 + 16 * j) 4)
  let yj := sgn 32 (leAt t (12 + 16 * j) 4)
  let mj := sgn 32 (leAt t (16 + 16 * j) 4)
  satS (yj + (x - xj) * mj / (2 ^ leAt t 1 1 : Nat))

/-- A value in the order that M[1:0] selects (R213). -/
def bktKey (mode a : Nat) : Int := if mode = 0 then sgn 32 a else if mode = 1 then (a : Int) else (ordKey a : Int)

/-- BKT (R213): the number of thresholds at or below the input; a NaN in F32 mode gives N + 1. -/
def opBkt (const : List Byte) (off mode a : Nat) : Nat × Nat :=
  let t := const.drop off
  let n := leAt t 0 2
  if mode = 2 ∧ fNan a then (n + 1, 0)
  else (((List.range n).filter (fun j => decide (bktKey mode (leAt t (8 + 4 * j) 4) ≤ bktKey mode a))).length, 0)

/-- The width in bytes and signedness of a load (R208). -/
def loadWidth (m : Nat) : Nat × Bool :=
  match m % 8 with
  | 0 => (1, false)
  | 1 => (1, true)
  | 2 => (2, false)
  | 3 => (2, true)
  | _ => (4, false)

/-- A load from a segment (R202): value, absent, out of bounds. A straddling load is absent as a whole. -/
def segLoad (s : Seg) (addr n : Nat) : Nat × Bool × Bool :=
  let bs := (s.drop addr).take n
  if bs.length < n then (0, true, true)
  else if bs.any Option.isNone then (0, true, false)
  else (leNat (bs.map (fun b => b.getD 0)), false, false)

/-- A load touches a carry word that is tagged (R201, R203): segment code 11 holds the words with their tags. -/
def Lane.carryTag (l : Lane) (addr n : Nat) : Bool :=
  ((List.range n).map (fun k => (addr + k) / 4)).any (fun w => (nth l.carry w (0, false)).2)

/-- LD (R199, R201, R202, R208). -/
def laneLd (fr : LoopFrame) (i : VIns) (l : Lane) : Lane :=
  let a := l.reg i.a
  let addr := i.imm + a.1.toNat + (if bit i.m 3 then fr.i * fr.bstride else 0)
  let w := loadWidth i.m
  let r := segLoad (nth l.segs i.b []) addr w.1
  let v := if w.2 then wrapI 32 (sgn (8 * w.1) r.1) else r.1
  (l.setReg i.d (BitVec.ofNat 32 v, r.2.1 || (i.b == 11 && l.carryTag addr w.1))).raise a.2 (if r.2.2 then flOob else 0)

/-- The index term of a loop-indexed store (R209). -/
def idxTerm (fr : LoopFrame) (i : VIns) : Nat := if bit i.m 3 then fr.i * fr.istride else 0

/-- Writes one feature: tagged values mark it missing (R203). -/
def Lane.setFeat (l : Lane) (f v : Nat) (missing : Bool) : Lane :=
  if missing then { l with feats := setNth l.feats f (0, true) }
  else { l with feats := setNth l.feats f (v % 2 ^ (8 * nth l.widths f 2), false) }

def laneStf (fr : LoopFrame) (i : VIns) (l : Lane) : Lane :=
  let a := l.reg i.a
  l.setFeat (i.imm % 4096 + idxTerm fr i) a.1.toNat a.2

def laneStf2 (fr : LoopFrame) (i : VIns) (l : Lane) : Lane :=
  let a := l.reg i.a
  let f := i.imm % 4096 + idxTerm fr i
  (l.setFeat f (a.1.toNat % 65536) a.2).setFeat (f + 1) (a.1.toNat / 65536) a.2

def laneMissf (fr : LoopFrame) (i : VIns) (l : Lane) : Lane := l.setFeat (i.imm % 4096 + idxTerm fr i) 0 true

def laneStc (fr : LoopFrame) (i : VIns) (l : Lane) : Lane :=
  { l with carry := setNth l.carry (i.imm % 16 + idxTerm fr i) (l.reg i.a) }

def laneStr (fr : LoopFrame) (i : VIns) (l : Lane) : Lane :=
  { l with res := setNth l.res (i.imm % 64 + idxTerm fr i) (l.reg i.a).1 }

/-- RDF: the flags, then cleared when M[0] is 1. -/
def laneRdf (i : VIns) (l : Lane) : Lane :=
  let t := l.setReg i.d (BitVec.ofNat 32 l.flags, false)
  if bit i.m 0 then { t with flags := 0 } else t

/-- The cycles of an instruction (Table 7.6). -/
def vCycles (i : VIns) : Nat :=
  if i.op = 0x03 then 0
  else if i.op = 0x1E ∨ i.op = 0x1F ∨ i.op = 0x37 ∨ i.op = 0x38 then 8
  else if i.op = 0x39 ∨ i.op = 0x3A ∨ i.op = 0x3B ∨ i.op = 0x48 ∨ i.op = 0x49 then 4
  else if i.op = 0x50 ∧ i.a ≠ 0 then 2
  else 1

/-- The lane at the start of a run (R198): registers, predicates and flags clear; the output vector as given; carry and
result words 0. -/
def Lane.start (widths : List Nat) (feats : List (Nat × Bool)) (segs : List Seg) : Lane :=
  { v := List.replicate 32 (0, false), p := List.replicate 8 false, flags := 0, feats := feats, widths := widths
    carry := List.replicate 16 (0, false), res := List.replicate 64 0, segs := segs }

end Sys2Proof.Machine
end

