-- ==== Sys2Proof/Machine/ModelSet.lean ====
section
/-! DEFINITION. A model set (chapter 2): its parts as data, and the reading of each part from the bytes whose layouts the spec
gives (Tables 2.2, 2.7, 2.8, 2.9, 2.12, 6.3, 6.6, 6.9, 7.10, 9.2 to 9.4). -/

namespace Sys2Proof.Machine

/-- A cascade stage (Table 2.9). -/
structure Stage where
  ensemble : Nat := 0
  exitTest : Nat := 0
  exitOut : Nat := 0
  residual : Nat := 0
  lo : Nat := 0
  hi : Nat := 0
  reserved : Nat := 0
deriving DecidableEq, Repr

/-- A cascade (R51). -/
structure Cascade where
  index : Nat := 0
  nstages : Nat := 1
  stages : List Stage := []
deriving DecidableEq, Repr

/-- A tree table entry (Table 2.8). -/
structure TreeEnt where
  root : Nat := 0
  outBase : Nat := 0
  vlen : Nat := 0
  depth : Nat := 0
  reserved : Nat := 0
deriving DecidableEq, Repr

/-- An ensemble (R49): descriptor, tree table, bias table, node image, leaf tables, category sets. -/
structure Ensemble where
  index : Nat := 0
  leafType : Nat := 0
  outputs : Nat := 1
  maxDepth : Nat := 0
  trees : Nat := 1
  fxScale : Nat := 0
  flags : Nat := 0
  nodeWords : Nat := 0
  tableWords : Nat := 0
  reserved : Nat := 0
  table : List TreeEnt := []
  bias : List Nat := []
  nodes : List DWord := []
  tables : List DWord := []
  cats : List DWord := []
deriving DecidableEq, Repr

def Ensemble.hasBias (e : Ensemble) : Bool := bit e.flags 0
def Ensemble.fused (e : Ensemble) : Bool := bit e.flags 1
def Ensemble.isOptional (e : Ensemble) : Bool := bit e.flags 2
/-- FX_SCALE as a signed number (Table 2.7). -/
def Ensemble.scale (e : Ensemble) : Int := sgn 16 e.fxScale

/-- A rule table descriptor (R53). -/
structure RuleTable where
  index : Nat := 0
  rules : Nat := 1
  dflt : Nat := 0
  out : Nat := 0
  replicas : Nat := 1
  compiled : Nat := 0
deriving DecidableEq, Repr

/-- A pipeline table entry (Table 2.2). -/
structure Pipeline where
  pipe : Nat := 0
  flags : Nat := 1
  featProg : Nat := 0xFF
  finProg : Nat := 0xFF
  cascade : Nat := 0
  dispatch : Nat := 0xFF
  keyClasses : Nat := 0
  ruleTables : List Nat := [0xFF, 0xFF, 0xFF, 0xFF]
  optional : List Nat := [0xFF, 0xFF, 0xFF, 0xFF]
  reserved : Nat := 0
deriving DecidableEq, Repr

def Pipeline.valid (p : Pipeline) : Bool := bit p.flags 0
def Pipeline.stateful (p : Pipeline) : Bool := bit p.flags 1

/-- An Eddy schema (R163, R171): key classes with their fields, and access entries. -/
structure Schema where
  classes : List KeyClass := []
  access : List AccessEntry := []
deriving DecidableEq, Repr

/-- A placement row (Table 2.12, type 3). -/
structure PlaceRow where
  engine : Nat := 0
  index : Nat := 0
  isTable : Bool := false
  span : Nat := 1
  first : Nat := 0
  last : Nat := 0
  slot : Nat := 0
  replicas : Nat := 1
  paired : Bool := false
  slots : Nat := 1
deriving DecidableEq, Repr

/-- A run of directory entries of one ensemble in a slot image (R225): the directory names no ensemble, so the placement
image carries the boundaries. -/
structure SlotRun where
  ens : Nat := 0
  first : Nat := 0
  count : Nat := 0
deriving DecidableEq, Repr

/-- A model set (Table 2.1). `badParts` lists the parts (row of Table 2.1, less one) whose SET_ID or SET_VERSION is not the header's. `runs` holds
the runs of each slot. `slots` and `units` are the slot and unit images of the placement image, keyed by logical slot 66 d + s and logical unit
9 d + m; `spill` is the set's Spillway area. `costs` gives, by ensemble, each tree's evaluated cost summed over the `profile` records of the
compiler's profile, which carries its mean (R233). `ext` names the slots whose trees the slot 8 below serves (R239), with the directory index
there of the first of them. -/
structure ModelSet where
  setId : Nat := 0
  version : Nat := 0
  grade : Nat := 1
  digest : Nat := 0
  layout : Nat := 0
  badParts : List Nat := []
  features : Nat := 1
  ftable : FTable := []
  ensembles : List Ensemble := []
  cascades : List Cascade := []
  tables : List RuleTable := []
  featProgs : List VProg := []
  finProgs : List VProg := []
  policies : List Policy := []
  dests : SMap DestEntry := []
  schema : Option Schema := none
  pipelines : List Pipeline := []
  rows : List PlaceRow := []
  slots : SMap (List DWord) := []
  runs : SMap (List SlotRun) := []
  units : SMap MuImage := []
  spill : List DWord := []
  profile : Nat := 1
  costs : SMap (List Nat) := []
  ext : SMap Nat := []
deriving DecidableEq, Repr

/-- The words of a unit image before they are read (R254 to R258): layouts, selectors and entries as bytes. -/
structure UnitBytes where
  layouts : List (List Byte) := []
  thresholds : List Nat := []
  catSets : List (List DWord) := []
  selectors : List (List Byte) := []
  entries : List (Nat × List Byte) := []
  table : List DWord := []
deriving DecidableEq, Repr

/-- What a placement image holds (R58, R233, R237, R238): its rows of 16 bytes, slot images, unit images, spilled trees and evaluated costs. -/
structure PlaceImage where
  rows : List (List Byte) := []
  slots : SMap (List DWord) := []
  runs : SMap (List SlotRun) := []
  units : SMap UnitBytes := []
  spill : List DWord := []
  profile : Nat := 1
  costs : SMap (List Nat) := []
deriving DecidableEq, Repr, Inhabited

/-- What the predicted rates of a set depend on besides it (R240, R241, R267, R275), as they are when it is placed: the scrub gaps of the dies, the
arrangements of the hub dies, the grade; and the logical match units hosted since, each with the logical unit of its host. -/
structure RateEnv where
  gaps : List Nat := List.replicate 8 256
  arrange : List Nat := [0, 0]
  gradeB : Bool := false
  hosts : List (Nat × Nat) := []
deriving DecidableEq, Repr

def stageOfBytes (b : List Byte) : Stage :=
  { ensemble := leAt b 0 1, exitTest := leAt b 1 1, exitOut := leAt b 2 1, residual := leAt b 3 1, lo := leAt b 4 4
    hi := leAt b 8 4, reserved := leAt b 12 4 }

def treeEntOfNat (v : Nat) : TreeEnt :=
  { root := bits v 31 0, outBase := bits v 37 32, vlen := bits v 42 38, depth := bits v 47 43, reserved := bits v 63 48 }

/-- The 64-bit words of a byte string. -/
def dwords (b : List Byte) (n : Nat) : List DWord := (List.range n).map (fun i => BitVec.ofNat 64 (leAt b (8 * i) 8))

/-- An ensemble from the bytes of its part: descriptor, tree table, bias table, then node image, leaf tables and category
sets. -/
def ensembleOfBytes (b : List Byte) : Ensemble :=
  let trees := leAt b 4 4
  let flags := leAt b 10 2
  let outputs := leAt b 2 1
  let nb := if bit flags 0 then outputs else 0
  let nodeWords := leAt b 12 4
  let tableWords := leAt b 16 4
  let t := b.drop 32
  let u := t.drop (8 * trees)
  let v := u.drop (4 * nb)
  let w := v.drop (8 * nodeWords)
  let x := w.drop (8 * tableWords)
  { index := leAt b 0 1, leafType := leAt b 1 1, outputs := outputs, maxDepth := leAt b 3 1, trees := trees
    fxScale := leAt b 8 2, flags := flags, nodeWords := nodeWords, tableWords := tableWords, reserved := leAt b 20 12
    table := (List.range trees).map (fun i => treeEntOfNat (leAt t (8 * i) 8))
    bias := (List.range nb).map (fun i => leAt u (4 * i) 4)
    nodes := dwords v nodeWords, tables := dwords w tableWords, cats := dwords x (x.length / 8) }

/-- Four index bytes. -/
def fourBytes (b : List Byte) (off : Nat) : List Nat := (List.range 4).map (fun i => leAt b (off + i) 1)

def pipelineOfBytes (b : List Byte) : Pipeline :=
  { pipe := leAt b 0 1, flags := leAt b 1 1, featProg := leAt b 2 1, finProg := leAt b 3 1, cascade := leAt b 4 1
    dispatch := leAt b 5 1, keyClasses := leAt b 6 1, ruleTables := fourBytes b 8, optional := fourBytes b 12
    reserved := leAt b 7 1 + leAt b 16 16 }

def fieldDescOfBytes (b : List Byte) : FieldDesc :=
  { offset := leAt b 0 2, op := leAt b 2 1, type := leAt b 3 1, param := leAt b 4 1, reserved := leAt b 5 3 }

/-- A key class with its field descriptors (Tables 6.3 and 6.6). -/
def keyClassOfBytes (b : List Byte) : KeyClass :=
  let n := leAt b 4 1
  { cls := leAt b 0 1, slot := leAt b 1 1, mode := leAt b 2 1, bucketsLog2 := leAt b 3 1, nfields := n
    reserved := leAt b 5 11
    fields := (List.range n).map (fun i => fieldDescOfBytes (slice b (16 + 8 * i) 8)) }

def updEntryOfBytes (b : List Byte) : UpdEntry :=
  { field := leAt b 0 1, src := leAt b 1 1, arg := leAt b 2 2, gateOff := leAt b 4 2, gate := leAt b 6 1
    reserved := leAt b 7 1 }

/-- An access entry with its update entries (Table 6.9). -/
def accessOfBytes (b : List Byte) : AccessEntry :=
  let n := leAt b 3 1
  { pipe := leAt b 0 1, cls := leAt b 1 1, snap := leAt b 2 1, nupd := n, snapLen := leAt b 4 2, reserved := leAt b 6 2
    upds := (List.range n).map (fun i => updEntryOfBytes (slice b (8 + 8 * i) 8)) }

/-- A program: header, code words, constants (Table 7.10). -/
def progOfBytes (b : List Byte) : VProg :=
  let n := leAt b 4 2
  let c := leAt b 6 2
  { kind := leAt b 0 1, index := leAt b 1 1, flags := leAt b 2 1, nres := leAt b 3 1, codeLen := n, constLen := c
    cycles := leAt b 8 4, setId := leAt b 12 4, setVersion := leAt b 16 4, reserved := leAt b 20 12
    code := dwords (b.drop 32) n, const := slice b (32 + 8 * n) c }

def keyFieldOfNat (v : Nat) : KeyField :=
  { feat := bits v 11 0, kind := bits v 13 12, bitPos := bits v 21 14, width := bits v 27 22, missFill := bit v 28
    base := bits v 40 29, reserved := bits v 63 41 }

/-- A search layout: an 8-byte head and 16 descriptors (R255). -/
def layoutOfBytes (b : List Byte) : KeyLayout :=
  let n := leAt b 0 1
  { nfields := n
    fields := (List.range (min n 16)).map (fun i => keyFieldOfNat (leAt b (8 + 8 * i) 8))
    reserved := leAt b 1 7 + leNat (slice b (8 + 8 * n) (8 * (16 - n))) }

def selectorOfBytes (b : List Byte) : SelEntry :=
  { kind := leAt b 0 1, layout := leAt b 1 1, index := leAt b 2 1, outBase := leAt b 3 1, vlen := leAt b 4 1
    depth := leAt b 5 1, reserved := leAt b 6 2 }

def muEntryOfBytes (b : List Byte) : MuEntry :=
  { key := leAt b 0 24, mask := leAt b 24 24, prio := leAt b 48 2, pres := leAt b 50 1, result := leAt b 56 8
    reserved := leAt b 51 5 }

def unitOfBytes (u : UnitBytes) : MuImage :=
  { layouts := u.layouts.map layoutOfBytes, thresholds := u.thresholds, catSets := u.catSets
    selectors := u.selectors.map selectorOfBytes
    entries := u.entries.foldl (fun m e => m.put e.1 (muEntryOfBytes e.2)) [], table := u.table }

/-- A placement row (Table 2.12). Bit 7 of the index marks a rule table, bit 7 of the replica count a pair (R272). -/
def rowOfBytes (b : List Byte) : PlaceRow :=
  { engine := leAt b 1 1, index := leAt b 2 1 % 128, isTable := bit (leAt b 2 1) 7, span := leAt b 3 1
    first := leAt b 4 4, last := leAt b 8 4, slot := leAt b 12 2, replicas := leAt b 14 1 % 128
    paired := bit (leAt b 14 1) 7, slots := leAt b 15 1 }

/-- A row of the placement report (Table 2.12). -/
def rowBytes (r : PlaceRow) : List Byte :=
  leBytes 1 3 ++ leBytes 1 r.engine ++ leBytes 1 (r.index + 128 * b2n r.isTable) ++ leBytes 1 r.span ++
  leBytes 4 r.first ++ leBytes 4 r.last ++ leBytes 2 r.slot ++ leBytes 1 (r.replicas + 128 * b2n r.paired) ++
  leBytes 1 r.slots

/-- Lookups by index. -/
def ModelSet.ensemble (m : ModelSet) (i : Nat) : Option Ensemble := m.ensembles.find? (fun e => e.index = i)
def ModelSet.cascade (m : ModelSet) (i : Nat) : Option Cascade := m.cascades.find? (fun c => c.index = i)
def ModelSet.ruleTable (m : ModelSet) (i : Nat) : Option RuleTable := m.tables.find? (fun t => t.index = i)
def ModelSet.policyAt (m : ModelSet) (i : Nat) : Option Policy := m.policies.find? (fun p => p.index = i)
def ModelSet.featProg (m : ModelSet) (i : Nat) : Option VProg := m.featProgs.find? (fun p => p.index = i)
def ModelSet.finProg (m : ModelSet) (i : Nat) : Option VProg := m.finProgs.find? (fun p => p.index = i)
def ModelSet.pipeline (m : ModelSet) (i : Nat) : Option Pipeline := m.pipelines.find? (fun p => p.pipe = i && p.valid)
def ModelSet.keyClass (m : ModelSet) (i : Nat) : Option KeyClass :=
  match m.schema with
  | none => none
  | some s => s.classes.find? (fun c => c.cls = i)
def ModelSet.accessFor (m : ModelSet) (pipe cls : Nat) : Option AccessEntry :=
  match m.schema with
  | none => none
  | some s => s.access.find? (fun a => a.pipe = pipe && a.cls = cls)

/-- The die groups of a row: replica r, part j lies on die d0 + r·k + j (R237). -/
def PlaceRow.die (r : PlaceRow) (rep part : Nat) : Nat := r.slot / 66 + rep * r.span + part
def PlaceRow.firstSlot (r : PlaceRow) : Nat := r.slot % 66
/-- For match-unit rows the first unit is 9 d + m. -/
def PlaceRow.unitDie (r : PlaceRow) (rep part : Nat) : Nat := r.slot / 9 + rep * r.span + part
def PlaceRow.firstUnit (r : PlaceRow) : Nat := r.slot % 9

/-- The slots that a Spillway row names: its first slot, and in each further replica the same slot of that replica's die group (R237; DESIGN CHOICE,
log 92). -/
def PlaceRow.spillSlots (r : PlaceRow) : List Nat := (List.range r.replicas).map (fun rep => r.slot + 66 * r.span * rep)

/-- The tile rows of an ensemble, and its match-unit rows. -/
def ModelSet.tileRows (m : ModelSet) (e : Nat) : List PlaceRow :=
  m.rows.filter (fun r => r.engine == 0 && !r.isTable && r.index == e)
def ModelSet.unitRows (m : ModelSet) (e : Nat) : List PlaceRow :=
  m.rows.filter (fun r => r.engine == 1 && !r.isTable && r.index == e)
def ModelSet.tableRows (m : ModelSet) (t : Nat) : List PlaceRow :=
  m.rows.filter (fun r => r.engine == 1 && r.isTable && r.index == t)

/-- The match units of a row on one die, from its first: of a pair, only the even one (R272). -/
def PlaceRow.unitSteps (r : PlaceRow) : List Nat := if r.paired then (List.range (r.slots / 2)).map (2 * ·) else List.range r.slots
/-- A logical unit 9 d + m is the first of a pair. -/
def ModelSet.pairFirst (m : ModelSet) (u : Nat) : Bool :=
  m.rows.any (fun r => r.engine == 1 && r.paired && (List.range (r.replicas * r.span)).any (fun j =>
    r.unitSteps.any (fun x => u == 9 * (r.slot / 9 + j) + r.firstUnit + x)))

/-- A unit is a logical unit 9 d + m or, where that is the first of a pair, the other of it. -/
def ModelSet.inPair (m : ModelSet) (x u : Nat) : Bool := u == x || (m.pairFirst x && u == x + 1)

/-- The slots 66 d + s of one replica of an ensemble, and its units 9 d + m. -/
def ModelSet.replicaSlots (m : ModelSet) (e rep : Nat) : List Nat :=
  (m.tileRows e).flatMap (fun r => if rep < r.replicas then
    (List.range r.span).flatMap (fun j => (List.range r.slots).map (fun s => 66 * r.die rep j + r.firstSlot + s)) else [])
def ModelSet.replicaUnits (m : ModelSet) (e rep : Nat) : List Nat :=
  (m.unitRows e).flatMap (fun r => if rep < r.replicas then
    (List.range r.span).flatMap (fun j => r.unitSteps.map (fun s => 9 * r.unitDie rep j + r.firstUnit + s)) else [])
/-- The dies of one replica of an ensemble, lowest first. -/
def ModelSet.replicaDies (m : ModelSet) (e rep : Nat) : List Nat :=
  match m.tileRows e, m.unitRows e with
  | r :: _, _ => (List.range r.span).map (fun j => r.die rep j)
  | [], r :: _ => (List.range r.span).map (fun j => r.unitDie rep j)
  | [], [] => []
/-- The replica count of an ensemble and of a rule table. -/
def ModelSet.replicas (m : ModelSet) (e : Nat) : Nat :=
  ((m.tileRows e ++ m.unitRows e).map PlaceRow.replicas).foldl max 0
def ModelSet.tableReplicas (m : ModelSet) (t : Nat) : Nat := ((m.tableRows t).map PlaceRow.replicas).foldl max 0
/-- The units of one replica of a rule table, in part order; in a pair only the first unit of each pair. -/
def ModelSet.tableUnits (m : ModelSet) (t rep : Nat) : List Nat :=
  (m.tableRows t).flatMap (fun r => if rep < r.replicas then
    r.unitSteps.map (fun s => 9 * r.unitDie rep 0 + r.firstUnit + s) else [])
/-- The die of a replica of a rule table. -/
def ModelSet.tableDie (m : ModelSet) (t rep : Nat) : Nat := ((m.tableUnits t rep).map (· / 9)).headD 0

/-- The run of an ensemble in a slot image (R225), and in a unit image, whose selectors name their ensemble (R262). -/
def ModelSet.runAt (m : ModelSet) (slot ens : Nat) : Option SlotRun :=
  (SMap.getD (fun _ => []) m.runs slot).find? (fun r => r.ens = ens)
def muRun (img : MuImage) (ens : Nat) : SlotRun :=
  let before := img.selectors.takeWhile (fun s => !(s.kind == 0 && s.index == ens))
  { ens := ens, first := before.length
    count := ((img.selectors.drop before.length).takeWhile (fun s => s.kind == 0 && s.index == ens)).length }

/-- The image of a slot that holds no tree: its header alone (Table 8.2). DESIGN CHOICE (log 92): what R239 adds to where a set has no image. -/
def emptySlot : List DWord := [BitVec.ofNat 64 (0x7FFFF * 2 ^ 18 + 0x7FFFF * 2 ^ 37), 2]
/-- The image of a slot, or that of an empty one. -/
def ModelSet.imageAt (m : ModelSet) (x : Nat) : List DWord := SMap.getD (fun _ => emptySlot) m.slots x

/-- The image of a slot as its tile holds it, and the slot whose image that is: a slot of R239 lies in the slot 8 below. -/
def ModelSet.homeSlot (m : ModelSet) (x : Nat) : Nat := if (m.ext.find? x).isSome then x - 8 else x
def ModelSet.slotImg (m : ModelSet) (x : Nat) : List DWord := SMap.getD (fun _ => []) m.slots (m.homeSlot x)

/-- Directory index i of the tile that serves a slot (R224, R239): word 2 + i below TREES, then the words of the extension, which follows
the image, or the window that the device placed after it. -/
def dirAt (img : List DWord) (i : Nat) : DirEntry :=
  let h := slotHead img
  if i < h.trees then dirEntry img i
  else dirEntryOf (nth img ((if h.winBase = h.words then h.words + 4096 else h.words) + (i - h.trees)) 0)

/-- The first tree of the run that a slot holds of an ensemble (R237): its row's runs are taken in order of part and slot. -/
def ModelSet.runTree (m : ModelSet) (x ens : Nat) : Nat :=
  ((m.tileRows ens).findSome? (fun r => (List.range r.replicas).findSome? (fun rep =>
    let l := (List.range r.span).flatMap (fun j => (List.range r.slots).map (fun q => 66 * r.die rep j + r.firstSlot + q))
    if x ∈ l then some (r.first + ((l.takeWhile (· ≠ x)).map (fun y => ((m.runAt y ens).getD {}).count)).sum) else none))).getD 0

/-- The same of a match unit's run of selectors. -/
def ModelSet.unitTree (m : ModelSet) (units : SMap MuImage) (x ens : Nat) : Nat :=
  ((m.unitRows ens).findSome? (fun r => (List.range r.replicas).findSome? (fun rep =>
    let l := (List.range r.span).flatMap (fun j => r.unitSteps.map (fun q => 9 * r.unitDie rep j + r.firstUnit + q))
    if x ∈ l then some (r.first + ((l.takeWhile (· ≠ x)).map (fun y => (muRun (SMap.getD (fun _ => {}) units y) ens).count)).sum)
    else none))).getD 0

/-- The whole size of a program (R216). -/
def progBytes (p : VProg) : Nat := 32 + 8 * p.codeLen + p.constLen

end Sys2Proof.Machine
end

