-- ==== Sys2Proof/Machine/FabricTypes.lean ====
section
/-! DEFINITION. The state of Sluice, Backwater and Braid (chapters 13 and 14), and the messages that Braid carries. -/

namespace Sys2Proof.Machine

/-- A counting semaphore (Table 13.7) with the queues that wait on it, in the order they reached their heads (R357). -/
structure Sem where
  count : Nat := 0
  ovf : Bool := false
  unf : Bool := false
  peerEn : Bool := false
  peerDec : Bool := false
  waiters : List Nat := []
deriving DecidableEq, Repr

/-- A queue command (Table 13.2). -/
structure QCmd where
  op : Nat := 0
  flags : Nat := 0
  id : Nat := 0
  amount : Nat := 0
  arg : Nat := 0
deriving DecidableEq, Repr

/-- What the head command of a queue waits for (R356): nothing yet, its semaphore, its release after a counted arrival of a
generation, a held arrival, a BT, a pending re-arm, a Braid request credit. -/
inductive QWait where
  | none | sem | bar (gen : Nat) | held (gen : Nat) | bt | rearm | credit | link
deriving DecidableEq, Repr

/-- A command queue (R353, Table 13.10): the commands, the wait of its head, whether it is halted, its arming tick, and the commands that it has
completed (R372). -/
structure SlQueue where
  cmds : List QCmd := []
  wait : QWait := .none
  halted : Bool := false
  armed : Nat := 0
  ended : Nat := 0
deriving DecidableEq, Repr

/-- A barrier (R360 to R367): generation G, the participants counted in G (whose own arrival count is then G + 1; that of every other
participant is G), those held, whether G has released, the participants still waiting in a BAR of G; and for a domain barrier
the arrival messages held as (generation, device, A), the tick its arrival was sent, and the stall mark. -/
structure Barrier where
  gen : Nat := 0
  counted : List Nat := []
  held : List Nat := []
  releasing : Bool := false
  waiting : List Nat := []
  msgs : List (Nat × Nat × Nat) := []
  sentAt : Option Nat := none
  stalled : Bool := false
deriving DecidableEq, Repr

/-- Sluice and Backwater. Barriers are keyed 16·die + b for die barriers (dies: h, then 2 + d), 160 + k for device barriers; `bw` holds
the group counters, keyed 32·hub + group, in hub cycles, and `bwSig` where the members of the group stood at the last tick; `undeliv` the endpoints whose SLU_PEER_UNDELIV was raised, with the
epoch; `maskStage` the words of a device barrier mask written so far (Table 13.9); `snaps` BW_SNAP per hub. -/
structure SluiceSt where
  sems : SMap Sem := []
  queues : SMap SlQueue := []
  bars : SMap Barrier := []
  masks : SMap Nat := []
  maskStage : SMap Nat := []
  bw : SMap Nat := []
  bwSig : SMap (List Nat) := []
  snaps : SMap Nat := []
  undeliv : List (Nat × Nat) := []
deriving DecidableEq, Repr

/-- The identity word of a Braid port (Table 14.3). -/
structure IdentWord where
  magic : Nat := 0x4249
  version : Nat := 1
  role : Nat := 0
  domain : Nat := 0
  device : Nat := 0
  port : Nat := 0
  dimX : Nat := 0
  dimY : Nat := 0
  dimZ : Nat := 0
  endpoints : Nat := 0
  reserved : Nat := 0
deriving DecidableEq, Repr

/-- A Braid message (R387): envelope fields and body, and `seq`, the number that it bears on its link (R383). The rest is this device's own, of a message
that has not entered a link yet: `wait` of a reply, its release tick and the record table entry that it returns; `que` of an RSIG, its queue; `since`
the tick at which it joined the egress queue (R403). -/
structure BrMsg where
  type : Nat := 0
  flags : Nat := 0
  dst : Nat := 0
  src : Nat := 0
  tenant : Nat := 0
  reserved : Nat := 0
  body : List Byte := []
  wait : Option (Option Nat × Option Nat) := none
  seq : Nat := 0
  que : Option Nat := none
  since : Nat := 0
deriving DecidableEq, Repr

/-- A Braid port (Tables 14.2, 14.14): bring-up step (0 disabled, 1 to 5, 6 up, 7 wiring fault) and the tick it began; what its peer announced; the
replays of the flit in error; the step that last failed (0 none); whether it went down from up and has not come up since; the tick of the last
BRAID_PORT_DOWN; the messages that wait to be accepted by the link layer, and those accepted and not yet acknowledged: each virtual channel's queue, and its
credits in use, are the messages of that channel (R392). -/
structure BrPort where
  step : Nat := 0
  stepAt : Nat := 0
  peerMember : Bool := false
  peerDevice : Nat := 0
  peerPort : Nat := 0
  endpoints : Nat := 0
  detour : Bool := false
  failedStep : Nat := 0
  fell : Bool := false
  replays : Nat := 0
  lastDown : Option Nat := none
  egress : List BrMsg := []
  unacked : List BrMsg := []
deriving DecidableEq, Repr

/-- A multicast transfer at a member (R397 to R401): its sender, number, group, kind, tenant and length when known; the chunks held and those that
Headwater has taken; the child hops with the chunks each has credited in order (`none` when pruned) and the tick of its last progress;
the port its chunks come by; the credit last sent up; whether this device's delivery is pruned, out of set, in repair, and the chunks
repaired; at the sender the chunks sent, the tick of the last one, the ranges that devices have asked for and not been sent, and the devices that have asked. -/
structure McXfer where
  sender : Nat := 0
  transfer : Nat := 0
  group : Nat := 0
  kind : Nat := 1
  tenant : Nat := 0
  chunks : Nat := 0
  held : SMap (List Byte) := []
  done : List Nat := []
  hops : SMap (Option Nat) := []
  hopAt : SMap Nat := []
  up : Option Nat := none
  credited : Nat := 0
  pruned : Bool := false
  outOfSet : Bool := false
  repairing : Bool := false
  repaired : Nat := 0
  sent : Nat := 0
  lastSent : Nat := 0
  lastRx : Nat := 0
  progress : Nat := 0
  asks : List (Nat × Nat × Nat) := []
  askers : List Nat := []
deriving DecidableEq, Repr

/-- Braid. `sentOut` holds the messages that have left by a port, as (port, message), oldest first, and `identOut` the identity words; `attDrop` the
messages discarded at each attached port, with their epoch, whose BRAID_ATT_DROP is still to be raised; `txSeq` the next link sequence number of each
direction, and `rxSeq` the messages received on it: all below a number, and those listed (R383). -/
structure BraidSt where
  ports : SMap BrPort := []
  xfers : List McXfer := []
  nextXfer : Nat := 0
  sentOut : List (Nat × BrMsg) := []
  attDrop : SMap (Nat × Nat) := []
  identOut : List (Nat × IdentWord) := []
  txSeq : SMap Nat := []
  rxSeq : SMap (Nat × List Nat) := []
deriving DecidableEq, Repr

end Sys2Proof.Machine
end

