-- ==== Sys2Proof/Machine/Accum.lean ====
section
/-! DEFINITION. Sums on the integer, fixed-point and fp32 paths, preloads, readouts, WIDE and fused values
(R279 to R297). -/

namespace Sys2Proof.Machine

/-- The three paths of Table 10.1. A sum is an exact integer on the integer and fixed-point paths, and the bits of a
binary32 on the fp32 path. -/
inductive SumPath where
  | int | fx | f32
deriving DecidableEq, Repr

/-- The path of an ensemble: LEAF_TYPE 0 is INT32; FP32 takes fixed point in Lockstep and fp32 in Fast (R279). -/
def sumPath (leafType : Nat) (lockstep : Bool) : SumPath :=
  if leafType = 0 then .int else if lockstep then .fx else .f32

/-- Adds one value to a sum: exactly, or in binary32 rounded to nearest-even (R282, R284, R285, R291, R292). -/
def addSum (p : SumPath) (a b : Int) : Int :=
  match p with
  | .f32 => ((fAdd a.toNat b.toNat).1 : Int)
  | _ => a + b

/-- q = RNE(v · 2^s) of a finite binary32 value (R283), and whether the conversion was exact. -/
def fxConvert (s : Int) (v : Nat) : Int × Bool :=
  let e := fExp v + s
  let m := fMant v
  let q : Nat × Bool :=
    if 0 ≤ e then (m * 2 ^ e.toNat, true)
    else
      let d := 2 ^ (-e).toNat
      let r := m % d
      (if d < 2 * r ∨ (2 * r = d ∧ m / d % 2 = 1) then m / d + 1 else m / d, decide (r = 0))
  (if fNeg v then -(q.1 : Int) else (q.1 : Int), q.2)

/-- A converted value at run time: |q| of 2^62 or more is replaced by ±(2^62 − 1), and the reply carries SAT (R284). -/
def fxElement (s : Int) (v : Nat) : Int × Bool :=
  let q := (fxConvert s v).1
  let c := clampI (-(2 ^ 62 - 1 : Nat)) (2 ^ 62 - 1 : Nat) q
  (c, decide (c ≠ q))

/-- A leaf value as it enters its accumulator entry (R282, R284, R285), and whether it was clamped. -/
def sumElement (p : SumPath) (s v : Int) : Int × Bool :=
  match p with
  | .fx => fxElement s v.toNat
  | _ => (v, false)

/-- A 40-bit accumulator entry's value (R280): two's complement, no addition saturates. -/
def wrap40 (v : Int) : Int := sgn 40 (wrapI 40 v)
def wrap80 (v : Int) : Int := sgn 80 (wrapI 80 v)

/-- A value held in its entry or pair (Table 10.1). -/
def holdSum (p : SumPath) (v : Int) : Int :=
  match p with
  | .int => wrap40 v
  | .fx => wrap80 v
  | .f32 => v

/-- The readout of an output (Table 10.2, R293): the word, and whether it saturated. A −0 reads as +0. -/
def readout (p : SumPath) (s v : Int) : Nat × Bool :=
  match p with
  | .int =>
    let c := clampI (-(2 ^ 31 : Nat)) (2 ^ 31 - 1 : Nat) v
    (wrapI 32 c, decide (c ≠ v))
  | .fx =>
    let r := roundInt v (-s)
    if fIsInf r then (signBit (fNeg r) + fMaxFinite, true) else (if r = 2 ^ 31 then 0 else r, false)
  | .f32 =>
    let b := v.toNat
    if fNan b then (0, true)
    else if fIsInf b then (signBit (fNeg b) + fMaxFinite, true)
    else (if b = 2 ^ 31 then 0 else b, false)

/-- The 8-byte WIDE value (R295), and whether it was clamped. -/
def wideValue (p : SumPath) (v : Int) : Nat × Bool :=
  match p with
  | .int => (wrapI 64 v, false)
  | .fx =>
    let c := clampI (-(2 ^ 63 : Nat)) (2 ^ 63 - 1 : Nat) v
    (wrapI 64 c, decide (c ≠ v))
  | .f32 => (v.toNat, false)

/-- e^(−y) of a binary32 y ≥ 0, rounded once (R297). -/
def expNeg (y : Nat) : Nat :=
  if fZero y then 0x3F800000 else roundF32 false (expNegFx (fScaled y (-149)).natAbs) (-(fxp : Int)) true

/-- The maximum of the readouts (R297): signed on the integer path, by the ordered key otherwise. -/
def fusedMax (p : SumPath) : List Nat → Nat
  | [] => 0
  | [x] => x
  | x :: xs =>
    let m := fusedMax p xs
    if p = .int then (if sgn 32 x < sgn 32 m then m else x) else if ordKey x < ordKey m then m else x

/-- The distance of a readout from the maximum (R297). -/
def fusedDist (p : SumPath) (m x : Nat) : Nat :=
  if p = .int then roundInt (sgn 32 m - sgn 32 x) (-10) else (fSub m x).1

/-- The exponent sum, added in binary32 in output order (R297). -/
def fusedSum (p : SumPath) (xs : List Nat) : Nat :=
  let m := fusedMax p xs
  let ts := xs.map (fun x => expNeg (fusedDist p m x))
  match ts with
  | [] => 0
  | t :: ts => ts.foldl (fun e t => (fAdd e t).1) t

/-- The exit test of a stage on a readout (R52, Table 2.9): signed comparison for INT32, IEEE for FP32. -/
def exitTest (f32 : Bool) (test lo hi x : Nat) : Bool :=
  let lt := fun (a b : Nat) => if f32 then fLt a b else decide (sgn 32 a < sgn 32 b)
  match test with
  | 1 => lt x lo
  | 2 => lt hi x
  | 3 => lt x lo || lt hi x
  | 4 => if f32 then fLe lo x && fLe x hi else decide (sgn 32 lo ≤ sgn 32 x ∧ sgn 32 x ≤ sgn 32 hi)
  | _ => false

end Sys2Proof.Machine
end

