-- ==== Sys2Proof/Machine/FlowTypes.lean ====
section
/-! DEFINITION. The state of Braid time, Weir, the fetch engines and streams, the record table, Eddy, the vector engines, the
scoring dies, Distributary, capture and replay (chapters 4 to 12). -/

namespace Sys2Proof.Machine

/-- Braid time (chapter 4). `state` is TIME_STAT.STATE (0 ACQUIRE, 1 LOCKED, 2 HOLDOVER). `close` counts the consecutive
measurements within 2 ticks; `lastWord` the BT of the last time word of the parent port pair; `lastBeat` the BT of the last
change of the root heartbeat; `started` the last epoch whose start has run; `sentAt` the BT
of the last time word sent per port; `words` the time words sent; `tx64` and `rx64` when the marked symbol of the last word of each port left and came, in sixty-fourths of a tick (R396); `heard` the last valid time word of each port that a root in ACQUIRE has heard, with
its BT of arrival (R102); `wallSet` that the wall offset has been set (R105); `ptpMasters` the last Announce rank of each master heard (R104); `expiring` that holdover ended in ACQUIRE and BT is not locked again; `acquiredIn` the epoch in which the device returned to ACQUIRE (R102). -/
structure TimeSt where
  bt : Nat := 0
  valid : Bool := false
  state : Nat := 0
  isRoot : Bool := false
  onAlt : Bool := false
  close : Nat := 0
  offset : Int := 0
  btSet : Bool := false
  lastWord : Nat := 0
  beat : Nat := 0
  lastBeat : Nat := 0
  firstUp : Option Nat := none
  holdFrom : Nat := 0
  wall : Int := 0
  ptpLocked : Bool := false
  ptpMasters : SMap (List Nat) := []
  wallSet : Bool := false
  heard : SMap (Nat × TimeWord) := []
  expiring : Bool := false
  acquiredIn : Option Nat := none
  started : Nat := 0
  sentAt : SMap Nat := []
  words : List (Nat × TimeWord) := []
  tx64 : SMap Nat := []
  rx64 : SMap Nat := []
deriving DecidableEq, Repr

/-- A record waiting in an admission queue (R130): served at `at_` (the stamp, or S' of a REPLAY record, R343). `outcome` is the
captured refusal of a REPLAY record that is not executed (R345); a `ghost` is a record refused at arrival that only waits to be
captured in sequence order (R339). -/
structure QEnt where
  r : Rec
  at_ : Nat := 0
  outcome : Option (Nat × Nat) := none
  ghost : Bool := false
deriving DecidableEq, Repr

/-- An admission queue (R130), keyed by queue number: 2n + s for a record port, 32 + b for Braid ingress b. -/
abbrev AdmQueue := List QEnt

/-- One key of an admitted record (R132, R161, R180): its entry, hash, and the devices its requests go to, each with whether it is the mirror. -/
structure KeyRef where
  idx : Nat := 0
  cls : Nat := 0
  bytes : List Byte := []
  hash : Nat := 0
  homes : List (Nat × Bool) := []
deriving DecidableEq, Repr

/-- Where a record of the record table stands: its snapshots are out, it waits for or is in its feature program, waits to be
issued into its stage, is issued, waits for or is in its finish program, is settled, or its reply is formed. -/
inductive Phase where
  | snaps | feat | featRun | stage | issued | finish | finRun | settle | reply | tail
deriving DecidableEq, Repr

/-- One stage run of a record, or one optional ensemble's run: the ensemble, its replica and stream, the generation it was issued
in, the dies whose partial has not come, the hub sums and the preloads. -/
structure StageRun where
  ens : Nat := 0
  path : SumPath := .int
  replica : Nat := 0
  stream : Nat := 0
  gen : Nat := 0
  left : List Nat := []
  pre : List Int := []
  sums : List Int := []
  issued : Bool := false
deriving DecidableEq, Repr

/-- A named optional slot (R137 to R139): 0 not granted, 1 granted and waiting, 2 issued, 3 run, 4 not run, 5 granted and waiting, but too late to be
reported. A slot in state 4 whose run is issued works on. -/
structure OptSt where
  slot : Nat := 0
  ens : Nat := 0
  state : Nat := 0
  run : StageRun := {}
  outs : List Nat := []
deriving DecidableEq, Repr
/-- Granted work that has not ended. -/
def OptSt.busy (o : OptSt) : Bool := o.state == 1 || o.state == 5 || o.run.issued
/-- The slot's readouts come too late from now on: they are discarded when they are formed (R139). -/
def OptSt.cut (o : OptSt) : OptSt :=
  if o.state = 3 ∨ o.state = 5 then o else if o.state = 1 then { o with state := 5 } else { o with state := 4 }

/-- A rule table search of a record (R149, R264): the pipeline's table slot, the table, the replica, whether it stands in the search queues
of that replica's units (R146), its result. -/
structure SearchSt where
  slot : Nat := 0
  table : Nat := 0
  replica : Nat := 0
  issued : Bool := false
  done : Bool := false
  hit : Bool := false
  value : Nat := 0
  addr : Nat := 2 ^ 32 - 1
deriving DecidableEq, Repr

/-- A record table entry (R132): the record, when it is served, the mode it was admitted in, its keys and snapshots, the pool blocks
it holds, its feature vector and carry words, the engine that its program must not run again on (R218), the replicas that had been removed when it
was admitted (R266, R487), its cascade stage and runs, its searches,
whether a request of it came late at its home (R118), and what its reply will carry. -/
structure RecEnt where
  r : Rec
  at_ : Nat := 0
  epoch : Nat := 0
  lock : Bool := false
  phase : Phase := .snaps
  keys : List KeyRef := []
  want : List Nat := []
  snaps : List SnapBody := []
  recBlocks : Nat := 0
  vecBlocks : Nat := 0
  vec : List Byte := []
  carry : List VReg := []
  avoid : Option Nat := none
  removed : List (Bool × Nat × Nat) := []
  ready : Nat := 0
  stage : Nat := 0
  run : StageRun := {}
  residual : List Int := []
  buffered : Bool := false
  reserved : Bool := false
  outs : List Nat := []
  wides : List Nat := []
  fused : List Nat := []
  early : Bool := false
  opts : List OptSt := []
  searches : List SearchSt := []
  sat : Bool := false
  again : Bool := false
  late : Bool := false
  results : List Word := []
  cands : List (Nat × Nat) := []
  utag : Nat := 0
deriving DecidableEq, Repr

/-- A stream descriptor (Table 5.4). -/
structure StreamDesc where
  kind : Nat := 0
  persist : Nat := 0
  pipe : Nat := 0
  stage : Nat := 0
  cascade : Nat := 0
  group : Nat := 0
  engine : Nat := 0
  sem : Nat := 0
  semEn : Bool := false
  base : Nat := 0
  count : Nat := 1
  maxInflight : Nat := 1
  dieBlocks : Nat := 1
  reserved : Nat := 0
deriving DecidableEq, Repr

/-- The spill window that a SPILL stream fills (R243): the position, among its slot's spilled trees in directory order, of the tree whose blocks
fill the one buffer; the elements of it that have arrived; the directory index of the tree in the other buffer, which is evaluated. -/
structure WinSt where
  pos : Nat := 0
  got : List Nat := []
  cur : Option Nat := none
deriving DecidableEq, Repr

/-- A stream (R141 to R144, Table 5.14): state 0 IDLE, 1 RUNNING, 2 WAIT_REARM, 3 ABORTING; the pending re-arm, and whether it came during an
abort; the element of the count; the tick it was armed; the elements issued in this tick. `ens` and `replica` name what a RECORD or OPTIONAL
stream serves; of a SPILL stream `replica` is the slot 66 d + s, of an EXPORT stream the partition. -/
structure StreamSt where
  desc : StreamDesc := {}
  state : Nat := 0
  rearm : Option (Nat × Nat) := none
  rearmHeld : Bool := false
  sent : Nat := 0
  win : WinSt := {}
  gen : Nat := 0
  elem : Nat := 0
  armed : Nat := 0
  tenant : Nat := 0
  setId : Nat := 0
  version : Nat := 0
  ens : Nat := 0
  replica : Nat := 0
deriving DecidableEq, Repr

/-- An outstanding read of a fetch engine (R141), and the streams it serves, each with its element: the one that issued it, then those that
joined it. -/
structure FetchRead where
  engine : Nat := 0
  addr : Nat := 0
  uses : List (Nat × Nat) := []
deriving DecidableEq, Repr

/-- Weir and the fetch engines of one hub die. Credit and allowance are those of the current epoch; `energyLeft` and `credit`
are `none` for no limit. `turn` is the place in the round over the heads at which it goes on, `heads` how many heads this tick has served (R134). -/
structure WeirHub where
  turn : Nat := 0
  heads : Nat := 0
  recs : SMap RecEnt := []
  credit : Option Nat := none
  energyLeft : Option Nat := none
  throttle : Bool := false
  rate : Nat := 0
  left : Nat := 0
  throttled : Bool := false
  shedRefused : Nat := 0
  admitted : Nat := 0
  demand : Nat := 0
  optUnits : Nat := 0
  poolUsed : Nat := 0
  streams : SMap StreamSt := []
  reads : List FetchRead := []
  bcache : List Nat := []
deriving DecidableEq, Repr

/-- A freeze of a tenant (R135): frozen from the epoch `from_` on, admission open again from `open_`; drained; the hub dies whose drain has
timed out (R156). -/
structure FreezeSt where
  from_ : Option Nat := some 0
  open_ : Option Nat := none
  drained : Bool := true
  timedOut : List Nat := []
  set : Option (Nat × Nat × Nat) := none
deriving DecidableEq, Repr

/-- Weir (chapter 5): the admission queues, the two hub dies, the tenants' freezes. -/
structure WeirSt where
  queues : SMap AdmQueue := []
  hubs : List WeirHub := [{}, {}]
  freeze : List FreezeSt := [{}, {}, {}, {}]
  live : List Nat := []
deriving DecidableEq, Repr

/-- A request in an order queue: the request, and where its snapshot goes (hub die and record here, or a Braid port). -/
structure OrderEnt where
  q : EddyReq := {}
  port : Option Nat := none
deriving DecidableEq, Repr

/-- An export (R188): its identifier, its key, the chunks sent. -/
structure ExportSt where
  tenant : Nat := 0
  exportId : Nat := 0
  keyId : Nat := 0
  chunks : Nat := 0
deriving DecidableEq, Repr

/-- An import session (R190): its identifier, its key, the chunks taken as (12 · class + partition, chunk), and how many each class and
partition has. -/
structure ImportSt where
  tenant : Nat := 0
  exportId : Nat := 0
  keyId : Nat := 0
  keyNo : Nat := 0
  total : SMap Nat := []
  taken : List (Nat × Nat) := []
deriving DecidableEq, Repr

/-- A snapshot that has been asked for (R177, R178): its order key, key and home role, the partition it comes from, and the tick until which it is
waited for. -/
structure AskedSnap where
  key : OrderKey := {}
  idx : Nat := 0
  mirror : Bool := false
  part : Nat := 0
  until_ : Nat := 0
deriving DecidableEq, Repr

/-- Eddy (chapter 6). Buckets are keyed ((tenant · 8 + class) · 12 + partition) · 2^28 + bucket; `handed` holds the requests handed to the local Eddy by hub die that have not
entered the order queue, `bad` the buckets with a failed sector (R443), `back` the snapshot bodies of this device's own records that are on their way, `asked` the snapshots that have
not come yet, `applied` the partitions that have applied a request since the last reset. -/
structure EddySt where
  buckets : SMap EBucket := []
  queues : List (List OrderEnt) := [[], []]
  handed : List (Nat × EddyReq) := []
  back : List SnapBody := []
  asked : List AskedSnap := []
  applied : List Nat := []
  lost : List Nat := []
  bad : List Nat := []
  exports : List ExportSt := []
  imports : List ImportSt := []
  sentOut : List (List Byte) := []
  lateEpoch : Option Nat := none
  mismEpoch : Option Nat := none
  fullEpoch : SMap Nat := []
  stopped : Option Nat := none
  domKeys : List (List Byte) := [[], [], [], []]
deriving DecidableEq, Repr

/-- A vector engine's program run (R196 to R210): what ran, for which records, where it stands. -/
structure VeRun where
  tenant : Nat := 0
  kind : Nat := 1
  prog : VProg := {}
  recs : List Nat := []
  lanes : List Lane := []
  pc : Nat := 0
  loops : List LoopFrame := []
  cycles : Nat := 0
  half : Nat := 0
deriving DecidableEq, Repr

/-- A batch that gathers records of one program and set half (R193, R196): kind 1 feature, 2 finish; the hub cycle its first record became
ready. -/
structure VeBatch where
  tenant : Nat := 0
  kind : Nat := 1
  prog : Nat := 0
  half : Nat := 0
  recs : List Nat := []
  opened : Nat := 0
  due : Bool := false
deriving DecidableEq, Repr

/-- The vector engines of one hub die: runs keyed by engine, gathered batches in order of their first record. -/
structure VeHub where
  runs : SMap VeRun := []
  batches : List VeBatch := []
deriving DecidableEq, Repr

/-- A tile instruction in progress (Table 8.4, R228, R234, R235): the logical slot (or 66 plus the logical match unit) whose run it
evaluates, the physical unit (t, or 66 plus m) that evaluates it, the record it serves, the half whose image it uses, the first block of the
vector in the unit's record buffer, its first accumulator entry and its sums, its run of directory entries, the directory indices not yet
evaluated, those that wait for a spill window; for a pooled unit, `pool` is true; the pooled units taken from it that have not drained; whether
its completion is reported. -/
structure TileIns where
  die : Nat := 0
  unit : Nat := 0
  phys : Nat := 0
  hub : Nat := 0
  ent : Nat := 0
  stream : Nat := 0
  gen : Nat := 0
  opt : Option Nat := none
  ens : Nat := 0
  path : SumPath := .int
  half : Nat := 0
  rbuf : Nat := 0
  accBase : Nat := 0
  acc : List Int := []
  dirFirst : Nat := 0
  dirCount : Nat := 0
  todo : List Nat := []
  spills : List Nat := []
  pool : Bool := false
  pooled : Nat := 0
  done : Bool := false
deriving DecidableEq, Repr

/-- The 128-bit word of an EVAL instruction (Table 8.4). -/
def TileIns.word (t : TileIns) : Nat :=
  1 + 2 ^ 4 * t.half + 2 ^ 5 * b2n (t.path == .fx) + 2 ^ 8 * t.rbuf + 2 ^ 16 * t.accBase + 2 ^ 28 * t.ens + 2 ^ 34 * (t.acc.length - 1) +
  2 ^ 40 * t.gen + 2 ^ 44 * t.stream + 2 ^ 53 * t.hub + 2 ^ 64 * t.dirFirst + 2 ^ 82 * t.dirCount + 2 ^ 100 * t.ent

/-- The vector of a record's run in the record buffer of a unit (R227, R263): the logical and the physical unit, the record's run and its
generation, whether it serves the record's rule table searches, its first block and its blocks. -/
structure BufSt where
  die : Nat := 0
  unit : Nat := 0
  phys : Nat := 0
  hub : Nat := 0
  ent : Nat := 0
  opt : Option Nat := none
  gen : Nat := 0
  rule : Bool := false
  first : Nat := 0
  blocks : Nat := 0
deriving DecidableEq, Repr

/-- A record's run on a die: whether its vector has passed from the die input queue to the record buffers (R227), the units whose EVAL has not
been issued, and its entries in the Watersmeet (R289 to R291): whether it holds them, the expected drains, whether a preload is still to be
written, and the sums. -/
structure DieRec where
  die : Nat := 0
  hub : Nat := 0
  ent : Nat := 0
  stream : Nat := 0
  gen : Nat := 0
  opt : Option Nat := none
  ens : Nat := 0
  path : SumPath := .int
  bank : Nat := 0
  todo : List Nat := []
  expected : Nat := 0
  needPre : Bool := false
  taken : Bool := false
  held : Bool := false
  sums : List Int := []
deriving DecidableEq, Repr

/-- A die partial on its way to its hub (R290, R292). -/
structure DiePart where
  die : Nat := 0
  hub : Nat := 0
  ent : Nat := 0
  stream : Nat := 0
  gen : Nat := 0
  opt : Option Nat := none
  sums : List Int := []
deriving DecidableEq, Repr

/-- The scoring dies (chapters 8 to 10): tile instructions in progress, vectors in record buffers, runs and their Watersmeet entries, partials
in the hubs' return queues; by physical tile 66 d + t, the lane cycles that its evaluations have counted and that have not yet passed (R250). -/
structure DieSt where
  bufs : List BufSt := []
  ins : List TileIns := []
  recs : List DieRec := []
  parts : List DiePart := []
  lanes : SMap Nat := []
deriving DecidableEq, Repr

/-- A settlement of a tenant's epoch (R310): its bank, its records, the hub cycle at which the ordered procedure ends on each hub die, whether it
has ended, the choices it refuses for an overrun and those of hub die 1's records among them (R317), the records that came late, how many
those were, and whether its ordered procedure has ended in a fault before (R324). -/
structure Settlement where
  tenant : Nat := 0
  epoch : Nat := 0
  bank : CapBank := []
  recs : List SetlRec := []
  endAt : List Nat := [0, 0]
  ended : Bool := false
  overrun : Nat := 0
  overrun1 : Nat := 0
  late : List SetlRec := []
  lateCount : Nat := 0
  faulted : Bool := false
deriving DecidableEq, Repr

/-- Distributary (chapter 11): records that wait for the settlement of their epoch, open settlements, late command list parts by
destination with the hub cycle of the last one sent, the next part number of each list, the epochs of a destination's lists that were not delivered, and
the command lists sent as (target, bytes). -/
structure DistSt where
  waiting : List SetlRec := []
  open_ : List Settlement := []
  lateParts : List CmdPart := []
  lateSent : SMap Nat := []
  partNo : SMap Nat := []
  undeliv : SMap (List Nat) := []
  sent : List (Nat × List Byte) := []
deriving DecidableEq, Repr

/-- A run of records not captured (R341): how many, the first and the last stamp. -/
structure LossRun where
  count : Nat := 0
  first : Nat := 0
  last : Nat := 0
deriving DecidableEq, Repr

/-- A replay session (R342, R347): first original epoch N, target M, end E, records replayed, misses at its start. -/
structure Session12 where
  n : Nat := 0
  m : Nat := 0
  e : Option Nat := none
  count : Nat := 0
  miss0 : Nat := 0
deriving DecidableEq, Repr

/-- Capture and replay of one tenant (chapter 12). `ring` holds the entries from CAP_RD on, as (offset, bytes). -/
structure CapSt where
  ring : List (Nat × List Byte) := []
  wr : Nat := 0
  rd : Nat := 0
  loss : Option LossRun := none
  digests : SMap (Nat × Nat) := []
  session : Option Session12 := none
deriving DecidableEq, Repr

end Sys2Proof.Machine
end

