-- ==== Sys2Proof/Machine/GuardTypes.lean ====
section
/-! DEFINITION. The state of the security module and of reliability (chapters 17 and 18). -/

namespace Sys2Proof.Machine

/-- A key table entry (Table 17.3). `floors` and `reserved` are the counters F and Q of each tenant (R466). -/
structure KeyEnt where
  keyId : Nat := 0
  role : Nat := 2
  algs : Nat := 3
  tenants : Nat := 0
  perms : Nat := 0
  floors : List Nat := [0, 0, 0, 0]
  reserve : List Nat := [0, 0, 0, 0]
  ecdsa : List Byte := []
  mldsa : List Byte := []
deriving DecidableEq, Repr

/-- What one copy of the state area holds (R465): the persistent state with its write sequence. `intact` says that it
authenticates. -/
structure StateArea where
  seq : Nat := 0
  keys : List KeyEnt := []
  sigPolicy : Nat := 0
  tenancy : Bool := false
  intact : Bool := true
deriving DecidableEq, Repr

/-- An export key (R471), named by tenant and identifier; `no` is the number of the key the module holds. -/
structure ExportKey where
  tenant : Nat := 0
  id : Nat := 0
  no : Nat := 0
deriving DecidableEq, Repr

/-- The security module (chapter 17). `owner` holds the fused owner hashes; `minVer` and `minSlots` the fused minimum version and how many of its slots are blown;
`testing` is the binding whose SELF_TEST runs; `kemNo` numbers the ML-KEM key pair and nonce, `transport` the transport key; `drbg` is the state of the random generator, 0 where it is zeroised or not yet
seeded; `caks` the MACsec connectivity association keys by port and sub-port, each with its name (CKN). -/
structure SecSt where
  approved : Bool := false
  error : Bool := false
  failTest : Nat := 0
  testing : Option Nat := none
  owner : Option (Nat × Nat) := none
  minVer : Nat := 0
  minSlots : Nat := 0
  keys : List KeyEnt := []
  sigPolicy : Nat := 0
  tenancy : Bool := false
  pending : Option Bool := none
  fallback : Bool := false
  lost : Bool := false
  area0 : StateArea := {}
  area1 : StateArea := {}
  exportKeys : List ExportKey := []
  caks : SMap (Nat × List Byte) := []
  kemNo : Nat := 0
  transport : Nat := 0
  drbg : Nat := 0
deriving DecidableEq, Repr

/-- The fault window of a unit (R483), with the limits it opened under, and the lasting mark (R484). -/
structure FaultWin where
  opened : Bool := false
  start : Nat := 0
  c : Nat := 0
  x : Nat := 0
  limC : Nat := 0
  limX : Nat := 0
  len : Nat := 0
  lasting : Bool := false
deriving DecidableEq, Repr

/-- A scoring tile or a match unit as a unit (Tables 8.10, 9.10): state 0 active, 1 spare, 2 loading, 3 lastingly faulty; the
logical slot or unit it holds, the one it hosts, the one it is loading for which `failed` unit, and a single-tile reset in progress. `scrub` is the next
row that scrub compares, `noMatchAt` the epoch of a match unit's last MU_TREE_NOMATCH. -/
structure UnitSt where
  state : Nat := 0
  held : Option Nat := none
  hosted : Option Nat := none
  loading : Option Nat := none
  resetting : Bool := false
  since : Nat := 0
  failed : Nat := 0
  scrub : Nat := 0
  noMatchAt : Option Nat := none
deriving DecidableEq, Repr

/-- Reliability (chapter 18): fault windows by unit address; the units of each die; unavailable slots and logical units with the
unit that failed; die links down; degraded bits per tenant as last reported; the management mirror by unit address; the control cores;
the units whose self-test or training a reinstate waits for; the dies that have lost both links, withdrawn until a cold reset. -/
structure RelSt where
  wins : SMap FaultWin := []
  tiles : SMap UnitSt := []
  mus : SMap UnitSt := []
  engines : SMap UnitSt := []
  dieLinks : List Nat := []
  degraded : List Nat := [0, 0, 0, 0]
  mirror : SMap Nat := []
  mirrorEpoch : Nat := 0
  cores : SMap UnitSt := []
  testing : List Nat := []
  outDies : List Nat := []
deriving DecidableEq, Repr

end Sys2Proof.Machine
end

