-- ==== Sys2Proof/Machine/LoadCheck.lean ====
section
/-! DEFINITION. The load checks of R55: format, limits, Eddy schema and capacity, in order of part, index, tree and word. -/

namespace Sys2Proof.Machine

/-- Load outcome codes (Table 2.11). -/
def loLoaded : Nat := 0x00
def loSpilled : Nat := 0x01
def loTooLarge : Nat := 0x10
def loLimit : Nat := 0x11
def loFormat : Nat := 0x12
def loSchema : Nat := 0x13
def loDrain : Nat := 0x14

/-- What a load reports (R55, Table 15.9): outcome, row of Table 2.10, failing part, index and word address. -/
structure LoadResult where
  outcome : Nat := 0
  row : Nat := 0
  part : Nat := 0
  index : Nat := 0
  word : Nat := 0
deriving DecidableEq, Repr

/-- A format failure at a part, an index and a word. -/
abbrev FormatFail := Option (Nat × Nat × Nat)

/-- The first failure of a list of checks. -/
def firstFail : List FormatFail → FormatFail
  | [] => none
  | none :: l => firstFail l
  | some f :: _ => some f

/-- A failure when a condition is false. -/
def need (ok : Bool) (part index word : Nat) : FormatFail := if ok then none else some (part, index, word)

/-- A binary32 value the leaf rules refuse (R44 to R46, R49). -/
def f32Bad (v : Nat) : Bool := fNan v || fIsInf v

/-- What the walk of a well-formed subtree found: the word after it, its depth, the vector leaf lengths met, and whether it
has scalar or linear leaves. -/
structure WalkInfo where
  stop : Nat := 0
  depth : Nat := 0
  vlens : List Nat := []
  plain : Bool := false
deriving DecidableEq, Repr

/-- The node rules of one internal node apart from the children (R39, R40, R42, R43). DESIGN CHOICE (log 72): a category set index at or above the
image's count of sets, for which R42 names no outcome, is a format fault. -/
def innerOk (ft : FTable) (ncats : Nat) (w w1 : DWord) : Bool :=
  let f := nFeat w
  let d := nth ft f 0
  match nKind w with
  | 0 => decide (f < ft.length) && decide (2 ≤ nRight w) &&
      !(featDomain d == 4 && (fNan (nVal w) || nVal w == 2 ^ 31))
  | 1 => decide (f < ft.length) && featCat d && decide (2 ≤ nRight w) && nVal w / 4096 == 0 && decide (nVal w % 4096 < ncats)
  | _ => decide (3 ≤ nRight w) &&
      (obliqueTerms w w1).all (fun t => decide (t.1 < ft.length) && decide (featDomain (nth ft t.1 0) ≤ 1))

/-- The leaf rules (R44 to R47): reserved fields, counts, and the table entry the leaf names in `tab`, at or above word `lo`. -/
def leafOk (ft : FTable) (f32 : Bool) (outputs outBase lo : Nat) (tab : List DWord) (w : DWord) : Bool :=
  let v := w.toNat
  let addr := bits v 34 16
  nMiss w == 0 && nRight w == 0 && decide (outBase < outputs) &&
  (match nKind w with
   | 3 => nFeat w == 0 && !(f32 && f32Bad (nVal w))
   | 4 =>
     let n := bits v 52 48
     bits v 59 53 == 0 && bits v 47 35 == 0 && decide (1 ≤ n) && decide (n ≤ 16) && decide (outBase + n ≤ outputs) && decide (lo ≤ addr) &&
     decide (addr + ceilDiv n 2 ≤ tab.length) && !(f32 && (List.range n).any (fun i => f32Bad (vecElem tab addr i)))
   | _ =>
     let k := bits v 51 48
     let h := (nth tab addr 0).toNat
     bits v 59 52 == 0 && bits v 47 35 == 0 && decide (1 ≤ k) && decide (k ≤ 8) && decide (lo ≤ addr) && decide (addr + 1 + k ≤ tab.length) &&
     bits h 63 37 == 0 && (if f32 then bits h 36 32 == 0 && !f32Bad (bits h 31 0) else true) &&
     (List.range k).all (fun i =>
       let t := (nth tab (addr + 1 + i) 0).toNat
       let f := bits t 59 48
       bits t 63 60 == 0 && bits t 47 32 == 0 && decide (f < ft.length) &&
       (if f32 then !f32Bad (bits t 31 0) else bits t 31 16 == 0 && decide (featDomain (nth ft f 0) ≤ 1))))

/-- The word after `need` whole subtrees laid out in pre-order from word `a` (R40): the kinds alone give it. `none` where a reserved kind or
the end of the image comes first. -/
def subtreeEnd (img : List DWord) (hi : Nat) : Nat → Nat → Nat → Option Nat
  | _, 0, a => some a
  | 0, _, _ => none
  | fuel + 1, need + 1, a =>
    let k := nKind (nth img a 0)
    if hi < a + nWords k ∨ 5 < k then none
    else subtreeEnd img hi fuel (if nLeaf k then need else need + 2) (a + nWords k)

/-- What a tree is walked against: the feature table, the image with its end `hi`, the table words `tab` from word `lo` on, the category sets,
the ensemble's leaf type and outputs, the tree's root and output base. -/
structure WalkEnv where
  ft : FTable := []
  img : List DWord := []
  tab : List DWord := []
  lo : Nat := 0
  hi : Nat := 0
  ncats : Nat := 0
  root : Nat := 0
  f32 : Bool := false
  outputs : Nat := 1
  outBase : Nat := 0
deriving DecidableEq, Repr

/-- Walks the subtree at word `a` in address order (R39 to R47); the first failing word otherwise. -/
def walkCheck (v : WalkEnv) : Nat → Nat → Except Nat WalkInfo
  | 0, a => .error a
  | fuel + 1, a =>
    let w := nth v.img a 0
    let k := nKind w
    let n := nWords k
    if v.hi ≤ a ∨ 5 < k then .error a
    else if nLeaf k then
      if leafOk v.ft v.f32 v.outputs v.outBase v.lo v.tab w then
        .ok { stop := a + 1, vlens := if k = 4 then [bits w.toNat 52 48] else [], plain := k != 4 }
      else .error a
    else if v.hi < a + n ∨ innerOk v.ft v.ncats w (nth v.img (a + 1) 0) = false ∨ v.hi ≤ a + nRight w ∨ v.root + 65535 < a + nRight w ∨
        (match subtreeEnd v.img v.hi (v.hi + 1) 1 (a + n) with | some e => decide (e ≠ a + nRight w) | none => false) = true then .error a
    else
      match walkCheck v fuel (a + n) with
      | .error e => .error e
      | .ok l =>
        match walkCheck v fuel l.stop with
        | .error e => .error e
        | .ok r => .ok { stop := r.stop, depth := 1 + max l.depth r.depth, vlens := l.vlens ++ r.vlens, plain := l.plain || r.plain }

/-- A walk that agrees with the tree's entry (R45, R50): depth, vector length, no mixing. -/
def walkAgrees (i : WalkInfo) (depth vlen : Nat) : Bool :=
  i.depth == depth && i.vlens.all (· == vlen) && (vlen == 0 || !i.vlens.isEmpty) && !(i.plain && !i.vlens.isEmpty)

/-- What a tree of an ensemble's node image is walked against. -/
def Ensemble.walkEnv (e : Ensemble) (ft : FTable) (t : TreeEnt) : WalkEnv :=
  { ft := ft, img := e.nodes, tab := e.tables, hi := e.nodes.length, ncats := e.cats.length / 4, root := t.root, f32 := e.leafType == 1
    outputs := e.outputs, outBase := t.outBase }

/-- One tree of an ensemble (R39 to R50): the failing word. -/
def treeFail (ft : FTable) (e : Ensemble) (t : TreeEnt) : Option Nat :=
  if t.reserved ≠ 0 ∨ e.outputs ≤ t.outBase ∨ e.maxDepth < t.depth ∨ 16 < t.vlen then some t.root
  else
    match walkCheck (e.walkEnv ft t) 65537 t.root with
    | .error a => some a
    | .ok i => if walkAgrees i t.depth t.vlen then none else some t.root

/-- Part 2: the feature table (R34). -/
def featuresFail (m : ModelSet) : FormatFail :=
  firstFail [need (decide (1 ≤ m.features) && m.ftable.length == m.features) 1 0 0,
    match (m.ftable.zipIdx).find? (fun d =>
      decide (4 < featDomain d.1) || (featCat d.1 && !(featDomain d.1 == 0 || featDomain d.1 == 2)) || decide (16 ≤ d.1)) with
    | some d => some (1, 0, d.2)
    | none => none]

/-- Part 3: the ensembles (R49, R50). A −0 bias is stored as +0 and not refused. -/
def ensembleFail (m : ModelSet) (e : Ensemble) : FormatFail :=
  let i := e.index
  firstFail ([need (decide (i < 64) && decide (e.leafType ≤ 1) && decide (1 ≤ e.outputs) && decide (1 ≤ e.trees) &&
      decide (e.flags < 8) && e.reserved == 0 && e.table.length == e.trees && e.nodes.length == e.nodeWords &&
      e.tables.length == e.tableWords &&
      (if e.leafType = 0 then e.fxScale == 0 else decide (-126 ≤ e.scale) && decide (e.scale ≤ 149))) 2 i 0,
    need (!(e.leafType == 1 && e.bias.any f32Bad)) 2 i 0] ++
    e.table.map (fun t => (treeFail m.ftable e t).map (fun a => (2, i, a))))

/-- Part 4: the cascades (R51, R52). DESIGN CHOICE (log 72): R52's demand that consecutive stages have one LEAF_TYPE and FX_SCALE is read of stages that
pass a residual, since only a residual is carried from one to the other. -/
def stageFail (m : ModelSet) (c : Cascade) (j : Nat) : Bool :=
  let s := nth c.stages j {}
  match m.ensemble s.ensemble with
  | none => true
  | some e =>
    let last := j + 1 == c.nstages
    decide (4 < s.exitTest) || s.reserved != 0 || (last && s.exitTest != 0) || decide (e.outputs ≤ s.exitOut) ||
    decide (e.outputs < s.residual) ||
    (if last then false
     else
       match m.ensemble (nth c.stages (j + 1) {}).ensemble with
       | none => true
       | some e' => decide (0 < s.residual) && (e'.leafType != e.leafType || (e.leafType == 1 && e'.fxScale != e.fxScale) ||
           decide (e'.outputs < s.residual)))

def cascadeFail (m : ModelSet) (c : Cascade) : FormatFail :=
  firstFail (need (decide (1 ≤ c.nstages) && c.stages.length == c.nstages) 3 c.index 0 ::
    (List.range c.nstages).map (fun j => need (!stageFail m c j) 3 c.index (2 * j)))

/-- Part 5: the rule tables (R53). -/
def tableFail (t : RuleTable) : FormatFail :=
  need (decide (t.index < 16) && decide (1 ≤ t.rules) && decide (t.rules ≤ 65536) && decide (1 ≤ t.replicas) &&
    decide (t.replicas ≤ 8)) 4 t.index 0

/-- The operand fields an opcode uses (R205, Table 7.6): D, A, B, the M bits, the IMM bits, register form. -/
structure OpShape where
  d : Bool := true
  a : Bool := true
  b : Bool := false
  m : Nat := 0
  imm : Nat := 0
  reg : Bool := false
deriving DecidableEq, Repr

/-- Register-form opcodes (R206). -/
def vRegForm (op : Nat) : Bool :=
  (decide (0x10 ≤ op) && decide (op ≤ 0x1F) && op != 0x1D) || (decide (0x20 ≤ op) && decide (op ≤ 0x26)) || op == 0x2F ||
  (decide (0x30 ≤ op) && decide (op ≤ 0x34)) || op == 0x37 || op == 0x40

/-- The shape of each opcode of Table 7.6. -/
def opShape (op : Nat) : Option OpShape :=
  if vRegForm op then some { b := true, m := if op = 0x2F ∨ op = 0x40 then 0x1F else 0x10, imm := 0xFFFFFFFF, reg := true }
  else
    match op with
    | 0x00 | 0x03 => some { d := false, a := false }
    | 0x02 => some { d := false, a := false, imm := 0xFFFFFFFF }
    | 0x27 => some { m := 1, imm := 0x3FF }
    | 0x28 => some { imm := 0x3FF }
    | 0x2B => some { a := false, imm := 0xFFFFFFFF }
    | 0x1D | 0x29 | 0x2A | 0x2C | 0x2D | 0x2E | 0x35 | 0x36 | 0x38 | 0x39 | 0x3A | 0x3B => some {}
    | 0x3C => some { m := 1 }
    | 0x3D => some { m := 7 }
    | 0x41 => some { b := true, m := 3 }
    | 0x48 => some { imm := 0xFFFFFFFF }
    | 0x49 => some { m := 3, imm := 0xFFFFFFFF }
    | 0x50 => some { b := true, m := 0xF, imm := 0xFFFFFFFF }
    | 0x58 | 0x59 => some { d := false, m := 8, imm := 0xFFF }
    | 0x5A => some { d := false, a := false, m := 8, imm := 0xFFF }
    | 0x5B => some { d := false, m := 8, imm := 0xF }
    | 0x5C => some { d := false, m := 8, imm := 0x3F }
    | 0x5D => some { a := false, m := 1 }
    | _ => none

/-- R205: unused operand fields are 0; CMP and PLOG name a predicate; M[4] leaves B at 0. CMP.MISS reads no second operand. -/
def insR205 (i : VIns) : Bool :=
  match opShape i.op with
  | none => true
  | some s =>
    let m := i.m % 16
    let miss := i.op == 0x40 && m == 10
    (s.d || i.d == 0) && (s.a || i.a == 0) && (s.b || i.b == 0) &&
    (m &&& s.m) == m && (if s.reg && (miss || !bit i.m 4) then i.imm == 0 else (i.imm &&& s.imm) == i.imm) &&
    !(s.reg && (miss || bit i.m 4) && i.b != 0) && !((i.op == 0x40 || i.op == 0x41) && decide (8 ≤ i.d))

/-- R206: defined opcodes, M[4] only in register form, and the reserved codes of the modifier fields. -/
def insR206 (i : VIns) : Bool :=
  (opShape i.op).isSome && (vRegForm i.op || !bit i.m 4 || i.op == 0x50) && !(i.op == 0x40 && decide (12 ≤ i.m % 16)) &&
  !(i.op == 0x49 && i.m % 4 == 3)

/-- R201, R208: widths, the segment and who may read it. -/
def insR208 (kind : Nat) (i : VIns) : Bool :=
  i.op != 0x50 || (decide (i.m % 8 ≤ 4) && !bit i.m 4 && decide (i.b ≤ 11) &&
    (if kind = 1 then decide (i.b ≤ 6) else decide (5 ≤ i.b)))

/-- A LOOP before these instructions finds its ENDL (R209). -/
def loopCloses : List VIns → Nat → Bool
  | [], _ => false
  | i :: is, d =>
    if i.op = 0x02 then loopCloses is (d + 1)
    else if i.op = 0x03 then (if d = 0 then true else loopCloses is (d - 1))
    else loopCloses is d

/-- An instruction in its place: the innermost open loop (count, index stride), the product of the counts around it, and whether its nesting
is legal (R209). -/
structure LoopAt where
  ins : VIns
  inner : Option (Nat × Nat) := none
  mult : Nat := 1
  nests : Bool := true
deriving DecidableEq, Repr

/-- Opens and closes loops along the code (R209). -/
def loopWalk : List VIns → List (Nat × Nat) → List LoopAt
  | [], _ => []
  | i :: is, st =>
    let here : LoopAt := { ins := i, inner := st.head?, mult := (st.map Prod.fst).foldl (· * ·) 1 }
    if i.op = 0x02 then
      { here with nests := decide (st.length < 4) && loopCloses is 0 } :: loopWalk is (if 4 ≤ st.length then st else (i.imm % 4096 + 1, bits i.imm 29 22) :: st)
    else if i.op = 0x03 then { here with nests := !st.isEmpty } :: loopWalk is (st.drop 1)
    else here :: loopWalk is st

/-- R209 on one instruction: reserved IMM bits, guards, a loop-indexed instruction outside every loop. -/
def insR209 (i : VIns) (inner : Option (Nat × Nat)) : Bool :=
  let idx := i.op == 0x50 || (decide (0x58 ≤ i.op) && decide (i.op ≤ 0x5C))
  !(i.op == 0x02 && decide (2 ^ 30 ≤ i.imm)) && !((i.op == 0x02 || i.op == 0x03) && (i.pg != 0 || i.pn != 0)) &&
  !(idx && bit i.m 3 && inner.isNone)

/-- The store indexes an instruction can reach (R211). -/
def storeIdx (i : VIns) (inner : Option (Nat × Nat)) (base : Nat) : List Nat :=
  match inner, bit i.m 3 with
  | some (c, st), true => (List.range c).map (fun k => base + k * st)
  | _, _ => [base]

/-- R211 on one instruction. -/
def insR211 (ft : FTable) (kind nres : Nat) (i : VIns) (inner : Option (Nat × Nat)) : Bool :=
  match i.op with
  | 0x58 | 0x5A => kind == 1 && (storeIdx i inner (i.imm % 4096)).all (fun f => decide (f < ft.length))
  | 0x59 => kind == 1 && (storeIdx i inner (i.imm % 4096)).all (fun f =>
      decide (f + 1 < ft.length) && featWidth (nth ft f 0) == 2 && featWidth (nth ft (f + 1) 0) == 2)
  | 0x5B => kind == 1 && (storeIdx i inner (i.imm % 16)).all (fun f => decide (f < 16))
  | 0x5C => (storeIdx i inner (i.imm % 64)).all (fun f => decide (f < nres))
  | _ => true

/-- A strictly rising list. -/
def rising : List Int → Bool
  | a :: b :: l => decide (a < b) && rising (b :: l)
  | _ => true

/-- R212, R213: the table a PWL or BKT names passes. -/
def insTables (const : List Byte) (i : VIns) : Bool :=
  if i.op ≠ 0x48 ∧ i.op ≠ 0x49 then true
  else
    let t := const.drop i.imm
    i.imm % 8 == 0 && decide (i.imm + 8 ≤ const.length) &&
    (if i.op = 0x48 then
       let n := leAt t 0 1
       decide (1 ≤ n) && decide (n ≤ 64) && decide (leAt t 1 1 ≤ 31) && leAt t 2 6 == 0 && decide (8 + 16 * n ≤ t.length) &&
       (List.range n).all (fun j => leAt t (20 + 16 * j) 4 == 0) &&
       rising ((List.range n).map (fun j => sgn 32 (leAt t (8 + 16 * j) 4)))
     else
       let n := leAt t 0 2
       let m := i.m % 4
       decide (1 ≤ n) && decide (n ≤ 255) && leAt t 2 6 == 0 && decide (8 + 4 * n + n % 2 * 4 ≤ t.length) &&
       leAt t (8 + 4 * n) (n % 2 * 4) == 0 &&
       (if m = 2 then (List.range n).all (fun j => let x := leAt t (8 + 4 * j) 4; !fNan x && x != 2 ^ 31) else true) &&
       rising ((List.range n).map (fun j => bktKey m (leAt t (8 + 4 * j) 4))))

/-- The cost C of a program (R210). -/
def VProg.cost (p : VProg) : Nat := 4 + ((loopWalk (p.code.map vIns) []).map (fun a => vCycles a.ins * a.mult)).sum

/-- Parts 6 and 7: a program (R205 to R217). -/
def progFail (m : ModelSet) (kind part : Nat) (p : VProg) : FormatFail :=
  let is := p.code.map vIns
  let firstAt := fun (ok : VIns → Bool) => firstFail ((is.zipIdx).map (fun i => need (ok i.1) part p.index i.2))
  let head := need (p.kind == kind && decide (p.index < 64) && (if kind = 1 then decide (p.flags < 2) else p.flags == 0) &&
    (if kind = 1 then p.nres == 0 else decide (p.nres ≤ 64)) && decide (1 ≤ p.codeLen) && decide (p.codeLen ≤ 4096) &&
    decide (p.constLen ≤ 28672) && p.constLen % 8 == 0 && p.setId == m.setId && p.setVersion == m.version &&
    p.reserved == 0 && p.code.length == p.codeLen && p.const.length == p.constLen) part p.index 0
  let firstIn := fun (ok : LoopAt → Bool) => firstFail (((loopWalk is []).zipIdx).map (fun a => need (ok a.1) part p.index a.2))
  firstFail [head, firstAt insR205, firstAt insR206, firstAt (insR208 kind), firstIn (fun a => a.nests && insR209 a.ins a.inner),
    firstIn (fun a => insR211 m.ftable kind p.nres a.ins a.inner), firstAt (fun i => i.op != 0x48 || insTables p.const i),
    firstAt (fun i => i.op != 0x49 || insTables p.const i), need (p.cycles == p.cost) part p.index 0]

/-- The field area of a class (R165). -/
def fieldArea (slot : Nat) : Nat := slotBytes slot - 64

/-- Field `j` of a class: its pair, alignment, range, and no overlap with those before it (R166). -/
def fieldOk (c : KeyClass) (j : Nat) : Bool :=
  let d := nth c.fields j {}
  d.reserved == 0 && fieldPairOk d && d.offset % fieldAlign d.op d.type == 0 &&
  decide (d.offset + fieldSize d.op d.type d.param ≤ fieldArea c.slot) &&
  (c.fields.take j).all (fun o =>
    decide (o.offset + fieldSize o.op o.type o.param ≤ d.offset) || decide (d.offset + fieldSize d.op d.type d.param ≤ o.offset))

/-- An update entry (R575). -/
def updOk (c : KeyClass) (u : UpdEntry) : Bool :=
  let op := (nth c.fields u.field {}).op
  (decide (u.field < c.nfields) || u.field == 0xFE || u.field == 0xFF) && decide (u.src ≤ 2) &&
  ((u.src == 2) == (u.field == 0xFF || (decide (u.field < c.nfields) && op == 7))) &&
  (u.field != 0xFE || (u.src == 1 && decide (u.arg ≤ 1))) && bits u.gate 6 4 == 0 && u.reserved == 0

/-- An access entry, without its update entries (R575); `before` are the entries before it. -/
def accessOk (m : ModelSet) (s : Schema) (before : List AccessEntry) (a : AccessEntry) : Bool :=
  match m.pipeline a.pipe, s.classes.find? (fun c => c.cls = a.cls) with
  | some p, some c =>
    bit p.keyClasses a.cls && !(before.any (fun b => b.pipe = a.pipe && b.cls = a.cls)) && decide (a.snap ≤ 3) &&
    decide (a.nupd ≤ 16) && a.snapLen % 8 == 0 && decide (a.snapLen ≤ fieldArea c.slot) && a.reserved == 0 &&
    a.upds.length == a.nupd
  | _, _ => false

/-- The 8-byte words a class takes in the schema part. -/
def classWords (c : KeyClass) : Nat := 2 + c.fields.length

/-- Part 9: the Eddy schema (R163, R166, R575): each class descriptor and its field descriptors, then each access entry and its update
entries, by the word each stands at. DESIGN CHOICE (log 9): word 0 is that of the first class descriptor, since the spec does not say where a part carries
its identifiers and counts. -/
def schemaFail (m : ModelSet) : FormatFail :=
  match m.schema with
  | none => none
  | some s =>
    let nc := (s.classes.map classWords).sum
    firstFail ((s.classes.zipIdx).flatMap (fun c =>
        let w := ((s.classes.take c.2).map classWords).sum
        need (decide (c.1.cls < 8) && decide (c.1.slot ≤ 2) && decide (c.1.mode ≤ 1) && decide (10 ≤ c.1.bucketsLog2) &&
          decide (c.1.bucketsLog2 ≤ 28) && decide (c.1.nfields ≤ 32) && c.1.reserved == 0 && c.1.fields.length == c.1.nfields &&
          !((s.classes.take c.2).any (fun d => d.cls = c.1.cls))) 8 c.1.cls w ::
        (List.range c.1.fields.length).map (fun j => need (fieldOk c.1 j) 8 c.1.cls (w + 2 + j))) ++
      (s.access.zipIdx).flatMap (fun a =>
        let w := nc + ((s.access.take a.2).map (fun b => 1 + b.upds.length)).sum
        need (accessOk m s (s.access.take a.2) a.1) 8 a.1.pipe w ::
        (a.1.upds.zipIdx).map (fun u => need (match s.classes.find? (fun c => c.cls = a.1.cls) with | some c => updOk c u.1 | none => true)
          8 a.1.pipe (w + 1 + u.2))))

/-- Part 10: a pipeline (R32). -/
def pipelineOk (m : ModelSet) (p : Pipeline) : Bool :=
  !p.valid ||
  ((p.featProg == 0xFF || (m.featProg p.featProg).isSome) && (p.finProg == 0xFF || (m.finProg p.finProg).isSome) &&
   (match m.cascade p.cascade with
    | none => false
    | some c => c.stages.all (fun s => match m.ensemble s.ensemble with | some e => !e.isOptional | none => false)) &&
   (p.dispatch == 0xFF || (m.policyAt p.dispatch).isSome) &&
   p.ruleTables.all (fun t => t == 0xFF || (m.ruleTable t).isSome) &&
   p.optional.all (fun e => e == 0xFF || (match m.ensemble e with | some x => x.isOptional | none => false)) &&
   (List.range 8).all (fun k => !bit p.keyClasses k || (m.keyClass k).isSome) &&
   !(p.stateful && p.featProg == 0xFF) && decide (p.flags < 4) && p.reserved == 0)

/-- The runs of one replica of a tile row, in order: (slot, run) (R237). -/
def rowRuns (m : ModelSet) (r : PlaceRow) (rep : Nat) : List (Nat × SlotRun) :=
  (List.range r.span).flatMap (fun j => (List.range r.slots).map (fun q =>
    let s := 66 * r.die rep j + r.firstSlot + q
    (s, (m.runAt s r.index).getD { ens := r.index })))

/-- The words of a tree of an ensemble: from its root to the end of its pre-order layout. -/
def treeWords (e : Ensemble) (t : TreeEnt) : Nat :=
  match subtreeEnd e.nodes e.nodes.length (e.nodes.length + 1) 1 t.root with
  | some a => a - t.root
  | none => 0

/-- The spilled tree rules of R238 on the words [a, stop) of a tree: axis and oblique nodes and scalar leaves only, at most 2,048 words. -/
def spillKinds (img : List DWord) (stop : Nat) : Nat → Nat → Bool
  | 0, _ => false
  | fuel + 1, a =>
    let k := nKind (nth img a 0)
    if stop ≤ a then true else (k == 0 || k == 2 || k == 3) && spillKinds img stop fuel (a + nWords k)

/-- Where the trees and tables of a slot image end: at its category sets, its window, or its end (R224). -/
def treeArea (h : SlotHead) : Nat := if h.catBase ≠ 0x7FFFF then h.catBase else if h.winBase ≠ 0x7FFFF then h.winBase else h.words

/-- What the tree of a directory entry is walked against: on chip in its slot image, spilled in the set's Spillway area (R224, R238). -/
def entryEnv (m : ModelSet) (img : List DWord) (e : Ensemble) (d : DirEntry) : WalkEnv :=
  let h := slotHead img
  if d.spill then
    { ft := m.ftable, img := m.spill, hi := min m.spill.length (32 * (d.spBlock + d.spLen + 1)), root := 32 * d.spBlock
      f32 := e.leafType == 1, outputs := e.outputs, outBase := d.outBase }
  else
    { ft := m.ftable, img := img, tab := img.take (treeArea h), lo := 2 + h.trees, hi := treeArea h, ncats := h.catSets, root := d.root
      f32 := e.leafType == 1, outputs := e.outputs, outBase := d.outBase }

/-- The words of the tree of a directory entry. -/
def entryWords (m : ModelSet) (img : List DWord) (e : Ensemble) (d : DirEntry) : Nat :=
  let v := entryEnv m img e d
  match subtreeEnd v.img v.hi (v.hi + 1) 1 v.root with
  | some a => a - v.root
  | none => 0

/-- A tree that a tile may serve as spilled (R238, R239). -/
def entrySpills (m : ModelSet) (img : List DWord) (e : Ensemble) (d : DirEntry) : Bool :=
  let v := entryEnv m img e d
  let n := entryWords m img e d
  decide (n ≤ 2048) && spillKinds v.img (v.root + n) 2049 v.root

/-- The header and the order of the parts of a slot image (R224). -/
def slotHeadOk (h : SlotHead) (len : Nat) : Bool :=
  let catEnd := if h.catBase = 0x7FFFF then 2 + h.trees else h.catBase + 4 * h.catSets
  h.reserved == 0 && decide (h.trees ≤ 98304) && h.words == len && decide (2 + h.trees ≤ h.words) &&
  (if h.catBase = 0x7FFFF then h.catSets == 0 else decide (2 + h.trees ≤ h.catBase)) && decide (catEnd ≤ h.words) &&
  (h.winBase == 0x7FFFF || (decide (catEnd ≤ h.winBase) && decide (h.winBase + 4096 ≤ h.words)))

/-- The directory entries of a slot image that do not stand in exactly one run of an ensemble of the set (R225): each entry is a tree's. -/
def strayEntry (h : SlotHead) (runs : List SlotRun) : Option Nat :=
  (List.range h.trees).find? (fun i => (runs.filter (fun r => decide (r.first ≤ i) && decide (i < r.first + r.count))).length != 1)

/-- One slot image (R224 to R226, R238): header, directory, trees. SP_LEN of a spilled tree is its blocks less one (Table 8.3). -/
def slotFail (m : ModelSet) (slot : Nat) (img : List DWord) : FormatFail :=
  let h := slotHead img
  let f := fun (w : Nat) => some (10, slot % 256, w)
  let runs := SMap.getD (fun _ => []) m.runs slot
  if slotHeadOk h img.length = false then f 0
  else
    firstFail ((strayEntry h runs).bind (fun i => f (2 + i)) :: runs.flatMap (fun r =>
      match m.ensemble r.ens with
      | none => [f 2]
      | some e =>
        let t0 := m.runTree slot r.ens
        (List.range r.count).map (fun i =>
          let d := dirEntry img (r.first + i)
          let t := nth e.table (t0 + i) {}
          if d.reserved ≠ 0 ∨ h.trees ≤ r.first + i ∨ d.outBase ≠ t.outBase ∨ d.vlen ≠ t.vlen ∨ d.depth ≠ t.depth then f (2 + r.first + i)
          else if d.spill = true ∧ h.winBase = 0x7FFFF then f (2 + r.first + i)
          else if d.spill = false ∧ d.root < 2 + h.trees then f (2 + r.first + i)
          else
            let v := entryEnv m img e d
            match walkCheck v 65537 v.root with
            | .error a => f a
            | .ok w => if walkAgrees w d.depth d.vlen && (!d.spill || (entrySpills m img e d && d.spLen + 1 == ceilDiv (entryWords m img e d) 32)) then none
              else f v.root)))

/-- The leaves of a tree in an image. -/
def treeLeaves (img : List DWord) : Nat → Nat → List Nat
  | 0, _ => []
  | n + 1, a =>
    let w := nth img a 0
    if nLeaf (nKind w) then [a] else treeLeaves img n (a + nWords (nKind w)) ++ treeLeaves img n (a + nRight w)

/-- The largest and smallest element a leaf of an INT32 ensemble adds to each output from its base (R281). -/
def leafBound (img : List DWord) (a : Nat) : List (Int × Int) :=
  let w := nth img a 0
  match nKind w with
  | 3 => let v := sgn 32 (nVal w); [(max v 0, min v 0)]
  | 4 => (List.range (bits w.toNat 52 48)).map (fun i => let v := sgn 32 (vecElem img (bits w.toNat 34 16) i); (max v 0, min v 0))
  | _ =>
    let t := bits w.toNat 34 16
    let h := (nth img t 0).toNat
    let s := ((List.range (bits w.toNat 51 48)).map (fun i => (sgn 16 (bits (nth img (t + 1 + i) 0).toNat 15 0)).natAbs)).sum
    let b : Int := ((sgn 32 (bits h 31 0)).natAbs + ceilDiv (s * 65535) (2 ^ bits h 36 32) : Nat)
    [(b, -b)]

/-- The bounds of a tree's leaves on one output (R281). -/
def boundsOn (outBase o : Nat) (leaves : List (List (Int × Int))) : Int × Int :=
  leaves.foldl (fun b l =>
    if outBase ≤ o then
      let x := nth l (o - outBase) (0, 0)
      (max b.1 x.1, min b.2 x.2)
    else b) ((0 : Int), (0 : Int))

/-- The output sums U and V of one run of a slot image (R281), its spilled trees included. -/
def runBounds (m : ModelSet) (img : List DWord) (r : SlotRun) (o : Nat) : Int × Int :=
  (List.range r.count).foldl (fun acc i =>
    let d := dirEntry img (r.first + i)
    let w := if d.spill then m.spill else img
    let t := boundsOn d.outBase o ((treeLeaves w 65537 (if d.spill then 32 * d.spBlock else d.root)).map (leafBound w))
    (acc.1 + t.1, acc.2 + t.2)) (0, 0)

/-- The same of a run of selector entries of a unit image: each entry's RESULT is a leaf of its selector's tree (R261). -/
def unitRunBounds (img : MuImage) (r : SlotRun) (o : Nat) : Int × Int :=
  (List.range r.count).foldl (fun acc i =>
    let leaves := (img.entries.filter (fun e => !e.2.free && e.2.key % 65536 == r.first + i)).map (fun e =>
      (muLeafVals img false e.2.result).map (fun v => (max v 0, min v 0)))
    let t := boundsOn (nth img.selectors (r.first + i) {}).outBase o leaves
    (acc.1 + t.1, acc.2 + t.2)) (0, 0)

/-- R281 over the runs of one slot, and of one match unit. -/
def runBoundsFail (m : ModelSet) (place : Nat) (ens : Nat) (bounds : Nat → Int × Int) : List FormatFail :=
  match m.ensemble ens with
  | none => []
  | some e => if e.leafType = 0 then (List.range e.outputs).map (fun o =>
      let b := bounds o
      need (decide (b.1 ≤ 2 ^ 39 - 1) && decide (-(2 ^ 39) ≤ b.2)) 10 (place % 256) (place + o * 2 ^ 16)) else []
def slotBoundsFail (m : ModelSet) (slot : Nat) (img : List DWord) : FormatFail :=
  firstFail ((SMap.getD (fun _ => []) m.runs slot).flatMap (fun r => runBoundsFail m slot r.ens (runBounds m img r)))
def unitBoundsFail (m : ModelSet) (u : Nat) (img : MuImage) : FormatFail :=
  firstFail (((img.selectors.filter (fun s => s.kind == 0)).map SelEntry.index).dedup.flatMap (fun k =>
    runBoundsFail m u k (unitRunBounds img (muRun img k))))

/-- A search layout (R255, R256). -/
def layoutOk (m : ModelSet) (img : MuImage) (l : KeyLayout) : Bool :=
  decide (1 ≤ l.nfields) && decide (l.nfields ≤ 16) && l.reserved == 0 &&
  (l.fields.zipIdx).all (fun f =>
    let k := f.1
    let d := nth m.ftable k.feat 0
    decide (k.feat < m.ftable.length) && decide (k.kind ≤ 2) && decide (16 ≤ k.bitPos) && decide (1 ≤ k.width) &&
    decide (k.bitPos + k.width ≤ 191) && k.reserved == 0 && (k.kind == 0 || !k.missFill) &&
    (l.fields.take f.2).all (fun o => decide (o.bitPos + o.width < k.bitPos) || decide (k.bitPos + k.width < o.bitPos)) &&
    (match k.kind with
     | 0 => decide (k.base + k.width ≤ img.thresholds.length) &&
         rising ((List.range k.width).map (fun i => threshInt d (nth img.thresholds (k.base + i) 0))) &&
         !(featDomain d == 4 && (List.range k.width).any (fun i =>
            let t := nth img.thresholds (k.base + i) 0; fNan t || t == 2 ^ 31))
     | 1 => decide (k.width ≤ 32) && decide (k.base < 32) && decide (k.base % 32 + k.width ≤ 32)
     | _ => decide (k.width ≤ 8) && featCat d && decide (k.base + k.width ≤ img.catSets.length)))

/-- Selector `j` of a unit image (Table 9.4): a tree's fields are those of its tree table entry. -/
def selectorOk (m : ModelSet) (u : Nat) (img : MuImage) (j : Nat) : Bool :=
  let s := nth img.selectors j {}
  decide (s.kind ≤ 1) && decide (s.layout < min 32 img.layouts.length) && s.reserved == 0 &&
  (if s.kind = 0 then
     match m.ensemble s.index with
     | none => false
     | some e =>
       let t := nth e.table (m.unitTree m.units u s.index + (j - (muRun img s.index).first)) {}
       s.outBase == t.outBase && s.vlen == t.vlen && s.depth == t.depth
   else (m.ruleTable s.index).isSome && decide (s.outBase ≤ 7) && s.vlen == 0 && s.depth == 0)

/-- The element count of a leaf word of an entry fits its table memory (R261). -/
def muLeafOk (m : ModelSet) (img : MuImage) (e : MuEntry) : Bool :=
  let s := nth img.selectors (e.key % 65536) {}
  let w := BitVec.ofNat 64 e.result
  if e.free then true
  else if s.kind = 1 then decide (e.result < 2 ^ 32)
  else
    match m.ensemble s.index with
    | none => false
    | some en => (nKind w == 3 || nKind w == 4) && leafOk m.ftable (en.leafType == 1) en.outputs s.outBase 0 img.table w

/-- One unit image (R255 to R258, R261, R265). -/
def unitFail (m : ModelSet) (u : Nat) (img : MuImage) : FormatFail :=
  let f := fun (w : Nat) => (10, u % 256, w)
  firstFail ((img.layouts.zipIdx).map (fun l => if layoutOk m img l.1 then none else some (f l.2)) ++
    (List.range img.selectors.length).map (fun j => if selectorOk m u img j then none else some (f j)) ++
    [if img.selectors.any (fun s => s.kind == 1) && decide (2 ≤ img.selectors.length) then some (f 0) else none] ++
    img.entries.map (fun e => if entryOk e.2 && muLeafOk m img e.2 then none else some (f e.1)))

/-- The runs of selector entries of one replica of a match-unit row, in order: (unit, run) (R237). -/
def rowUnitRuns (m : ModelSet) (r : PlaceRow) (rep : Nat) : List (Nat × SlotRun) :=
  (List.range r.span).flatMap (fun j => r.unitSteps.map (fun q =>
    let u := 9 * r.unitDie rep j + r.firstUnit + q
    (u, muRun (SMap.getD (fun _ => {}) m.units u) r.index)))

/-- Each replica's runs cover the row's range, with the same lengths in every replica (R237). -/
def runsCover (r : PlaceRow) (runs : Nat → List (Nat × SlotRun)) : Bool :=
  (List.range r.replicas).all (fun rep =>
    ((runs rep).map (fun x => x.2.count)).sum == r.last + 1 - r.first &&
    decide ((runs rep).map (fun x => x.2.count) = (runs 0).map (fun x => x.2.count)))

/-- The units of a row that hold its table, or a part of it at position k, in every replica: no other selector stands beside (R264, R265). -/
def tableRowOk (m : ModelSet) (r : PlaceRow) : Bool :=
  (List.range r.replicas).all (fun rep => (r.unitSteps.zipIdx).all (fun q =>
    let img := SMap.getD (fun _ => {}) m.units (9 * r.unitDie rep 0 + r.firstUnit + q.1)
    match img.selectors with
    | [s] => s.kind == 1 && s.index == r.index && s.outBase == q.2
    | _ => false))

/-- The two images of every pair of a row are the same (R272). -/
def pairsOk (m : ModelSet) (r : PlaceRow) : Bool :=
  r.firstUnit % 2 == 0 && r.slots % 2 == 0 &&
  (List.range (r.replicas * r.span)).all (fun j => r.unitSteps.all (fun x =>
    let u := 9 * (r.slot / 9 + j) + r.firstUnit + x
    decide (m.units.find? u = m.units.find? (u + 1))))

/-- A placement row (R22, R31, R237). `dies` lists the dies the tenant may use. -/
def rowOk (m : ModelSet) (dies : List Nat) (r : PlaceRow) : Bool :=
  let k := r.span
  let d := if r.engine = 1 then r.slot / 9 else r.slot / 66
  let d0 := if r.engine = 2 then d - d % k else d
  (k == 1 || k == 2 || k == 4 || k == 8) && decide (r.engine ≤ 2) && d0 % k == 0 && decide (1 ≤ r.replicas) &&
  decide (d0 + r.replicas * k ≤ 8) && decide (r.first ≤ r.last) &&
  (List.range (r.replicas * k)).all (fun j => decide (d0 + j ∈ dies)) &&
  (if r.isTable then r.engine == 1 && (m.ruleTable r.index).isSome && k == 1 && decide (r.slots ≤ 8) && tableRowOk m r
   else (m.ensemble r.index).isSome) &&
  (if r.engine = 1 then decide (r.firstUnit + r.slots ≤ 8) && (!r.paired || pairsOk m r) && (r.isTable || runsCover r (rowUnitRuns m r))
   else decide (r.firstSlot + r.slots ≤ 66)) &&
  (r.engine != 0 || runsCover r (rowRuns m r)) &&
  (r.engine != 2 || r.spillSlots.all (fun x => (List.range (m.replicas r.index)).any (fun rep => (m.replicaSlots r.index rep).contains x)))

/-- Every tree of an ensemble is held once per replica, no slot or unit holds two of its runs, and all its rows agree on span and replicas (R237). -/
def ensemblePlaced (m : ModelSet) (e : Ensemble) : Bool :=
  let mine := m.rows.filter (fun r => !r.isTable && r.index == e.index)
  let rows := mine.filter (fun r => decide (r.engine ≤ 1))
  let reps := List.range (nth rows 0 {}).replicas
  !rows.isEmpty && mine.all (fun r => r.span == (nth rows 0 {}).span && r.replicas == (nth rows 0 {}).replicas) &&
  decide (reps.flatMap (m.replicaSlots e.index)).Nodup && decide (reps.flatMap (m.replicaUnits e.index)).Nodup &&
  (rows.map (fun r => r.last + 1 - r.first)).sum == e.trees && rows.all (fun r => decide (r.last < e.trees)) &&
  (rows.zipIdx).all (fun r => (rows.take r.2).all (fun q => decide (q.last < r.1.first) || decide (r.1.last < q.first)))

/-- A match-unit row names trees without oblique nodes and linear leaves (R261). -/
def unitTreesOk (m : ModelSet) (r : PlaceRow) : Bool :=
  r.engine != 1 || r.isTable ||
  (match m.ensemble r.index with
   | none => false
   | some e => ((e.table.drop r.first).take (r.last + 1 - r.first)).all (fun t =>
       ((e.nodes.drop t.root).take (treeWords e t)).all (fun w => nKind w != 2 && nKind w != 5)))

/-- The Spillway rows that name a slot together name exactly the spilled trees of its runs (R237). -/
def spillRowsOk (m : ModelSet) : Bool :=
  m.slots.all (fun s =>
    (SMap.getD (fun _ => []) m.runs s.1).all (fun r =>
      let t0 := m.runTree s.1 r.ens
      let spilled := ((List.range r.count).filter (fun i => (dirEntry s.2 (r.first + i)).spill)).map (t0 + ·)
      let named := m.rows.filter (fun q => q.engine == 2 && q.spillSlots.contains s.1 && q.index == r.ens)
      spilled.all (fun t => named.any (fun q => decide (q.first ≤ t) && decide (t ≤ q.last))) &&
      (named.map (fun q => q.last + 1 - q.first)).sum == spilled.length)) &&
  (m.rows.filter (fun q => q.engine == 2)).all (fun q => q.spillSlots.all (fun x => (m.runAt x q.index).isSome))

/-- An optional ensemble shares no slot and no match unit with a mandatory one (R137). -/
def optionalApart (m : ModelSet) : Bool :=
  let optional := fun (k : Nat) => match m.ensemble k with | some e => e.isOptional | none => false
  let apart := fun (l : List Nat) => !(l.any optional && l.any (fun k => !optional k))
  m.runs.all (fun r => apart ((r.2.filter (fun (x : SlotRun) => decide (0 < x.count))).map SlotRun.ens)) &&
  m.units.all (fun u => apart ((u.2.selectors.filter (fun (s : SelEntry) => s.kind == 0)).map SelEntry.index))

/-- Part 11: the placement image (R137, R237, R238, R272, R281). DESIGN CHOICE (log 104): R55 orders by part, index, tree and word and does not say what the
index of the one placement image is; rows, ensembles, slots and units are checked in that order of kinds, and INDEX is the row's number, the ensemble, or the
slot or unit mod 256. -/
def placementFail (m : ModelSet) (dies : List Nat) : FormatFail :=
  firstFail ((m.rows.zipIdx).map (fun r => need (rowOk m dies r.1 && unitTreesOk m r.1) 10 (r.2 % 256) 0) ++
    m.ensembles.map (fun e => need (ensemblePlaced m e) 10 e.index 0) ++ [need (optionalApart m) 10 0 0] ++
    m.slots.map (fun s => slotFail m s.1 s.2) ++ m.units.map (fun u => unitFail m u.1 u.2) ++
    [need (spillRowsOk m) 10 0 0] ++ m.slots.map (fun s => slotBoundsFail m s.1 s.2) ++ m.units.map (fun u => unitBoundsFail m u.1 u.2))

/-- The stored elements of an FP32 ensemble: leaf elements of its trees and its bias (R283). -/
def fpElements (e : Ensemble) : List Nat :=
  (e.table.flatMap (fun t => (treeLeaves e.nodes 65537 t.root).flatMap (fun a =>
    let w := nth e.nodes a 0
    match nKind w with
    | 3 => [storedF32 (nVal w)]
    | 4 => (List.range (bits w.toNat 52 48)).map (fun i => storedF32 (vecElem e.tables (bits w.toNat 34 16) i))
    | _ => [storedF32 (bits (nth e.tables (bits w.toNat 34 16) 0).toNat 31 0)]))) ++ e.bias.map storedF32

/-- R283: no stored element converts to 2^62 or more. -/
def fxRangeFail (e : Ensemble) : FormatFail :=
  need (e.leafType == 0 || (fpElements e).all (fun v => decide ((fxConvert e.scale v).1.natAbs < 2 ^ 62))) 2 e.index 0

/-- The stored elements whose conversion is inexact (R283). -/
def fxInexact (e : Ensemble) : Nat :=
  if e.leafType = 0 then 0 else ((fpElements e).filter (fun v => !(fxConvert e.scale v).2)).length

/-- The format class of R55: each part's SET_ID and SET_VERSION before what it holds, in the order of Table 2.1. -/
def formatFail (m : ModelSet) (dies : List Nat) : FormatFail :=
  let ids := fun (p : Nat) => need (!m.badParts.contains p) p 0 0
  firstFail ([ids 0, need (m.grade == 1 || m.grade == 2) 0 0 0, ids 1, featuresFail m, ids 2] ++
    m.ensembles.map (fun e => firstFail [ensembleFail m e, fxRangeFail e]) ++ ids 3 :: m.cascades.map (cascadeFail m) ++
    ids 4 :: m.tables.map tableFail ++ ids 5 :: m.featProgs.map (progFail m 1 5) ++ ids 6 :: m.finProgs.map (progFail m 2 6) ++
    ids 7 :: m.policies.map (fun p => need (policyOk m.dests p) 7 p.index 0) ++
    [match (m.dests.filter (fun d => d.2.reserved ≠ 0)).head? with
     | some d => some (7, 0, d.1)
     | none => none, ids 8, schemaFail m, ids 9] ++
    m.pipelines.map (fun p => need (pipelineOk m p) 9 p.pipe 0) ++ [ids 10, placementFail m dies])

/-- What a load is checked against. -/
structure LoadEnv where
  gradeB : Bool := false
  tenancy : Bool := false
  dies : List Nat := List.range 8
  drain : Bool := false
  spillMax : Nat := 8
  spillArea : Nat := 0
  eddyRegion : Nat := 0
  active : Option ModelSet := none
  activeFull : Bool := false
  hosted : Bool := false
  usedFields : List (Nat × FieldDesc) := []
deriving DecidableEq, Repr

/-- The limits class of R54 and R55: the first limit exceeded, as (row, part, index). -/
def limitFail (m : ModelSet) (env : LoadEnv) : Option (Nat × Nat × Nat) :=
  let lim := fun (bad : Bool) (row part index : Nat) => if bad then some (row, part, index) else none
  let q := fun (n : Nat) => if env.tenancy then n / 4 else n
  let code := ((m.featProgs ++ m.finProgs).map progBytes).sum
  firstFail ([lim (decide (4096 < m.features)) 6 1 0, lim (decide (64 < m.ensembles.length)) 1 2 0] ++
    m.ensembles.flatMap (fun e => [lim (decide (262144 < e.trees)) 2 2 e.index, lim (decide (64 < e.outputs)) 5 2 e.index,
      lim (decide (24 < e.maxDepth)) 3 2 e.index] ++
      e.table.flatMap (fun t => [lim (decide (24 < t.depth)) 3 2 e.index, lim (decide (65536 < treeWords e t)) 4 2 e.index])) ++
    [lim (decide (q 32 < m.cascades.length)) 11 3 0] ++
    m.cascades.map (fun c => lim (decide (8 < c.nstages)) 11 3 c.index) ++
    [lim (decide (16 < m.tables.length)) 12 4 0, lim (decide (64 < m.featProgs.length)) 16 5 0, lim (decide (q 32768 < code)) 17 5 0] ++
    m.featProgs.map (fun p => lim (decide (16384 < p.cost)) 23 5 p.index) ++
    lim (decide (64 < m.finProgs.length)) 16 6 0 :: m.finProgs.map (fun p => lim (decide (16384 < p.cost)) 23 6 p.index) ++
    [lim (decide (16 < m.policies.length)) 18 7 0, lim (decide (256 < m.pipelines.length)) 14 9 0] ++
    m.slots.map (fun s => lim (decide (4096 < (slotHead s.2).catSets)) 10 10 (s.1 % 256)))

/-- R56, R186: a hot swap keeps the key classes and the fields of the active schema, and adds fields only in slot bytes that neither the active
schema nor, since the last drain swap, an earlier one uses (`used`, by class). -/
def schemaConflict (new : Option Schema) (old : Option ModelSet) (used : List (Nat × FieldDesc)) : Bool :=
  match old with
  | none => false
  | some o =>
    let oc := (o.schema.map Schema.classes).getD []
    let nc := (new.map Schema.classes).getD []
    let apart := fun (f g : FieldDesc) => decide (f.offset + fieldSize f.op f.type f.param ≤ g.offset) ||
      decide (g.offset + fieldSize g.op g.type g.param ≤ f.offset)
    !(decide (oc.length = nc.length) && oc.all (fun c =>
      match nc.find? (fun d => d.cls = c.cls) with
      | none => false
      | some d => d.slot == c.slot && d.mode == c.mode && d.bucketsLog2 == c.bucketsLog2 &&
          (d.fields.zipIdx).all (fun f =>
            match c.fields[f.2]? with
            | some g => decide (f.1 = g)
            | none => (c.fields ++ (used.filter (fun u => u.1 == c.cls)).map Prod.snd).all (apart f.1))))

/-- Active slots of a die by grade, words of a region, and the words of the share (R223, R244). -/
def gradeSlots (gradeB : Bool) : Nat := if gradeB then 56 else 64
def shareWords (env : LoadEnv) (full : Bool) : Nat :=
  env.dies.length * gradeSlots env.gradeB * (if full then 393216 else 196608)

/-- A set compiled for AX7-A on AX7-B serves slots 56 to 63 as spilled trees (R239). -/
def moved (m : ModelSet) (env : LoadEnv) (slot : Nat) : Bool :=
  env.gradeB && m.grade == 1 && decide (56 ≤ slot % 66) && decide (slot % 66 < 64)

/-- The words of the spilled trees of a set, moved slots included (R239, R244), and the words they take in blocks. -/
def spilledOf (m : ModelSet) (env : LoadEnv) (blocks : Bool) : Nat :=
  (m.slots.map (fun s =>
    ((SMap.getD (fun _ => []) m.runs s.1).map (fun r =>
      match m.ensemble r.ens with
      | none => 0
      | some e => ((List.range r.count).map (fun i =>
          let d := dirEntry s.2 (r.first + i)
          let n := entryWords m s.2 e d
          if d.spill || moved m env s.1 then (if blocks then 32 * ceilDiv n 32 else n) else 0)).sum)).sum)).sum
def spillWords (m : ModelSet) (env : LoadEnv) : Nat := spilledOf m env false

/-- The words of the set's Spillway area: those of its image, and the blocks the device adds for moved slots (R239, R244). -/
def spillArea (m : ModelSet) (env : LoadEnv) : Nat :=
  m.spill.length + spilledOf { m with slots := m.slots.filter (fun s => moved m env s.1) } env true

/-- The image words the serving slot s − 8 needs for the extension of slot s (R239). -/
def extensionWords (m : ModelSet) (slot : Nat) : Nat :=
  let img := m.imageAt slot
  let moved := SMap.getD (fun _ => []) m.slots (slot + 8)
  img.length + (if (slotHead img).winBase = 0x7FFFF then 4096 else 0) + (slotHead moved).trees

/-- Every tree of a moved slot meets the rules for spilled trees (R239). -/
def movedSpills (m : ModelSet) (slot : Nat) (img : List DWord) : Bool :=
  (SMap.getD (fun _ => []) m.runs slot).all (fun r =>
    match m.ensemble r.ens with
    | none => false
    | some e => (List.range r.count).all (fun i => entrySpills m img e (dirEntry img (r.first + i))))

/-- Node memory words after replication and match-unit entries of a set (Table 2.10, rows 19 to 21). -/
def nodeWordsOf (m : ModelSet) : Nat := (m.slots.map (fun s => s.2.length)).sum
def muEntriesOf (m : ModelSet) : Nat := (m.units.map (fun u => u.2.entries.length)).sum

/-- A unit image fits one half of a unit (`k` 1) or the whole unit (`k` 2) (R254, Table 9.1): entry addresses, table memory, key builder memory. -/
def unitFits (k : Nat) (u : MuImage) : Bool :=
  u.entries.all (fun e => decide (e.1 < k * 4096)) && decide (u.table.length ≤ k * 4096) && decide (u.layouts.length ≤ k * 32) &&
  decide (u.thresholds.length ≤ k * 4096) && decide (u.catSets.length ≤ k * 64) && decide (u.selectors.length ≤ k * 1024)

/-- A set that needs the full layout (R53, R223, R254). -/
def needsFull (m : ModelSet) : Bool :=
  m.layout == 1 || m.slots.any (fun s => decide (196608 < s.2.length)) || m.units.any (fun u => !unitFits 1 u.2) ||
  m.tables.any (fun t => decide (32768 < t.compiled))

/-- The slots that the tile rows and the Spillway rows of a set name (R238). -/
def ModelSet.rowSlots (m : ModelSet) : List Nat :=
  (m.rows.filter (fun r => r.engine == 0 && !r.isTable)).flatMap (fun r => (List.range r.replicas).flatMap (fun rep =>
    (List.range r.span).flatMap (fun j => (List.range r.slots).map (fun s => 66 * r.die rep j + r.firstSlot + s)))) ++
  (m.rows.filter (fun r => r.engine == 2)).flatMap PlaceRow.spillSlots

/-- The capacity class (R55, R238, R239, R244, R53, R164): first what refuses the set in a drain swap as well. `none`: every capacity check
passes. -/
def capacityFail (m : ModelSet) (env : LoadEnv) : Option (Nat × Nat) :=
  let full := needsFull m
  let spill := spillWords m env
  let eddy := match m.schema with
    | none => 0
    | some s => (s.classes.map (fun c => 2 ^ c.bucketsLog2 * (64 + 8 * slotBytes c.slot))).sum
  let overShare := fun (share : Nat) => decide (env.spillMax * share < 64 * spill)
  let first := fun (bad : Nat × List DWord → Bool) => (m.slots.filter bad).head?.map Prod.fst
  let region := if full then 393216 else 196608
  let movedFirst := (m.slots.filter (fun s => moved m env s.1)).head?.map Prod.fst
  let tooLarge : Option Nat :=
    if decide (env.eddyRegion < eddy) then some 0
    else if m.tables.any (fun t => decide (65536 < t.compiled)) then some 0
    else
      let past := fun (x : Nat) => decide (gradeSlots env.gradeB ≤ x % 66) && !moved m env x
      match (first (fun s => decide (393216 < s.2.length) || past s.1)).or (m.rowSlots.find? past) with
      | some s => some s
      | none =>
        match first (fun s => moved m env s.1 && (!movedSpills m s.1 s.2 || decide (region < extensionWords m (s.1 - 8)))) with
        | some s => some s
        | none =>
          if m.units.any (fun u => !unitFits 2 u.2) then some 0
          else if overShare (shareWords env full) || decide (env.spillArea < spillArea m env * 8) then some (movedFirst.getD 0)
          else none
  match tooLarge with
  | some w => some (loTooLarge, w)
  | none =>
    if env.drain then none
    else if full || env.activeFull || env.hosted || decide (shareWords env false < nodeWordsOf m) ||
      decide ((if env.tenancy then 65536 else 262144) < muEntriesOf m) then some (loDrain, 0)
    else if overShare (shareWords env false) then some (loTooLarge, movedFirst.getD 0)
    else none

/-- The load checks of R55: the one outcome of a load. -/
def loadCheck (m : ModelSet) (env : LoadEnv) : LoadResult :=
  match formatFail m env.dies with
  | some (p, i, w) => { outcome := loFormat, part := p, index := i, word := w }
  | none =>
    match limitFail m env with
    | some (r, p, i) => { outcome := loLimit, row := r, part := p, index := i }
    | none =>
      if !env.drain && schemaConflict m.schema env.active env.usedFields then { outcome := loSchema, part := 8 }
      else
        match capacityFail m env with
        | some (o, w) => { outcome := o, part := 10, word := w }
        | none => { outcome := if spillWords m env = 0 then loLoaded else loSpilled }

/-- An outcome that leaves a set placed (Table 2.11). -/
def LoadResult.placed (r : LoadResult) : Bool := decide (r.outcome ≤ 1)

end Sys2Proof.Machine
end

