-- ==== Sys2Proof/Machine/HeadTypes.lean ====
section
/-! DEFINITION. The state of Headwater and of the external memory (chapters 15 and 16). -/

namespace Sys2Proof.Machine

/-- An image directory entry (Table 15.2), with what Headwater's reading of the flash gives: the hash matches. -/
structure ImgSection where
  type : Nat := 0
  tenant : Nat := 0
  offset : Nat := 0
  length : Nat := 0
  hash : Nat := 0
  data : List Byte := []
  reserved : Nat := 0
deriving DecidableEq, Repr

/-- A boot image as it stands in flash (R407): header fields, directory, signatures. -/
structure BootImage where
  magic : Nat := 0
  version : Nat := 0
  slot : Nat := 0
  nsect : Nat := 0
  imageVersion : Nat := 0
  imageLen : Nat := 0
  keyId : Nat := 0
  sigOff : Nat := 0
  reserved : Nat := 0
  sections : List ImgSection := []
  signed : List Byte := []
  sigs : List Byte := []
deriving DecidableEq, Repr

/-- A signed command (Table 15.4). `body` is its argument bytes; `signed` the bytes the signatures cover. -/
structure SignedCmd where
  cmd : Nat := 0
  sigAlg : Nat := 3
  tenant : Nat := 0
  group : Nat := 0xFFFF
  counter : Nat := 0
  keyId : Nat := 0
  targetEn : Nat := 0
  body : List Byte := []
  signed : List Byte := []
  sigs : List Byte := []
  reserved : Nat := 0
  fits : Bool := true
deriving DecidableEq, Repr

/-- An open command (R412): the record port it arrives on, its tag, the records of its segments, the tick of its first segment. -/
structure OpenCmd where
  tenant : Nat := 0
  port : Nat := 0
  tag : Nat := 0
  segs : Nat := 1
  held : SMap Rec := []
  first : Nat := 0
deriving DecidableEq, Repr

/-- A command that has been accepted for running (R412, R413), with the record that its ACK answers (a multicast copy, queue 64, sends no ACK, R413); a signed command of the management path has a
binding instead (R532). `segs` are the records of its segments. -/
structure HwCmd where
  origin : Option Rec := none
  binding : Option Nat := none
  cmd : SignedCmd := {}
  segs : List Rec := []
deriving DecidableEq, Repr

/-- An open transfer of a tenant (R415): its chunks, the tick of the last, and the multicast transfer that passes it on. -/
structure Transfer where
  id : Nat := 0
  chunks : Nat := 0
  held : SMap (List Byte) := []
  last : Nat := 0
  group : Nat := 0xFFFF
  mcast : Nat := 0
deriving DecidableEq, Repr

/-- A bundle as Headwater reads it from its bytes (R416): header, part entries and their bytes, signatures. -/
structure Bundle where
  magic : Nat := 0
  version : Nat := 0
  layout : Nat := 0
  setId : Nat := 0
  setVersion : Nat := 0
  grade : Nat := 0
  keyId : Nat := 0
  len : Nat := 0
  digest : Nat := 0
  reserved : Nat := 0
  parts : List ImgSection := []
  signed : List Byte := []
  sigs : List Byte := []
  length : Nat := 0
deriving DecidableEq, Repr

/-- A journal entry (R428): kind 5 RULE_EDIT or 6 CAP_COMMIT, its body, its target epoch, applied or not. -/
structure JournalEnt where
  kind : Nat := 5
  body : List Byte := []
  target : Nat := 0
  applied : Bool := false
deriving DecidableEq, Repr

/-- A bundle slot (R414): the bytes of its bundle, whether it is complete and checked, whether a sector of it failed
its check, and the journal. -/
structure BundleSlot where
  bytes : List Byte := []
  complete : Bool := false
  checked : Bool := false
  failed : Bool := false
  journal : List JournalEnt := []
deriving DecidableEq, Repr

/-- A commit record (Table 15.11), without its CRC, which the bytes at HW_COMMITn carry. -/
structure CommitRec where
  seq : Nat := 0
  flags : Nat := 0
  activeSlot : Nat := 0
  activeSetId : Nat := 0
  activeVersion : Nat := 0
  activeDigest : Nat := 0
  freeSetId : Nat := 0
  freeVersion : Nat := 0
  targetEn : Nat := 0
  resumeEn : Nat := 0
  editCount : Nat := 0
  commitCount : Nat := 0
  journalLen : Nat := 0
  valid : Bool := false
deriving DecidableEq, Repr

/-- A rule edit or a capacity commit of a set (R269, R319): kind, the epoch its records' stamps are compared with, the device's own epoch it
takes effect at (`due` differs from `target` in a replay session, R346), body, done. -/
structure SetChange where
  kind : Nat := 5
  table : Nat := 0
  target : Nat := 0
  due : Nat := 0
  count : Nat := 0
  body : List Byte := []
  entries : List EditEntry := []
  caps : List (Nat × Nat) := []
  done : Bool := false
deriving DecidableEq, Repr

/-- A set in a half (R30, R223): the set as loaded, the half it occupies, its layout, its bundle slot, its load outcome, and its
changes in service. `leaves` holds the leaf map of each slot's image as the word addresses of its set bits (R226); `units` are its
match-unit images as edited. -/
structure SetInst where
  set : ModelSet := {}
  leaves : SMap (List Nat) := []
  half : Nat := 0
  full : Bool := false
  outcome : Nat := 0
  units : SMap MuImage := []
  editCounts : SMap Nat := []
  changes : List SetChange := []
  rate : RateEnv := {}
deriving DecidableEq, Repr

/-- A launch that waits for its target (R120): kind, the device's own epoch it takes effect at, the epoch it names (R346), whether it was
missed (R122), what it names. -/
structure Launch where
  kind : Nat := 1
  tenant : Nat := 0
  target : Nat := 0
  named : Nat := 0
  missed : Bool := false
  setId : Nat := 0
  version : Nat := 0
  digest : Nat := 0
  resumeEn : Nat := 0
  body : List Byte := []
deriving DecidableEq, Repr

/-- What Headwater holds for one tenant. `slots` are the bundle slots, `activeSlot` the one whose set is active (R414). `active` serves records of
`switchEpoch` on, `old` those before it until they drain (`switchDue` is the device's own epoch of the switch); `shadow` is a set placed and not
active; `loadState` is the state of a load (0 idle, 1 receiving, 2 checking, 3 placing).
`halves` is what was last loaded into each half and `lastHalf` the half of the last load, which registers go on showing (Table 17.8).
`xferNo` is the number of the last complete transfer; `drainOld` the old set while a drain swap places the new one.
`usedFields` are the fields, by class, that hot swaps since the last drain swap dropped (R186).
`stale` lists the spans of epochs whose replies carry STALE, the last one open-ended while SWAP_MISSED is held. -/
structure HwTenant where
  xfer : Option Transfer := none
  slots : List BundleSlot := [{}, {}]
  activeSlot : Nat := 0
  active : Option SetInst := none
  old : Option SetInst := none
  switchEpoch : Nat := 0
  switchDue : Nat := 0
  xferNo : Nat := 0
  drainOld : Option SetInst := none
  drainPlaced : Bool := false
  shadow : Option SetInst := none
  loadState : Nat := 0
  result : LoadResult := { outcome := 0xFF }
  rejected : Bool := false
  commit0 : CommitRec := {}
  commit1 : CommitRec := {}
  drainSwap : Option Launch := none
  placing : Bool := false
  stale : List (Nat × Option Nat) := []
  missed : Bool := false
  halves : List (Option ModelSet) := [none, none]
  lastHalf : Nat := 0
  usedFields : List (Nat × FieldDesc) := []
deriving DecidableEq, Repr

/-- Headwater (chapter 15). `flash` holds the bytes of flash devices A and B below the state area; `chosen` says that the image choice has been made
since the last cold reset (R409). `records` are the MODEL and CONTROL records that wait to be
taken; `cmds` the accepted commands that wait for their rows; `launches` the launches that wait for their targets. -/
structure HeadSt where
  step : Nat := 1
  bootedB : Bool := false
  fallback : Bool := false
  dead : Bool := false
  flash : List (List Byte) := [[], []]
  chosen : Bool := false
  records : List Rec := []
  opens : List OpenCmd := []
  cmds : List HwCmd := []
  launches : List Launch := []
  tenants : List HwTenant := [{}, {}, {}, {}]
deriving DecidableEq, Repr

/-- A fill of memory with encrypted zeros (R449, R450): the tenancy setting and the Eddy shares that divided memory then, the owners'
generation-0 keys by number, and the one tenant that a scrub covered. -/
structure Fill where
  tenancy : Bool := false
  shares : List Nat := [84, 0, 0, 0]
  keys : List Nat := []
  only : Option Nat := none
deriving DecidableEq, Repr

/-- What a stack reports of a row since the last poll (R434): corrected errors, and the reads that met an uncorrectable one, each as
(reader, hub die, device address, the reader's stream or core). -/
structure RowReport where
  row : Nat := 0
  corrected : Nat := 0
  reads : List (Nat × Nat × Nat × Nat) := []
deriving DecidableEq, Repr

/-- A key rotation of an owner (R446): the new generation, per stack the next page to sweep, the pages swept, paused by a scrub; `at_` is the pointer
within each page in sweep, the first sector not yet re-encrypted. -/
structure Rotation where
  owner : Nat := 0
  gen : Nat := 0
  next : List Nat := List.replicate 12 0
  done : Nat := 0
  at_ : SMap Nat := []
  paused : Bool := false
deriving DecidableEq, Repr

/-- A stack (Table 16.9). -/
structure StackSt where
  state : Nat := 1
  unmirrored : Bool := false
  spareOut : Bool := false
  sppr : Nat := 0
  temp : Nat := 0
  hot : Bool := false
  softRows : List Nat := []
  failEpoch : Option Nat := none
deriving DecidableEq, Repr

/-- The memory subsystem (chapter 16). A copy of a byte is named stack · 2^37 + stack offset, a copy of a sector by its first byte's name / 512,
a page by stack · 2^17 + stack page. `data` is the plaintext that each copy was last written from; `fills` the fills, newest first, that give a
sector copy not in `seals` the key it is sealed under; `seals` the key numbers of the others; `sweeps` the re-encryptions of a page since,
as (old key, new key); `failed` the sector copies that were found changed. `pageGen` lists the pages whose generation bit is 1; `keys` gives each
owner's key numbers by generation (0 is no key); `curGen` the owners' current generations; `scrubs` the tenants being scrubbed or waiting
for it, in order; `rowErrs` the corrected errors of a row (stack · 2^60 + row), and its others, since its window opened; `due` the rows to repair, by stack. `delivered` lists what reads gave: reader, address, outcome (0 data, 1 failed, 2 refused), data. -/
structure MemSt where
  data : List Host.Cell := []
  fills : List Fill := []
  seals : SMap Nat := []
  sweeps : SMap (List (Nat × Nat)) := []
  failed : List Nat := []
  pageGen : SMap Bool := []
  keys : List (Nat × Nat) := [(0, 0), (0, 0), (0, 0), (0, 0), (0, 0)]
  curGen : List Nat := [0, 0, 0, 0, 0]
  keyNo : Nat := 0
  erased : Bool := false
  restarted : Bool := false
  scrubs : List Nat := []
  rotation : Option Rotation := none
  stk : List StackSt := List.replicate 12 {}
  rowErrs : SMap (Nat × Nat × Nat) := []
  due : List (Nat × Nat) := []
  delivered : List (Nat × Nat × Nat × List Byte) := []
deriving DecidableEq, Repr

/-- What a boot step brings from outside as it completes (Table 15.3): the number of the self-test that failed, the copies of the state area that no
longer authenticate (R465), the units whose self-test failed, the reference inputs that are good (bit 0 main, bit 1 redundant), and whether the step's
wait was met. -/
structure BootIn where
  testFail : Option Nat := none
  areaBad : List Nat := []
  failed : List Nat := []
  refs : Nat := 3
  ok : Bool := true
deriving DecidableEq, Repr

end Sys2Proof.Machine
end

