-- ==== Sys2Proof/Machine/PowerTypes.lean ====
section
/-! DEFINITION. The state of power, clocks and temperature (chapter 19), of the management path (chapter 20) and of the pins and
the test logic (chapter 22). -/

namespace Sys2Proof.Machine

/-- A supply domain (R504 to R511): the setpoint code, the two thresholds in mV, the tick of a rise that is settling, the last current
read in A, the warning stretch with the tick of its last crossing, the timing-emergency stretch with its tick, the last adaptive step, and the setpoint
that waits to be commanded. -/
structure SupplySt where
  setpoint : Nat := 50
  vwarn : Nat := 705
  vrst : Nat := 660
  raisedAt : Option Nat := none
  imeas : Nat := 0
  warn : Bool := false
  crossAt : Nat := 0
  timing : Bool := false
  timingAt : Nat := 0
  lastStep : Option Nat := none
  goal : Option Nat := none
deriving DecidableEq, Repr

/-- A die's junction stage and temperature (R517): 0 normal, 1 throttle, 2 limit; its tile clock (R515), the tick of its last adaptive
step, whether the Throttle stage lowered its clock, the fraction of its island's next clock edge in thousandths, the edges since the last that a stretch
let through, and the cycles that the island has run. -/
structure DieHeat where
  stage : Nat := 0
  temp : Int := 0
  mhz : Nat := 1600
  lastClk : Option Nat := none
  lowered : Bool := false
  edges : Nat := 0
  skipped : Nat := 0
  run : Nat := 0
deriving DecidableEq, Repr

/-- The reference clock selection (R514): the inputs as last seen, the tick the main input was last lost, the tick both were. -/
structure RefSt where
  red : Bool := false
  mainOk : Bool := false
  redOk : Bool := false
  mainLost : Nat := 0
  lostAt : Option Nat := none
deriving DecidableEq, Repr

/-- Power, clocks and temperature (chapter 19). `supply` and `dies` are VC0 to VC9: SD0 to SD7, HD0, HD1. `trip` is the unit and the
temperature of a trip not yet restored; `held` the register writes that wait for a stretch to end, as (domain, or 10 for PWR_CLK_CFG, value);
`boot9` the events to raise at boot step 9, as (code, unit, detail); `bootFail` one more than the domain that stopped boot step 1. -/
structure PowerSt where
  supply : List SupplySt := List.replicate 10 {}
  dies : List DieHeat := List.replicate 10 {}
  ref : RefSt := {}
  trip : Option (Nat × Int) := none
  resetCause : Nat := 1
  causeDomain : Nat := 0
  causeUnit : Nat := 0
  pAvg : Nat := 0
  pMand : Nat := 0
  thermalCap : Bool := false
  held : List (Nat × Nat) := []
  boot9 : List (Nat × Nat × Nat) := []
  bootFail : Nat := 0
deriving DecidableEq, Repr

/-- A firmware update (R537, R538): the PLDM state (0 idle, 1 learn components, 2 ready, 3 download, 4 verify, 5 apply, 6 activate) and the one
before; its binding; the component's size; the bytes written; verified and applied; a verified image waits for a cold reset. -/
structure FwupSt where
  state : Nat := 0
  prev : Nat := 0
  binding : Nat := 0
  size : Nat := 0
  offset : Nat := 0
  verified : Bool := false
  applied : Bool := false
  pending : Bool := false
deriving DecidableEq, Repr

/-- The management path (chapter 20). `queue` holds the requests in service, as (binding, message), in order of arrival; `asm_` the messages
being assembled, by binding, source and tag, each after the next packet's sequence number; `gauge` the last samples of each die's diodes, `none` for a failed one; `latch` the words held by a read of word 0, by path
and register; `refused` the register writes refused, as (path, address, result code, DETAIL); `out` the messages sent, as (binding, message). -/
structure MgmtSt where
  eid : Nat := 0
  i3cAddr : Nat := 0
  i3cDyn : Bool := false
  link : Bool := false
  queue : List (Nat × List Byte) := []
  asm_ : SMap (Nat × List Byte) := []
  fwup : FwupSt := {}
  gauge : SMap (List (Option Int)) := []
  latch : SMap (List Nat) := []
  refused : List (Nat × Nat × Nat × Nat) := []
  out : List (Nat × List Byte) := []
deriving DecidableEq, Repr

/-- Pins and test logic (chapter 22). `straps` are those sampled; `pinStraps` the levels at the pins (arrangement of each hub die,
image preference, and the board's port number straps). `ir` is the JTAG instruction in force. -/
structure PinSt where
  coldN : Bool := true
  warmN : Bool := true
  auxPg : Bool := true
  coreEn : Bool := true
  thermTripN : Bool := true
  trstN : Bool := true
  pinStraps : List Nat := [0, 0, 0]
  straps : List Nat := [0, 0, 0]
  ir : Nat := 0
  held : Bool := false
  warmHeld : Bool := false
deriving DecidableEq, Repr

end Sys2Proof.Machine
end

