-- ==== Sys2Proof/Syntax.lean ====
section
/-! DEFINITION. The commands of the block: one constructor for each row of spec/opcode_table.json, in the table's order, with the
operands that the row's input carries. Each docstring gives the row's rule. -/

namespace Sys2Proof

open Sys2Proof.Machine

/-- A command: an operation or event of the table. -/
inductive Instr where
  /-- `FRAME_RECEIVED` (R23). -/
  | frameReceived (port sub : Nat) (f : RxFrame)
  /-- `LOSSLESS_FRAME_PARSE` (R131). -/
  | losslessFrameParse (port sub : Nat) (classB : Bool)
  /-- `PFC_FRAME_RECEIVED` (R67). -/
  | pfcFrameReceived (port sub : Nat) (enable : BitVec 8) (quanta : PfcQuanta)
  /-- `CONTROL_PROTOCOL_FRAME` (R61). -/
  | controlProtocolFrame (port sub : Nat) (c : CtrlFrame)
  /-- `PTP_MESSAGE` (R104). -/
  | ptpMessage (port : Nat) (m : PtpMsg)
  /-- `RECORD_PORT_UP` (R62). -/
  | recordPortUp (port sub : Nat)
  /-- `RECORD_PORT_DOWN` (R62). -/
  | recordPortDown (port sub : Nat)
  /-- `MACSEC_KEY_CHANGE` (R64). -/
  | macsecKeyChange (port sub : Nat)
  /-- `SESSION_IDLE_EXPIRY` (R77). -/
  | sessionIdleExpiry (hub : Nat) (key : SessionKey)
  /-- `REPLY_COALESCE_EXPIRY` (R82). -/
  | replyCoalesceExpiry (port sub : Nat) (dest : Dest)
  /-- `LOCKSTEP_RELEASE_TICK` (R123). -/
  | lockstepReleaseTick
  /-- `EPOCH_START` (R112). -/
  | epochStart
  /-- `EPOCH_NO_LONGER_LIVE` (R114). -/
  | epochNoLongerLive (epoch : Nat)
  /-- `TIME_WORD_SEND` (R396). -/
  | timeWordSend (port : Nat)
  /-- `TIME_WORD_RECEIVED` (R99). -/
  | timeWordReceived (port : Nat) (w : TimeWord)
  /-- `HOLDOVER_ENTRY` (R99). -/
  | holdoverEntry
  /-- `HOLDOVER_EXPIRY` (R100). -/
  | holdoverExpiry
  /-- `ROOT_SWITCH` (R101). -/
  | rootSwitch
  /-- `ROOT_BT_START` (R102). -/
  | rootBtStart
  /-- `ADMISSION_HEAD_ADMIT` (R132). -/
  | admissionHeadAdmit (queue : Nat)
  /-- `ADMISSION_DEADLINE_EXPIRY` (R133). -/
  | admissionDeadlineExpiry (queue : Nat)
  /-- `STREAM_ELEMENT_ISSUE` (R142). -/
  | streamElementIssue (hub stream : Nat) (pick : Nat)
  /-- `FETCH_READ_COMPLETE` (R141). -/
  | fetchReadComplete (hub engine : Nat) (addr : Nat) (ok : Bool)
  /-- `STREAM_COUNT_END` (R143). -/
  | streamCountEnd (hub stream : Nat)
  /-- `FETCH_REARM` (R144). -/
  | fetchRearm (hub : Nat) (stream base count : Nat)
  /-- `STAGE_BUFFER_ISSUE` (R148). -/
  | stageBufferIssue (hub rec : Nat)
  /-- `ABORT_COMPLETE` (R153). -/
  | abortComplete (hub stream : Nat)
  /-- `DRAIN_DONE` (R155). -/
  | drainDone (tenant : Nat)
  /-- `DRAIN_TIMEOUT` (R156). -/
  | drainTimeout (tenant : Nat)
  /-- `BW_DEADLOCK` (R372). -/
  | bwDeadlock (hub group : Nat)
  /-- `EDDY_REQ` (R173). -/
  | eddyReq (port : Option Nat) (q : EddyReq)
  /-- `EDDY_FENCE_RELEASE` (R117). -/
  | eddyFenceRelease (hub : Nat)
  /-- `EDDY_SNAP` (R177). -/
  | eddySnap (port : Option Nat) (b : SnapBody)
  /-- `SNAPSHOT_WAIT_EXPIRY` (R178). -/
  | snapshotWaitExpiry (hub ent : Nat)
  /-- `EXPORT` (R188). -/
  | exportStore
  /-- `EDDY_EXPORT_DONE` (R188). -/
  | eddyExportDone (tenant : Nat)
  /-- `IMPORT_BEGIN` (R190). -/
  | importBegin
  /-- `IMPORT_CHUNK` (R190). -/
  | importChunk
  /-- `VE_BATCH_WAIT_EXPIRY` (R196). -/
  | veBatchWaitExpiry (hub batch : Nat)
  /-- `VE_BATCH_LAUNCH` (R196). -/
  | veBatchLaunch (hub engine batch : Nat)
  /-- `VE_BATCH_COMPLETE` (R210). -/
  | veBatchComplete (hub engine : Nat)
  /-- `VE_SPARE_IN` (R219). -/
  | veSpareIn (hub engine : Nat)
  /-- `NOP` (R206). -/
  | veNop (hub engine : Nat)
  /-- `LOOP` (R209). -/
  | veLoop (hub engine : Nat)
  /-- `ENDL` (R209). -/
  | veEndl (hub engine : Nat)
  /-- `ADD` (R206). -/
  | veAdd (hub engine : Nat)
  /-- `SUB` (R206). -/
  | veSub (hub engine : Nat)
  /-- `ADDS` (R206). -/
  | veAdds (hub engine : Nat)
  /-- `SUBS` (R206). -/
  | veSubs (hub engine : Nat)
  /-- `ADDUS` (R206). -/
  | veAddus (hub engine : Nat)
  /-- `SUBUS` (R206). -/
  | veSubus (hub engine : Nat)
  /-- `MUL` (R206). -/
  | veMul (hub engine : Nat)
  /-- `MULHU` (R206). -/
  | veMulhu (hub engine : Nat)
  /-- `MULHS` (R206). -/
  | veMulhs (hub engine : Nat)
  /-- `MINS` (R206). -/
  | veMins (hub engine : Nat)
  /-- `MAXS` (R206). -/
  | veMaxs (hub engine : Nat)
  /-- `MINU` (R206). -/
  | veMinu (hub engine : Nat)
  /-- `MAXU` (R206). -/
  | veMaxu (hub engine : Nat)
  /-- `ABS` (R206). -/
  | veAbs (hub engine : Nat)
  /-- `DIVU` (R206). -/
  | veDivu (hub engine : Nat)
  /-- `DIVS` (R206). -/
  | veDivs (hub engine : Nat)
  /-- `AND` (R206). -/
  | veAnd (hub engine : Nat)
  /-- `OR` (R206). -/
  | veOr (hub engine : Nat)
  /-- `XOR` (R206). -/
  | veXor (hub engine : Nat)
  /-- `ANDN` (R206). -/
  | veAndn (hub engine : Nat)
  /-- `SHL` (R206). -/
  | veShl (hub engine : Nat)
  /-- `SHR` (R206). -/
  | veShr (hub engine : Nat)
  /-- `SAR` (R206). -/
  | veSar (hub engine : Nat)
  /-- `BFX` (R206). -/
  | veBfx (hub engine : Nat)
  /-- `BFI` (R206). -/
  | veBfi (hub engine : Nat)
  /-- `POPC` (R206). -/
  | vePopc (hub engine : Nat)
  /-- `CLZ` (R206). -/
  | veClz (hub engine : Nat)
  /-- `MOVI` (R206). -/
  | veMovi (hub engine : Nat)
  /-- `MOV` (R206). -/
  | veMov (hub engine : Nat)
  /-- `CLRM` (R206). -/
  | veClrm (hub engine : Nat)
  /-- `SETM` (R206). -/
  | veSetm (hub engine : Nat)
  /-- `SEL` (R206). -/
  | veSel (hub engine : Nat)
  /-- `FADD` (R207). -/
  | veFadd (hub engine : Nat)
  /-- `FSUB` (R207). -/
  | veFsub (hub engine : Nat)
  /-- `FMUL` (R207). -/
  | veFmul (hub engine : Nat)
  /-- `FMIN` (R206). -/
  | veFmin (hub engine : Nat)
  /-- `FMAX` (R206). -/
  | veFmax (hub engine : Nat)
  /-- `FABS` (R206). -/
  | veFabs (hub engine : Nat)
  /-- `FNEG` (R206). -/
  | veFneg (hub engine : Nat)
  /-- `FDIV` (R207). -/
  | veFdiv (hub engine : Nat)
  /-- `FSQRT` (R207). -/
  | veFsqrt (hub engine : Nat)
  /-- `FRCP` (R207). -/
  | veFrcp (hub engine : Nat)
  /-- `FEXP2` (R207). -/
  | veFexp2 (hub engine : Nat)
  /-- `FLOG2` (R207). -/
  | veFlog2 (hub engine : Nat)
  /-- `CVTIF` (R206). -/
  | veCvtif (hub engine : Nat)
  /-- `CVTFI` (R206). -/
  | veCvtfi (hub engine : Nat)
  /-- `CMP` (R206). -/
  | veCmp (hub engine : Nat)
  /-- `PLOG` (R206). -/
  | vePlog (hub engine : Nat)
  /-- `PWL` (R212). -/
  | vePwl (hub engine : Nat)
  /-- `BKT` (R213). -/
  | veBkt (hub engine : Nat)
  /-- `LD` (R208). -/
  | veLd (hub engine : Nat)
  /-- `STF` (R203). -/
  | veStf (hub engine : Nat)
  /-- `STF2` (R203). -/
  | veStf2 (hub engine : Nat)
  /-- `MISSF` (R203). -/
  | veMissf (hub engine : Nat)
  /-- `STC` (R203). -/
  | veStc (hub engine : Nat)
  /-- `STR` (R203). -/
  | veStr (hub engine : Nat)
  /-- `RDF` (R206). -/
  | veRdf (hub engine : Nat)
  /-- `EVAL` (R228). -/
  | eval (die unit hub ent : Nat) (opt : Option Nat) (order : List Nat) (upsets : List (Nat × Nat × MuEntry))
  /-- `EVAL_COMPLETE` (R234). -/
  | evalComplete (die unit hub ent : Nat) (opt : Option Nat)
  /-- `PRELOAD` (R288). -/
  | preload (die hub ent : Nat) (opt : Option Nat)
  /-- `DRAIN` (R286). -/
  | drain (die unit hub ent : Nat) (opt : Option Nat)
  /-- `CLEAR` (R287). -/
  | clear (die unit hub ent : Nat) (opt : Option Nat)
  /-- `POOL_UNIT_TAKE` (R235). -/
  | poolUnitTake (die tile owner hub ent : Nat) (opt : Option Nat) (first count : Nat)
  /-- `SPILL_WINDOW_FILLED` (R243). -/
  | spillWindowFilled (die unit idx : Nat)
  /-- `DIE_PARTIAL_RETURN` (R292). -/
  | diePartialReturn (die hub : Nat)
  /-- `RULE_SEARCH` (R264). -/
  | ruleSearch (hub ent slot : Nat) (upsets : List (Nat × Nat × MuEntry))
  /-- `MU_SCRUB_COMPARE` (R271). -/
  | muScrubCompare (die unit : Nat) (upset : Option MuEntry)
  /-- `TILE_SPARE_LOADED` (R248). -/
  | tileSpareLoaded (die tile : Nat)
  /-- `TILE_SLOT_REMAPPED` (R249). -/
  | tileSlotRemapped (die tile : Nat)
  /-- `MU_SPARE_LOADED` (R274). -/
  | muSpareLoaded (die unit : Nat)
  /-- `MU_REMAPPED` (R275). -/
  | muRemapped (die unit : Nat)
  /-- `RULE_EDIT` (R268). -/
  | ruleEdit
  /-- `RULE_EDIT_SETTLE` (R269). -/
  | ruleEditSettle (tenant table : Nat)
  /-- `SETTLEMENT_OPEN` (R310). -/
  | settlementOpen (tenant epoch : Nat)
  /-- `ORDERED_PROCEDURE_END` (R317). -/
  | orderedProcedureEnd (tenant epoch : Nat)
  /-- `LATE_RECORD_SETTLE` (R316). -/
  | lateRecordSettle (tenant epoch : Nat)
  /-- `LATE_CMDLIST_PART` (R322). -/
  | lateCmdlistPart (tenant dest : Nat)
  /-- `SETTLEMENT_CLOSE` (R310). -/
  | settlementClose (tenant epoch : Nat)
  /-- `CAP_COMMIT` (R319). -/
  | capCommit
  /-- `CAPTURE_GAP_ENTRY` (R341). -/
  | captureGapEntry (tenant : Nat)
  /-- `CAPTURE_READ` (R341). -/
  | captureRead
  /-- `REPLAY_START` (R342). -/
  | replayStart
  /-- `REPLAY_HEAD_RELEASE` (R344). -/
  | replayHeadRelease (queue : Nat)
  /-- `REPLAY_END` (R347). -/
  | replayEnd
  /-- `REPLAY_DONE` (R347). -/
  | replayDone (tenant : Nat)
  /-- `SIG` (R357). -/
  | qSig (q id amount flags arg : Nat)
  /-- `WAIT` (R357). -/
  | qWait (q id amount flags arg : Nat)
  /-- `WAIT_GRANT` (R357). -/
  | waitGrant (sem : Nat)
  /-- `DEC` (R358). -/
  | qDec (q id amount flags arg : Nat)
  /-- `SSET` (R359). -/
  | qSset (q id amount flags arg : Nat)
  /-- `BAR` (R361). -/
  | qBar (q id amount flags arg : Nat)
  /-- `BARNW` (R361). -/
  | qBarnw (q id amount flags arg : Nat)
  /-- `BARRIER_RELEASE` (R361). -/
  | barrierRelease (bar : Nat)
  /-- `BARRIER_FULL_RELEASE` (R361). -/
  | barrierFullRelease (bar : Nat)
  /-- `WAITBT` (R356). -/
  | qWaitbt (q id amount flags arg : Nat)
  /-- `WAITBT_REACHED` (R356). -/
  | waitbtReached (q : Nat)
  /-- `REARM` (R356). -/
  | qRearm (q id amount flags arg : Nat)
  /-- `RSIG` (R369). -/
  | qRsig (q id amount flags arg : Nat)
  /-- `SLUICE_SIGNAL` (R368). -/
  | sluiceSignal (port dev flags id value : Nat)
  /-- `SLUICE_ARRIVAL` (R366). -/
  | sluiceArrival (dev bar gen a : Nat)
  /-- `DOMAIN_BARRIER_RELEASE` (R366). -/
  | domainBarrierRelease (k : Nat)
  /-- `SLU_DBAR_STALLED` (R367). -/
  | sluDbarStalled (k : Nat)
  /-- `SEM_COUNT_WRITE` (R359). -/
  | semCountWrite (sem value : Nat)
  /-- `BARRIER_MASK_WRITE` (R364). -/
  | barrierMaskWrite (bar word value : Nat)
  /-- `DBARCFG_WRITE` (R375). -/
  | dbarcfgWrite (k value : Nat)
  /-- `QUEUE_HOLD` (R376). -/
  | queueHold (q : Nat) (on : Bool)
  /-- `QUEUE_RESUME` (R376). -/
  | queueResume (q : Nat)
  /-- `QUEUE_FLUSH` (R374). -/
  | queueFlush (q : Nat)
  /-- `BRAID_BRINGUP_STEP_DONE` (R381). -/
  | braidBringupStepDone (port : Nat)
  /-- `BRAID_BRINGUP_TIMEOUT` (R381). -/
  | braidBringupTimeout (port : Nat)
  /-- `IDENTITY_WORD` (R382). -/
  | identityWord (port : Nat) (w : IdentWord)
  /-- `FLIT_REPLAY` (R383). -/
  | flitReplay (e : FlitError)
  /-- `BRAID_PORT_DOWN` (R383). -/
  | braidPortDown (port cause : Nat)
  /-- `BRAID_RECORD` (R388). -/
  | braidRecord (port : Nat) (m : BrMsg) (ago : Nat)
  /-- `BRAID_REPLY` (R388). -/
  | braidReply (port : Nat) (m : BrMsg)
  /-- `MCAST` (R398). -/
  | mcast (port : Nat) (m : BrMsg)
  /-- `MCAST_CREDIT` (R399). -/
  | mcastCredit (port : Nat) (m : BrMsg)
  /-- `MCAST_CHUNK_SEND` (R399). -/
  | mcastChunkSend (xfer : Nat)
  /-- `MCAST_PRUNE` (R400). -/
  | mcastPrune (xfer hop : Nat)
  /-- `MCAST_OUT_OF_SET` (R400). -/
  | mcastOutOfSet (xfer : Nat)
  /-- `REPAIR_REQ` (R401). -/
  | repairReq (port : Nat) (m : BrMsg)
  /-- `MCAST_REPAIR_SEND` (R401). -/
  | mcastRepairSend (xfer : Nat)
  /-- `MCAST_RETENTION_EXPIRY` (R401). -/
  | mcastRetentionExpiry (xfer : Nat)
  /-- `CMDLIST` (R322). -/
  | cmdlist (port : Nat) (m : BrMsg)
  /-- `ATT_EGRESS_TIMEOUT` (R403). -/
  | attEgressTimeout (port : Nat)
  /-- `BOOT_STEP_COMPLETE` (R411). -/
  | bootStepComplete (b : BootIn)
  /-- `CONTROL_SEGMENT` (R412). -/
  | controlSegment
  /-- `SEGMENT_TIMEOUT` (R412). -/
  | segmentTimeout (tenant port tag : Nat)
  /-- `READ_REG` (R413). -/
  | readReg
  /-- `WRITE_REG` (R548). -/
  | writeReg
  /-- `SWAP` (R421). -/
  | swap
  /-- `DRAIN_SWAP` (R424). -/
  | drainSwap
  /-- `FREEZE` (R135). -/
  | freeze
  /-- `RESUME` (R349). -/
  | resume
  /-- `DISCARD_SHADOW` (R418). -/
  | discardShadow
  /-- `MODEL_CHUNK` (R415). -/
  | modelChunk
  /-- `BUNDLE_IDLE_EXPIRY` (R415). -/
  | bundleIdleExpiry (tenant : Nat)
  /-- `BUNDLE_CHECK_COMPLETE` (R417). -/
  | bundleCheckComplete (tenant : Nat)
  /-- `LOAD_PLACEMENT_COMPLETE` (R422). -/
  | loadPlacementComplete (tenant : Nat)
  /-- `OLD_HALF_RELEASE` (R423). -/
  | oldHalfRelease (tenant : Nat)
  /-- `DRAIN_SWAP_PLACEMENT_COMPLETE` (R424). -/
  | drainSwapPlacementComplete (tenant : Nat)
  /-- `SECTOR_READ` (R440). -/
  | sectorRead (reader hub addr who : Nat) (badOwn badOther : Bool)
  /-- `SECTOR_WRITE` (R441). -/
  | sectorWrite (writer hub addr who : Nat) (data : List (Option Byte))
  /-- `HBM_ERROR_POLL` (R434). -/
  | hbmErrorPoll (stack : Nat) (rows : List RowReport)
  /-- `HBM_RETRAIN` (R434). -/
  | hbmRetrain (stack pc : Nat)
  /-- `ROW_REPAIR` (R454). -/
  | rowRepair (stack row : Nat) (spare : Bool)
  /-- `SWEEP_PAGE_DONE` (R446). -/
  | sweepPageDone (stack page : Nat)
  /-- `MEM_ERASE_DONE` (R449). -/
  | memEraseDone
  /-- `MEM_SCRUB_DONE` (R450). -/
  | memScrubDone (tenant : Nat)
  /-- `SHOW_STATUS` (R468). -/
  | showStatus (binding : Nat)
  /-- `SELF_TEST` (R461). -/
  | selfTest (binding : Nat) (failed : Option Nat)
  /-- `KEM_PUBLIC` (R470). -/
  | kemPublic (binding : Nat)
  /-- `SET_OWNER` (R464). -/
  | setOwner (binding : Nat)
  /-- `ENROL_KEY` (R468). -/
  | enrolKey (binding : Nat)
  /-- `REVOKE_KEY` (R472). -/
  | revokeKey (binding : Nat)
  /-- `RAISE_MIN_VERSION` (R468). -/
  | raiseMinVersion (binding : Nat)
  /-- `SET_SIG_POLICY` (R472). -/
  | setSigPolicy (binding : Nat)
  /-- `SET_TENANCY` (R475). -/
  | setTenancy (binding : Nat)
  /-- `LOAD_MACSEC_CAK` (R470). -/
  | loadMacsecCak (binding : Nat)
  /-- `LOAD_EXPORT_KEY` (R471). -/
  | loadExportKey (binding : Nat)
  /-- `DELETE_EXPORT_KEY` (R471). -/
  | deleteExportKey (binding : Nat)
  /-- `ROTATE_MEM_KEY` (R446). -/
  | rotateMemKey (binding : Nat)
  /-- `RELEASE_TENANT` (R478). -/
  | releaseTenant (binding : Nat)
  /-- `ZEROISE` (R469). -/
  | zeroise (binding : Nat)
  /-- `GET_VERSION` (R473). -/
  | getVersion (binding : Nat)
  /-- `GET_CAPABILITIES` (R473). -/
  | getCapabilities (binding : Nat)
  /-- `NEGOTIATE_ALGORITHMS` (R473). -/
  | negotiateAlgorithms (binding : Nat)
  /-- `GET_DIGESTS` (R473). -/
  | getDigests (binding : Nat)
  /-- `GET_CERTIFICATE` (R473). -/
  | getCertificate (binding : Nat)
  /-- `CHALLENGE` (R473). -/
  | challenge (binding : Nat)
  /-- `GET_MEASUREMENTS` (R474). -/
  | getMeasurements (binding : Nat)
  /-- `CORRECTABLE_ERROR` (R482). -/
  | correctableError (e : CorrError)
  /-- `UNCORRECTABLE_ERROR` (R482). -/
  | uncorrectableError (unit detail : Nat)
  /-- `REL_UNIT_RESET` (R485). -/
  | relUnitReset (unit : Nat) (pass : Bool)
  /-- `UNIT_RETIRE` (R488). -/
  | unitRetire (unit : Nat)
  /-- `UNIT_REINSTATE` (R488). -/
  | unitReinstate (unit : Nat) (pass : Bool)
  /-- `UNIT_RESET` (R488). -/
  | unitReset (unit : Nat)
  /-- `REL_CORE_RESET` (R491). -/
  | relCoreReset (core : Nat)
  /-- `WATCHDOG_EXPIRY` (R493). -/
  | watchdogExpiry
  /-- `AVS_CURRENT_READ` (R505). -/
  | avsCurrentRead (domain cur : Nat)
  /-- `ADAPTIVE_VOLTAGE_STEP` (R507). -/
  | adaptiveVoltageStep (domain : Nat) (margin : Int)
  /-- `SETPOINT_REACHED` (R508). -/
  | setpointReached (domain : Nat) (reported : Bool)
  /-- `VWARN_CROSSING` (R509). -/
  | vwarnCrossing (domain mv : Nat)
  /-- `STRETCH_RELEASE` (R509). -/
  | stretchRelease (domain mv above : Nat) (margin : Int) (ok : Nat)
  /-- `VRST_CROSSING` (R510). -/
  | vrstCrossing (domain mv : Nat)
  /-- `PWR_REG_FAULT` (R511). -/
  | pwrRegFault (domain cause : Nat)
  /-- `REF_INPUT_LOST` (R514). -/
  | refInputLost (red : Bool)
  /-- `REF_REVERT` (R514). -/
  | refRevert (good : Nat)
  /-- `REF_HOLD_EXPIRY` (R514). -/
  | refHoldExpiry
  /-- `ADAPTIVE_CLOCK_STEP` (R515). -/
  | adaptiveClockStep (die limit : Nat)
  /-- `TIMING_EMERGENCY` (R516). -/
  | timingEmergency (domain : Nat) (margin : Int)
  /-- `THERMAL_READING` (R517). -/
  | thermalReading (die : Nat)
  /-- `TRIP_RESTORE` (R519). -/
  | tripRestore (temps : List Int) (stacks_ : List Nat)
  /-- `CAP_PERIOD_END` (R521). -/
  | capPeriodEnd (core : Nat) (share cur : List Nat)
  /-- `GAUGE_SAMPLE` (R539). -/
  | gaugeSample (die : Nat) (temps : List (Option Int))
  /-- `MCTP_PACKET` (R530). -/
  | mctpPacket (binding : Nat) (pkt : List Byte)
  /-- `SET_ENDPOINT_ID` (R529). -/
  | setEndpointId (binding : Nat)
  /-- `GET_ENDPOINT_ID` (R531). -/
  | getEndpointId (binding : Nat)
  /-- `GET_ENDPOINT_UUID` (R531). -/
  | getEndpointUuid (binding : Nat)
  /-- `GET_MCTP_VERSION_SUPPORT` (R531). -/
  | getMctpVersionSupport (binding : Nat)
  /-- `GET_MESSAGE_TYPE_SUPPORT` (R531). -/
  | getMessageTypeSupport (binding : Nat)
  /-- `GET_VENDOR_DEFINED_MESSAGE_SUPPORT` (R531). -/
  | getVendorDefinedMessageSupport (binding : Nat)
  /-- `GET_TID` (R531). -/
  | getTid (binding : Nat)
  /-- `GET_PLDM_VERSION` (R531). -/
  | getPldmVersion (binding : Nat)
  /-- `GET_PLDM_TYPES` (R531). -/
  | getPldmTypes (binding : Nat)
  /-- `GET_PLDM_COMMANDS` (R531). -/
  | getPldmCommands (binding : Nat)
  /-- `GET_SENSOR_READING` (R535). -/
  | getSensorReading (binding : Nat)
  /-- `GET_STATE_SENSOR_READINGS` (R535). -/
  | getStateSensorReadings (binding : Nat)
  /-- `GET_PDR_REPOSITORY_INFO` (R535). -/
  | getPdrRepositoryInfo (binding : Nat)
  /-- `GET_PDR` (R535). -/
  | getPdr (binding : Nat)
  /-- `SET_EVENT_RECEIVER` (R535). -/
  | setEventReceiver (binding : Nat)
  /-- `QUERY_DEVICE_IDENTIFIERS` (R537). -/
  | queryDeviceIdentifiers (binding : Nat)
  /-- `GET_FIRMWARE_PARAMETERS` (R537). -/
  | getFirmwareParameters (binding : Nat)
  /-- `REQUEST_UPDATE` (R537). -/
  | requestUpdate (binding : Nat)
  /-- `PASS_COMPONENT_TABLE` (R537). -/
  | passComponentTable (binding : Nat)
  /-- `UPDATE_COMPONENT` (R537). -/
  | updateComponent (binding : Nat)
  /-- `REQUEST_FIRMWARE_DATA` (R537). -/
  | requestFirmwareData (binding : Nat) (data : Option (List Byte))
  /-- `TRANSFER_COMPLETE` (R537). -/
  | transferComplete (binding : Nat)
  /-- `VERIFY_COMPLETE` (R537). -/
  | verifyComplete (binding : Nat)
  /-- `APPLY_COMPLETE` (R537). -/
  | applyComplete (binding : Nat)
  /-- `ACTIVATE_FIRMWARE` (R537). -/
  | activateFirmware (binding : Nat)
  /-- `GET_STATUS` (R537). -/
  | getStatus (binding : Nat)
  /-- `CANCEL_UPDATE` (R538). -/
  | cancelUpdate (binding : Nat)
  /-- `MGMT_WARM_RESET` (R542). -/
  | mgmtWarmReset (value : Nat)
  /-- `MGMT_COLD_RESET` (R542). -/
  | mgmtColdReset (value : Nat)
  /-- `REGISTER_WRITE` (R12). -/
  | registerWrite (path tenant addr mask value : Nat)
  /-- `WORD0_READ_LATCH` (R551). -/
  | word0ReadLatch (path tenant addr : Nat)
  /-- `COLD_RST_N_ASSERT` (R567). -/
  | coldRstNAssert
  /-- `COLD_RST_N_DEASSERT` (R570). -/
  | coldRstNDeassert
  /-- `WARM_RST_N_ASSERT` (R567). -/
  | warmRstNAssert
  /-- `WARM_RST_N_DEASSERT` (R567). -/
  | warmRstNDeassert
  /-- `AUX_PG_FALL` (R571). -/
  | auxPgFall
  /-- `AUX_PG_RISE` (R571). -/
  | auxPgRise
  /-- `TRST_N_ASSERT` (R569). -/
  | trstNAssert
  /-- `BYPASS` (R569). -/
  | jtagBypass
  /-- `SAMPLE_PRELOAD` (R569). -/
  | jtagSamplePreload
  /-- `EXTEST` (R569). -/
  | jtagExtest
  /-- `EXTEST_PULSE` (R569). -/
  | jtagExtestPulse
  /-- `EXTEST_TRAIN` (R569). -/
  | jtagExtestTrain
  /-- `CLAMP` (R569). -/
  | jtagClamp
  /-- `HIGHZ` (R569). -/
  | jtagHighz
  /-- `POWER_UP` (R570). -/
  | powerUp (straps : List Nat) (flash : List (List Byte))
  /-- `TRST_N_DEASSERT` (R569). -/
  | trstNDeassert
  /-- `DYNAMIC_ADDRESS_ASSIGNMENT` (R529). -/
  | dynamicAddressAssignment (addr : Nat)
  /-- `SGMII_LINK_CHANGE` (R543). -/
  | sgmiiLinkChange (up : Bool)
  /-- `STACK_TEMPERATURE_REPORT` (R518). -/
  | stackTemperatureReport (stack temp : Nat)
  /-- `HBM_REFRESH` (R435). -/
  | hbmRefresh (stack : Nat) (perBank rfm : Bool)
  /-- `DIE_LINK_TRAINING_COMPLETE` (R488). -/
  | dieLinkTrainingComplete (link : Nat)
  /-- `MKA_FRAME` (R64). -/
  | mkaFrame (port sub : Nat) (m : MkaMsg)
  /-- `LLDP_TRANSMIT` (R61). -/
  | lldpTransmit (port sub : Nat)
  /-- `PTP_LOCK_LOSS` (R106). -/
  | ptpLockLoss
  /-- `SUPPLY_RANGE_TIMEOUT` (R511). -/
  | supplyRangeTimeout (domain : Nat)
  /-- `REPLY_LEFT_PORT` (R132). -/
  | replyLeftPort (port sub : Nat) (events : Bool) (startedAgo : Nat)
deriving DecidableEq, Repr

end Sys2Proof
end

