-- ==== Sys2Proof/Config.lean ====
section
/-! DEFINITION. What an implementation fixes and the spec leaves open, as constants of no body: no proof can see their values. Free
values are read from `freeWord` at a counter of State. -/

namespace Sys2Proof.Config

open Sys2Proof.Machine

/-- A free value: a fresh word for each reading of the counter `State.free`. -/
opaque freeWord : Nat → Nat

/-- The number of events that the event queue holds; R81 gives none. -/
opaque eventQueueSize : Nat

/-- The division of a part of Table 2.1 (row less one) into the items whose layouts the spec gives. -/
opaque splitPart : Nat → List Byte → List (List Byte)

/-- The reading of a placement image part, whose framing the spec leaves open (R58, R237). -/
opaque readPlacement : List Byte → PlaceImage

/-- SHA-384 of a byte string, as a 384-bit number (FIPS 180-4). -/
opaque sha384 : List Byte → Nat

/-- ECDSA P-384 verification: public key, message, signature (FIPS 186-5). -/
opaque ecdsaOk : List Byte → List Byte → List Byte → Bool

/-- ML-DSA-87 verification: public key, message, signature (FIPS 204). -/
opaque mldsaOk : List Byte → List Byte → List Byte → Bool

/-- The Jalca boot key's ECDSA and ML-DSA halves, whose hashes are fused (R464). -/
opaque jalcaEcdsa : List Byte
opaque jalcaMldsa : List Byte

/-- The SET_ID and SET_VERSION that a part carries (R29), by part row less one. -/
opaque partIds : Nat → List Byte → Nat × Nat

/-- ML-KEM-1024 decapsulation with AES-256 key unwrapping by the module's key pair of a number: the key bytes, or none. -/
opaque unwrapKey : Nat → List Byte → Option (List Byte)

/-- The ML-KEM encapsulation key and nonce of a key pair number (R470). -/
opaque kemPublic : Nat → List Byte

/-- The conditional test that a key pair of that number fails, if one does (R461). -/
opaque pairFails : Nat → Option Nat

/-- What the security module's random generator draws in a state, and its state after the draw (R461, R469). -/
opaque drbgOut : Nat → Nat
opaque drbgNext : Nat → Nat

/-- A signature by the device identity key (R473, R474). -/
opaque deviceSign : List Byte → List Byte

/-- The device identity certificate chain of slot 0 (R473). -/
opaque certChain : List Byte

/-- AES-256-GCM sealing and opening of an export chunk: key number, nonce and associated bytes, plaintext or ciphertext with tag. -/
opaque sealChunk : Nat → List Byte → List Byte → List Byte
opaque openChunk : Nat → List Byte → List Byte → Option (List Byte)

/-- What the stages and the hub dies add to the Lockstep service bound of a pipeline, past the parts that R332 states: grade, set digest, pipeline. -/
opaque lockMin : Nat → Nat → Nat → Nat

/-- The control-core firmware's choices for a task (R141): MAX_INFLIGHT and DIE_BLOCKS, by cascade stage. -/
opaque taskInflight : Nat → Nat → Nat
opaque taskBlocks : Nat → Nat → Nat
/-- The ring of a task's entries that its descriptor names (R142): BASE and COUNT. -/
opaque taskBase : Nat → Nat → Nat
opaque taskCount : Nat → Nat → Nat
/-- The semaphore a task's descriptor names, and whether it is signalled (R142). -/
opaque taskSem : Nat → Nat → Nat
opaque taskSemOn : Nat → Nat → Bool

/-- The 802.1Q priority of the reply and event frames that a record port sends: the spec gives none (R65, R67). -/
opaque replyPriority : Nat → Nat
/-- The secure channel identifier of a record port's transmit channel (R63). -/
opaque portSci : Nat → Nat

/-- Whether a bucket of a partition is above its per-bucket rate at a tick (EDDY_PART_STAT.CACHE_HOT): the spec gives no window over which
the rate is taken. -/
opaque cacheHot : Nat → Nat → Bool

/-- The fused enterprise number (MGMT_ID), the device's UUID and its firmware identifiers. -/
opaque iana : Nat
opaque uuid : List Byte
opaque fwIdentifiers : List Byte

/-- The firmware of the security module, which the device measures (R474). -/
opaque securityFirmware : List Byte

/-- The bytes of a management response whose body the spec takes from its standard (R531, R535, R537): command code and request. -/
opaque mgmtBody : Nat → List Byte → List Byte

/-- The least setpoint code of a core domain that supports a clock of its die in MHz (R508): it depends on the silicon. -/
opaque clockNeeds : Nat → Nat → Nat

/-- How far an erase or a scrub has come at a tick, which the spec does not fix (R449, R450). -/
opaque pagesDone : Nat → Nat

/-- The sectors that a stack's sweep re-encrypts in a tick (R446): it uses the time that live traffic leaves. -/
opaque sectorsSwept : Nat → Nat → Nat

/-- AES-256 of a block, both numbers in GCM's bit order, under a key given by its bytes (R440). -/
opaque aes256 : List Byte → Nat → Nat

/-- The MAC key of an owner's generation, by the number that State gives the generation's keys (R440, R449). -/
opaque macKey : Nat → List Byte

/-- AES-256-XTS of a data unit under the XTS key of that number, with its tweak (R440). -/
opaque xtsSeal : Nat → List Byte → List Byte → List Byte

/-- The row of a stack that holds a sector of it (R454). -/
opaque rowOf : Nat → Nat → Nat

end Sys2Proof.Config
end

