-- ==== Sys2Proof/Machine/Jrf.lean ====
section
/-! DEFINITION. JRF: headers, records, the checks on them, the session check, and the bytes of replies and reply frames
(chapter 3). -/

namespace Sys2Proof.Machine

/-- Record classes (Table 3.5). -/
def clsScore : Nat := 1
def clsStateful : Nat := 2
def clsUpdate : Nat := 3
def clsRoute : Nat := 4
def clsModel : Nat := 5
def clsControl : Nat := 6
def clsReplay : Nat := 7

/-- Result codes (Table 3.13). -/
def rcOk : Nat := 0x00
def rcEarlyExit : Nat := 0x01
def rcNoEntity : Nat := 0x02
def rcDropped : Nat := 0x03
def rcBusy : Nat := 0x10
def rcBusyScrub : Nat := 0x11
def rcAdmitTimeout : Nat := 0x12
def rcDuplicate : Nat := 0x13
def rcSeqOld : Nat := 0x14
def rcNoSession : Nat := 0x15
def rcNotReady : Nat := 0x16
def rcRefused : Nat := 0x17
def rcAuthFail : Nat := 0x18
def rcFaultRetry : Nat := 0x20
def rcAborted : Nat := 0x21
def rcMalformed : Nat := 0x22

/-- The reply class of a record class (Table 3.5, Table 3.9); unknown classes are answered with an ACK (R71). -/
def replyClass (cls : Nat) : Nat :=
  if cls = clsScore ∨ cls = clsStateful then 0x81 else if cls = clsRoute then 0x82 else 0x83

/-- Reads the JRF header of a UDP payload (Table 3.3); bytes the payload does not have read 0. -/
def parseJrfHead (p : List Byte) : JrfHead :=
  { magic := leAt p 0 2, version := leAt p 2 1, flags := leAt p 3 1, records := leAt p 4 1, tenant := leAt p 5 1
    length := leAt p 6 2, session := leAt p 8 4, frameSeq := leAt p 12 4, en := leAt p 16 4, device := leAt p 20 4
    tailZero := allZero (slice p 24 8) }

/-- The header checks of R69, in order: the result code and cause of the first that fails. DESIGN CHOICE (log 90): a payload shorter than the header is
MALFORMED with cause 2, whatever its LENGTH says. -/
def jrfHeadFault (h : JrfHead) (payloadLen portTenant : Nat) : Option (Nat × Nat) :=
  if h.magic ≠ 0x464A ∨ h.version ≠ 1 then some (rcMalformed, 1)
  else if h.flags ≠ 0 then some (rcMalformed, 4)
  else if h.records < 1 ∨ 64 < h.records then some (rcMalformed, 3)
  else if h.en ≠ 0 ∨ h.device ≠ 0 ∨ h.tailZero = false then some (rcMalformed, 4)
  else if h.length ≠ payloadLen ∨ payloadLen < 32 then some (rcMalformed, 2)
  else if h.tenant ≠ portTenant then some (rcRefused, 2)
  else none

/-- The records of a frame, in order (R70): `some` bytes of each well-delimited record, `none` for the first record whose
LENGTH is bad and for every later one; and the bytes that remain after the last record. -/
def splitRecords (p : List Byte) : Nat → List (Option (List Byte)) × Nat
  | 0 => ([], p.length)
  | n + 1 =>
    let ln := leAt p 2 2
    if p.length < 4 ∨ ln < 32 ∨ 8224 < ln ∨ ln % 8 ≠ 0 ∨ p.length < ln then (List.replicate (n + 1) none, 0)
    else
      let r := splitRecords (p.drop ln) n
      (some (p.take ln) :: r.1, r.2)

/-- Reads a record header (Table 3.4). -/
def parseRecHead (b : List Byte) : RecHead :=
  { cls := leAt b 0 1, pipe := leAt b 1 1, length := leAt b 2 2, flags := leAt b 4 2, res6 := leAt b 6 2
    recId := leAt b 8 8, origStamp := leAt b 16 8, origKey := leAt b 24 4, origPort := leAt b 28 1, res29 := leAt b 29 3 }

/-- A class of Table 3.5. -/
def clsKnown (cls : Nat) : Bool := decide (1 ≤ cls) && decide (cls ≤ 7)

/-- A reserved field of the record header that is not 0 (R71). -/
def recHeadReserved (h : RecHead) : Bool :=
  h.flags / 2 ≠ 0 || h.res6 ≠ 0 || h.res29 ≠ 0 ||
  (if h.cls = clsReplay then decide (h.origKey / 2 ^ 29 ≠ 0) || decide (h.origPort / 16 ≠ 0)
   else decide (h.origStamp ≠ 0) || decide (h.origKey ≠ 0) || decide (h.origPort ≠ 0)) ||
  ((h.cls = clsModel || h.cls = clsControl) && h.pipe ≠ 0)

/-- The order key a REPLAY record carries (R109, Table 3.4). -/
def replayKey (h : RecHead) : OrderKey :=
  { stamp := h.origStamp, dev := bits h.origKey 28 16, port := h.origPort % 16, seq := h.origKey % 65536 }

/-- A key entry of a key section: its class and its bytes (R73). -/
abbrev KeyEntry := Nat × List Byte

/-- The key entries after the section head, and the bytes after them; the MALFORMED cause of the first fault (R73). -/
def parseKeyEntries (p : List Byte) (keyClasses : Nat) : Nat → Except Nat (List KeyEntry × List Byte)
  | 0 => .ok ([], p)
  | n + 1 =>
    let kc := leAt p 0 1
    let l := leAt p 1 1
    let w := ceilDiv (2 + l) 8 * 8
    if p.length < 2 then .error 8
    else if 7 < kc ∨ l < 1 ∨ 32 < l ∨ bit keyClasses kc = false then .error 9
    else if p.length < w then .error 8
    else if allZero (slice p (2 + l) (w - 2 - l)) = false then .error 9
    else
      match parseKeyEntries (p.drop w) keyClasses n with
      | .error e => .error e
      | .ok (ks, rest) => .ok ((kc, slice p 2 l) :: ks, rest)

/-- The key section of a stateful payload (R73): its keys and the fields after it, or a MALFORMED cause. -/
def parseKeySection (p : List Byte) (keyClasses : Nat) : Except Nat (List KeyEntry × List Byte) :=
  let n := leAt p 0 1
  if p.length < 8 then .error 8
  else if n < 1 ∨ 4 < n ∨ allZero (slice p 1 7) = false then .error 9
  else parseKeyEntries (p.drop 8) keyClasses n

/-- The signed distance of a frame sequence from the highest accepted one, modulo 2^32 (R75). -/
def seqDist (frameSeq high : Nat) : Int := sgn 32 (wrapI 32 ((frameSeq : Int) - (high : Int)))

/-- A session whose window takes a new frame (Table 3.7, rows 4 and 5). -/
def sessionAccept (e : Session) (frameSeq now : Nat) : Session :=
  let d := seqDist frameSeq e.high
  if 0 < d then
    { e with high := frameSeq, lastBt := now
             seen := frameSeq :: e.seen.filter (fun q => decide (-1024 < seqDist q frameSeq)) }
  else { e with seen := frameSeq :: e.seen, lastBt := now }

/-- The session check of a request frame (R75, Table 3.7, R76): the verdict on its records and the new table. -/
def sessionCheck (tbl : List Session) (key : SessionKey) (port sub frameSeq now : Nat) : SessVerdict × List Session :=
  if key.session = 0 then (.process, tbl)
  else
    match tbl.find? (fun e => e.key = key) with
    | none =>
      if 4096 ≤ tbl.length then (.noSessionFull, tbl)
      else (.process, tbl ++ [{ key := key, port := port, sub := sub, high := frameSeq, seen := [frameSeq], lastBt := now }])
    | some e =>
      let d := seqDist frameSeq e.high
      if e.port ≠ port ∨ e.sub ≠ sub then (.noSessionPort, tbl)
      else if d ≤ -1024 then (.seqOld, tbl)
      else if d ≤ 0 ∧ frameSeq ∈ e.seen then (.duplicate, tbl)
      else (.process, tbl.map (fun x => if x.key = key then sessionAccept e frameSeq now else x))

/-- The result code and cause that a session verdict gives every record of the frame (Table 3.7). -/
def sessionRefusal : SessVerdict → Option (Nat × Nat)
  | .process => none
  | .noSessionFull => some (rcNoSession, 1)
  | .noSessionPort => some (rcNoSession, 2)
  | .duplicate => some (rcDuplicate, 0)
  | .seqOld => some (rcSeqOld, 0)

/-- The STATUS field of a reply (Table 3.12). -/
def statusWord (attn late sat stale degraded : Bool) (code : Nat) : Nat :=
  b2n attn * 2 ^ 15 + b2n late * 2 ^ 14 + b2n sat * 2 ^ 13 + b2n stale * 2 ^ 12 + b2n degraded * 2 ^ 11 + code % 256

/-- The bytes of one reply (Table 3.8, R78): `attn` and `degraded` are sampled as its first byte is sent (R84). -/
def replyBytes (r : Reply) (attn degraded : Bool) : List Byte :=
  let body := padTo 8 r.payload
  leBytes 1 r.cls ++ leBytes 1 r.pipe ++ leBytes 2 (32 + body.length) ++
  leBytes 2 (statusWord attn r.late r.sat r.stale degraded r.code) ++ leBytes 1 r.recIndex ++ leBytes 1 r.cause ++
  leBytes 8 r.recId ++ leBytes 8 r.key.stamp ++ leBytes 4 r.reqSeq ++ leBytes 2 r.key.seq ++ leBytes 1 r.portByte ++
  leBytes 1 0 ++ body

/-- The size of one reply in its frame. -/
def replySize (r : Reply) : Nat := 32 + (padTo 8 r.payload).length

/-- The JRF header of a reply or event frame (Table 3.3). -/
def jrfHeadBytes (flags records tenant length session frameSeq en device : Nat) : List Byte :=
  leBytes 2 0x464A ++ leBytes 1 1 ++ leBytes 1 flags ++ leBytes 1 records ++ leBytes 1 tenant ++ leBytes 2 length ++
  leBytes 4 session ++ leBytes 4 frameSeq ++ leBytes 4 en ++ leBytes 4 (device % 8192) ++ leBytes 8 0

/-- A whole reply or event frame: header, then the replies one after another (R68). -/
def jrfFrame (flags tenant session frameSeq en device : Nat) (replies : List (List Byte)) : List Byte :=
  let body := replies.flatten
  jrfHeadBytes flags replies.length tenant (32 + body.length) session frameSeq en device ++ body

/-- The bytes a reply frame takes on the wire, destination address through FCS (R82, Table 1.8). -/
def frameWire (v6 macsec vlan : Bool) (jrfLen : Nat) : Nat :=
  jrfLen + 8 + (if v6 then 40 else 20) + (if macsec then 32 else 0) + (if vlan then 4 else 0) + 18

/-- The payload of an event reply (R81). -/
def eventPayload (e : EvtEntry) : List Byte :=
  leBytes 2 e.code ++ leBytes 2 e.unit ++ leBytes 1 e.tenant ++ leBytes 3 0 ++ leBytes 8 e.detail

/-- An event as an EVENT reply (Table 3.8). -/
def eventReply (e : EvtEntry) (dest : Dest) : Reply :=
  { cls := 0x84, recIndex := 0xFF, recId := e.seq, key := { stamp := e.stamp }, payload := eventPayload e
    tenant := 0, dest := dest }

/-- The SCORE_REPLY head and results (Table 3.10): stage, optional slots run and named, rule hits, result words, optional
sections (index, readouts) of the named slots, and the digest. -/
def scorePayload (stage : Nat) (early : Bool) (optRun optNamed ruleHit : Nat) (results : List Word)
    (opt : List (Nat × List Word)) (digest : Option Nat) : List Byte :=
  let head := leBytes 1 results.length ++ leBytes 1 (stage % 8 + b2n early * 128) ++
    leBytes 1 (optRun % 16 + (optNamed % 16) * 16) ++ leBytes 1 ruleHit ++
    leBytes 1 (b2n (decide (optNamed ≠ 0)) + 2 * b2n digest.isSome) ++ leBytes 3 0
  let words := fun (ws : List Word) => (ws.map (fun w => leBytes 4 w.toNat)).flatten
  let sect := (opt.map (fun e => leBytes 1 e.1 ++ leBytes 1 e.2.length ++ leBytes 2 0 ++ words e.2)).flatten
  let body := head ++ words results ++ sect
  match digest with
  | none => body
  | some d => padTo 8 body ++ leBytes 8 d

end Sys2Proof.Machine
end

