-- ==== Sys2Proof/Machine/RegMap.lean ====
section
/-! DEFINITION. The register map (chapter 21): every register with its address, width, copies, path code and reset value
(Tables 21.3 to 21.8), and the access codes of its fields as masks per word (Table 0.5, from the field tables of the
subject chapters). A word of no mask is read-only or reserved. -/

namespace Sys2Proof.Machine

/-- The path codes of Table 21.2. -/
inductive PathCode where
  | both | ro | roRefuse | mgmt | mgmtRead
deriving DecidableEq, Repr

/-- The registers of Tables 21.3 to 21.8 and TOP_ID (R576). Names beginning `cnt` are blocks of performance counters. -/
inductive RegName where
  | topId | tribCfg | tribJrf | tribReply | tribSess | tribEvt | tribPortCfg | tribPortVlan | tribPortPfc
  | tribPortStat | tribMacsec | cntTribPortCnt | attnCause | attnMask | timeBt | timeCfg | timeFence
  | timeFenceEff | timeLock | timeLaunch | timePtp | timeStat | timeWall | cntFenceLateCnt | weirCfg
  | weirEnergy | weirEnergyLeft | weirThrottle | weirStat | weirDrain | weirCascade | weirOptCost
  | fetchRearm | cntBcacheCnt | fetchStreamStat | fetchDesc | cntStallCnt | eddyCfg | eddyKey | eddyKeyChk
  | eddyHomeGen | eddyPartStat | cntEddyPartCnt | eddyHome | veCfg | veStat | cntVeCnt | tileDieCfg
  | tileStat | cntTileCnt | muDieCfg | muStat | cntMuCnt | wsmStat | cntWsmCnt | cntAccCnt | accFxInexact
  | distSettle | distStat | distCommitCnt | distCfg | cntDistCnt | detCfg | detStat | detLockMin | capCfg
  | capSize | capWr | capRd | cntCapCnt | sluSem | sluBarmask | sluBarstat | cntSluBarGenErrCnt | sluDbarmask
  | sluDbarcfg | sluDbarwarn | sluDbarstat | sluQcfg | sluQstat | sluQctl | cntSluQwaitCnt | cntSluDevCnt
  | bwCfg | bwSnap | cntBwAbortCnt | braidCfg | braidId | braidMcast | braidAtt | cntBraidDevCnt
  | braidPortCfg | braidPortStat | cntBraidPortCnt | braidMgroup | hwBoot | hwCfg | hwCommit | loadCfg
  | loadStatus | memEddyShare | memSweepCfg | memPprCfg | memScrubStat | memScrubProg | memKeyStat
  | memStackStat | cntMemCnt | secStat | relCfg | relUnitSel | relUnitWin | relUnitCtl | relDielinkStat
  | relDeg | cntRelCnt | pwrVcfg | pwrVstat | cntPwrWarnCnt | pwrClkCfg | pwrDroop | pwrRef | pwrCap
  | pwrShed | pwrStat | pwrRstCause | cntPwrStretchCnt | mgmtCfg | mgmtCtl | mgmtId | mgmtStat | mgmtAttn
  | mgmtEvtHead | cntMgmtBadPktCnt | evtlog | gaugeTemp | cntGaugeDiodeFailCnt
deriving DecidableEq, Repr

/-- One register: base address of copy 0, words, whether the copy is selected by TENANT (R546), the other copies as
(count, stride), path code, whether it is a performance counter (Table 20.5), and per word the RW, RW1C and WO bits and
the reset value. Missing mask words are 0. -/
structure RegDesc where
  name : RegName
  base : Nat
  words : Nat
  tenant : Bool
  dims : List (Nat × Nat)
  path : PathCode
  cnt : Bool
  rw : List Nat
  w1c : List Nat
  wo : List Nat
  reset : List Nat
deriving DecidableEq, Repr

/-- Registers of Tables 21.3 to 21.8, part 1. -/
def regRows1 : List RegDesc := [
  RegDesc.mk .topId 0x00000000 1 false [] .ro false [] [] [] [],
  RegDesc.mk .tribCfg 0x01000000 1 false [(2, 0x10000)] .both false [0xffff0003] [] [] [0xc6180000],
  RegDesc.mk .tribJrf 0x01000004 1 false [(2, 0x10000)] .both false [0xffff] [] [] [0xc618],
  RegDesc.mk .tribReply 0x01000008 1 false [(2, 0x10000)] .both false [0xffff3fff] [] [] [0x402400],
  RegDesc.mk .tribSess 0x01000010 2 false [(2, 0x10000)] .both false [0xffffffff, 0xffff] [] [] [0, 2],
  RegDesc.mk .tribEvt 0x01020000 5 false [] .both false [0xffffffff, 0xffffffff, 0xffffffff, 0xffffffff, 0x3fffff] [] [] [],
  RegDesc.mk .tribPortCfg 0x01100000 1 false [(16, 0x1000), (2, 0x800)] .both false [0x3ffff] [] [] [0x23006],
  RegDesc.mk .tribPortVlan 0x01100004 1 false [(16, 0x1000), (2, 0x800)] .both false [0xfff] [] [] [],
  RegDesc.mk .tribPortPfc 0x01100008 1 false [(16, 0x1000), (2, 0x800)] .both false [0xffffffff] [] [] [0x20301010],
  RegDesc.mk .tribPortStat 0x0110000C 1 false [(16, 0x1000), (2, 0x800)] .ro false [] [] [] [2],
  RegDesc.mk .tribMacsec 0x01100010 1 false [(16, 0x1000), (2, 0x800)] .both false [0x7fffffff] [] [] [0x40],
  RegDesc.mk .cntTribPortCnt 0x01100100 2 false [(16, 0x1000), (2, 0x800), (11, 0x8)] .both true [] [0, 0x10000] [] [],
  RegDesc.mk .attnCause 0x02000000 1 true [] .both false [] [0x1ce4e] [] [],
  RegDesc.mk .attnMask 0x02000004 1 true [] .both false [0x1ffff] [] [] [0x1ffff],
  RegDesc.mk .timeBt 0x03000000 2 false [] .ro false [] [] [] [],
  RegDesc.mk .timeCfg 0x03000008 1 false [] .both false [0xffffffff] [] [] [0xb],
  RegDesc.mk .timeFence 0x0300000C 1 false [] .both false [0xffffffff] [] [] [0x25803e8],
  RegDesc.mk .timeFenceEff 0x03000010 1 false [] .ro false [] [] [] [0x740],
  RegDesc.mk .timeLock 0x03000014 1 false [] .both false [0xffffff] [] [] [0x800bb8],
  RegDesc.mk .timeLaunch 0x03000018 1 false [] .both false [0xffff] [] [] [0x40],
  RegDesc.mk .timePtp 0x0300001C 1 false [] .both false [0x7fff] [] [] [],
  RegDesc.mk .timeStat 0x03000020 1 false [] .ro false [] [] [] [0x1e0],
  RegDesc.mk .timeWall 0x03000028 2 false [] .ro false [] [] [] [],
  RegDesc.mk .cntFenceLateCnt 0x03000030 2 false [] .both true [] [0, 0x10000] [] []]

/-- Registers of Tables 21.3 to 21.8, part 2. -/
def regRows2 : List RegDesc := [
  RegDesc.mk .weirCfg 0x04000000 1 false [(2, 0x10000)] .both false [0x1fff] [] [] [0x1e00],
  RegDesc.mk .weirEnergy 0x04000004 1 false [(2, 0x10000)] .ro false [] [] [] [0xffffffff],
  RegDesc.mk .weirEnergyLeft 0x04000008 1 false [(2, 0x10000)] .ro false [] [] [] [0xffffffff],
  RegDesc.mk .weirThrottle 0x0400000C 1 false [(2, 0x10000)] .ro false [] [] [] [],
  RegDesc.mk .weirStat 0x04000010 1 false [(2, 0x10000)] .ro false [] [] [] [0xff],
  RegDesc.mk .weirDrain 0x04000014 1 false [(2, 0x10000)] .both false [0xffffffff] [] [] [0x400000],
  RegDesc.mk .weirCascade 0x04020000 1 true [(32, 0x4)] .both false [0xffff] [] [] [],
  RegDesc.mk .weirOptCost 0x04020100 1 true [(64, 0x4)] .ro false [] [] [] [],
  RegDesc.mk .fetchRearm 0x05000000 4 false [(2, 0x100000)] .both false [] [] [0x1ff, 0xffffffff, 0xffff, 0xffffffff] [],
  RegDesc.mk .cntBcacheCnt 0x05000010 2 false [(2, 0x100000), (2, 0x8)] .both true [] [0, 0x10000] [] [],
  RegDesc.mk .fetchStreamStat 0x05001000 1 false [(2, 0x100000), (512, 0x4)] .ro false [] [] [] [],
  RegDesc.mk .fetchDesc 0x05010000 8 false [(2, 0x100000), (512, 0x80)] .ro false [] [] [] [],
  RegDesc.mk .cntStallCnt 0x05010020 2 false [(2, 0x100000), (512, 0x80), (9, 0x8)] .both true [] [0, 0x10000] [] [],
  RegDesc.mk .eddyCfg 0x06000000 1 false [] .both false [0xffff] [] [] [0x1000],
  RegDesc.mk .eddyKey 0x06000010 4 true [] .both false [] [] [0xffffffff, 0xffffffff, 0xffffffff, 0xffffffff] [],
  RegDesc.mk .eddyKeyChk 0x06000020 1 true [] .ro false [] [] [] [],
  RegDesc.mk .eddyHomeGen 0x06000024 1 true [] .both false [0xffff] [] [] [],
  RegDesc.mk .eddyPartStat 0x06001000 1 false [(12, 0x100)] .ro false [] [] [] [],
  RegDesc.mk .cntEddyPartCnt 0x06001008 2 false [(12, 0x100), (8, 0x8)] .both true [] [0, 0x10000] [] [],
  RegDesc.mk .eddyHome 0x06040000 1 true [(65536, 0x4)] .both false [0x9fff9fff] [] [] [],
  RegDesc.mk .veCfg 0x07000000 1 false [(2, 0x10000)] .both false [0x1ff] [] [] [0x140],
  RegDesc.mk .veStat 0x07000100 1 false [(2, 0x10000), (34, 0x4)] .ro false [] [] [] [],
  RegDesc.mk .cntVeCnt 0x07001000 2 false [(2, 0x10000), (34, 0x40), (7, 0x8)] .both true [] [0, 0x10000] [] [],
  RegDesc.mk .tileDieCfg 0x08000000 1 false [(8, 0x10000)] .both false [1] [] [] [1]]

/-- Registers of Tables 21.3 to 21.8, part 3. -/
def regRows3 : List RegDesc := [
  RegDesc.mk .tileStat 0x08000100 1 false [(8, 0x10000), (66, 0x4)] .ro false [] [] [] [],
  RegDesc.mk .cntTileCnt 0x08001000 2 false [(8, 0x10000), (66, 0x40), (8, 0x8)] .both true [] [0, 0x10000] [] [],
  RegDesc.mk .muDieCfg 0x09000000 1 false [(8, 0x10000)] .both false [0xffffff] [] [] [0x10020],
  RegDesc.mk .muStat 0x09000100 1 false [(8, 0x10000), (9, 0x4)] .ro false [] [] [] [],
  RegDesc.mk .cntMuCnt 0x09001000 2 false [(8, 0x10000), (9, 0x40), (5, 0x8)] .both true [] [0, 0x10000] [] [],
  RegDesc.mk .wsmStat 0x0A000000 1 false [(8, 0x100)] .ro false [] [] [] [],
  RegDesc.mk .cntWsmCnt 0x0A000008 2 false [(8, 0x100), (2, 0x8)] .both true [] [0, 0x10000] [] [],
  RegDesc.mk .cntAccCnt 0x0B000000 2 false [(2, 0x10), (2, 0x8)] .both true [] [0, 0x10000] [] [],
  RegDesc.mk .accFxInexact 0x0B001000 1 true [(2, 0x100), (64, 0x4)] .ro false [] [] [] [],
  RegDesc.mk .distSettle 0x0C000000 1 false [] .both false [0xffff] [] [] [0x800],
  RegDesc.mk .distStat 0x0C000010 1 true [] .ro false [] [] [] [],
  RegDesc.mk .distCommitCnt 0x0C000014 1 true [] .ro false [] [] [] [],
  RegDesc.mk .distCfg 0x0C001000 1 true [(2, 0x40), (16, 0x4)] .ro false [] [] [] [],
  RegDesc.mk .cntDistCnt 0x0C002000 2 true [(2, 0x100), (10, 0x8)] .both true [] [0, 0x10000] [] [],
  RegDesc.mk .detCfg 0x0D000000 1 false [] .both false [3] [] [] [],
  RegDesc.mk .detStat 0x0D000004 1 false [] .ro false [] [] [] [],
  RegDesc.mk .detLockMin 0x0D001000 1 true [(2, 0x400), (256, 0x4)] .ro false [] [] [] [],
  RegDesc.mk .capCfg 0x0E000000 1 true [] .both false [0x7f] [] [] [0x78],
  RegDesc.mk .capSize 0x0E000004 1 true [] .both false [0x7ff] [] [] [],
  RegDesc.mk .capWr 0x0E000008 2 true [] .ro false [] [] [] [],
  RegDesc.mk .capRd 0x0E000010 2 true [] .both false [0xffffffff, 0xffff] [] [] [],
  RegDesc.mk .cntCapCnt 0x0E000018 2 true [(3, 0x8)] .both true [] [0, 0x10000] [] [],
  RegDesc.mk .sluSem 0x0F000000 1 false [(3072, 0x4)] .both false [0xcffff] [0x30000] [] [],
  RegDesc.mk .sluBarmask 0x0F010000 1 false [(10, 0x100), (16, 0x8)] .both false [0xffffffff] [] [] []]

/-- Registers of Tables 21.3 to 21.8, part 4. -/
def regRows4 : List RegDesc := [
  RegDesc.mk .sluBarstat 0x0F010004 1 false [(10, 0x100), (16, 0x8)] .ro false [] [] [] [],
  RegDesc.mk .cntSluBarGenErrCnt 0x0F010080 2 false [(10, 0x100)] .both true [] [0, 0x10000] [] [],
  RegDesc.mk .sluDbarmask 0x0F020000 4 false [(8, 0x40)] .both false [0xffffffff, 0xffffffff, 0xffffffff, 0xffffffff] [] [] [],
  RegDesc.mk .sluDbarcfg 0x0F020010 1 false [(8, 0x40)] .both false [0x7fffffff] [] [] [],
  RegDesc.mk .sluDbarwarn 0x0F020014 1 false [(8, 0x40)] .both false [0xffffffff] [] [] [0x100000],
  RegDesc.mk .sluDbarstat 0x0F020018 1 false [(8, 0x40)] .ro false [] [] [] [],
  RegDesc.mk .sluQcfg 0x0F030000 1 false [(128, 0x20)] .both false [0x7f] [] [] [],
  RegDesc.mk .sluQstat 0x0F030004 1 false [(128, 0x20)] .ro false [] [] [] [],
  RegDesc.mk .sluQctl 0x0F030008 1 false [(128, 0x20)] .mgmt false [1] [] [6] [],
  RegDesc.mk .cntSluQwaitCnt 0x0F030010 2 false [(128, 0x20)] .both true [] [0, 0x10000] [] [],
  RegDesc.mk .cntSluDevCnt 0x0F040000 2 false [(3, 0x8)] .both true [] [0, 0x10000] [] [],
  RegDesc.mk .bwCfg 0x10000000 1 false [(2, 0x100)] .both false [0x3f] [] [] [0x21],
  RegDesc.mk .bwSnap 0x10000004 1 false [(2, 0x100)] .both false [] [0x8000] [] [],
  RegDesc.mk .cntBwAbortCnt 0x10000008 2 false [(2, 0x100)] .both true [] [0, 0x10000] [] [],
  RegDesc.mk .braidCfg 0x11000000 1 false [] .both false [0x1fffffff] [] [] [],
  RegDesc.mk .braidId 0x11000004 1 false [] .both false [0x1fff] [] [] [],
  RegDesc.mk .braidMcast 0x11000008 1 false [] .both false [0xffffffff] [] [] [0x2000fa00],
  RegDesc.mk .braidAtt 0x1100000C 1 false [] .both false [0xffffffff] [] [] [0x10000],
  RegDesc.mk .cntBraidDevCnt 0x11000010 2 false [(3, 0x8)] .both true [] [0, 0x10000] [] [],
  RegDesc.mk .braidPortCfg 0x11001000 1 false [(12, 0x100)] .both false [0x3ff] [] [] [4],
  RegDesc.mk .braidPortStat 0x11001004 1 false [(12, 0x100)] .ro false [] [] [] [],
  RegDesc.mk .cntBraidPortCnt 0x11001010 2 false [(12, 0x100), (9, 0x8)] .both true [] [0, 0x10000] [] [],
  RegDesc.mk .braidMgroup 0x11002004 1 false [(63, 0x4)] .both false [0x1fffffff] [] [] [],
  RegDesc.mk .hwBoot 0x12000000 1 false [] .both false [0xf3] [] [] [0x100]]

/-- Registers of Tables 21.3 to 21.8, part 5. -/
def regRows5 : List RegDesc := [
  RegDesc.mk .hwCfg 0x12000004 1 false [] .both false [0xffffffff] [] [] [0x4000400],
  RegDesc.mk .hwCommit 0x12000100 32 true [] .ro false [] [] [] [],
  RegDesc.mk .loadCfg 0x13000000 1 false [] .both false [0x3f] [] [] [8],
  RegDesc.mk .loadStatus 0x13000008 2 true [] .ro false [] [] [] [0xff, 0],
  RegDesc.mk .memEddyShare 0x14000000 1 true [] .both false [0x7f] [] [] [],
  RegDesc.mk .memSweepCfg 0x14000004 1 false [] .both false [0x3f] [] [] [8],
  RegDesc.mk .memPprCfg 0x14000008 1 false [] .both false [0x3f] [] [] [0x32],
  RegDesc.mk .memScrubStat 0x1400000C 1 false [] .ro false [] [] [] [1],
  RegDesc.mk .memScrubProg 0x14000010 2 false [] .ro false [] [] [] [],
  RegDesc.mk .memKeyStat 0x14000100 1 false [(5, 0x4)] .ro false [] [] [] [],
  RegDesc.mk .memStackStat 0x14001000 1 false [(12, 0x40)] .ro false [] [] [] [1],
  RegDesc.mk .cntMemCnt 0x14001008 2 false [(12, 0x40), (4, 0x8)] .both true [] [0, 0x10000] [] [],
  RegDesc.mk .secStat 0x15000000 1 false [] .roRefuse false [] [] [] [],
  RegDesc.mk .relCfg 0x16000000 1 false [] .both false [0x3fffff] [] [] [0x10091e],
  RegDesc.mk .relUnitSel 0x16000004 1 false [] .both false [0xffff] [] [] [0x1000],
  RegDesc.mk .relUnitWin 0x16000008 1 false [] .ro false [] [] [] [],
  RegDesc.mk .relUnitCtl 0x1600000C 1 false [] .mgmt false [] [] [0x3ffff] [],
  RegDesc.mk .relDielinkStat 0x16000010 1 false [] .ro false [] [] [] [],
  RegDesc.mk .relDeg 0x16000014 1 true [] .ro false [] [] [] [],
  RegDesc.mk .cntRelCnt 0x16000018 2 false [(2, 0x8)] .both true [] [0, 0x10000] [] [],
  RegDesc.mk .pwrVcfg 0x17000000 1 false [(10, 0x10)] .both false [0xff7f7f] [] [] [0x461432],
  RegDesc.mk .pwrVstat 0x17000004 1 false [(10, 0x10)] .ro false [] [] [] [0x32],
  RegDesc.mk .cntPwrWarnCnt 0x17000008 2 false [(10, 0x10)] .both true [] [0, 0x10000] [] [],
  RegDesc.mk .pwrClkCfg 0x17000100 1 false [] .both false [0x1ffffff] [] [] [0xe10640]]

/-- Registers of Tables 21.3 to 21.8, part 6. -/
def regRows6 : List RegDesc := [
  RegDesc.mk .pwrDroop 0x17000104 1 false [] .both false [0x3ff] [] [] [0x103],
  RegDesc.mk .pwrRef 0x17000108 1 false [] .both false [8] [] [] [8],
  RegDesc.mk .pwrCap 0x1700010C 1 false [] .both false [0xfffff] [] [] [0x60000],
  RegDesc.mk .pwrShed 0x17000110 1 false [] .both false [0xfffff] [] [] [0x2bc09],
  RegDesc.mk .pwrStat 0x17000114 1 false [] .ro false [] [] [] [],
  RegDesc.mk .pwrRstCause 0x17000118 1 false [] .ro false [] [] [] [1],
  RegDesc.mk .cntPwrStretchCnt 0x17000200 2 false [(10, 0x8)] .both true [] [0, 0x10000] [] [],
  RegDesc.mk .mgmtCfg 0x18000000 1 false [] .both false [0xffff01ff] [] [] [0xc6190001],
  RegDesc.mk .mgmtCtl 0x18000004 1 false [] .mgmt false [] [] [3] [],
  RegDesc.mk .mgmtId 0x18000008 1 false [] .ro false [] [] [] [],
  RegDesc.mk .mgmtStat 0x1800000C 1 false [] .ro false [] [] [] [1],
  RegDesc.mk .mgmtAttn 0x18000010 1 false [] .ro false [] [] [] [],
  RegDesc.mk .mgmtEvtHead 0x18000018 2 false [] .ro false [] [] [] [],
  RegDesc.mk .cntMgmtBadPktCnt 0x18000020 2 false [] .both true [] [0, 0x10000] [] [],
  RegDesc.mk .evtlog 0x18010000 8 false [(65536, 0x20)] .mgmtRead false [] [] [] [],
  RegDesc.mk .gaugeTemp 0x19000000 1 false [(10, 0x4)] .ro false [] [] [] [],
  RegDesc.mk .cntGaugeDiodeFailCnt 0x19000040 2 false [] .both true [] [0, 0x10000] [] []]

/-- The whole register map. -/
def regTable : List RegDesc := regRows1 ++ regRows2 ++ regRows3 ++ regRows4 ++ regRows5 ++ regRows6

end Sys2Proof.Machine
end

