-- ==== Sys2Proof/Machine/State.lean ====
section
/-! DEFINITION. The state of the block: registers and counters, the parts of each subsystem, and the queue of waiting commands; the state
right after reset; the reasons a step can stop. -/

namespace Sys2Proof.Machine

/-- Fused values (R2, R3, R17): grade (1 AX7-A, 2 AX7-B), the tiles (66 d + t) and match units (9 d + m) fused off. -/
structure FuseSt where
  grade : Nat := 1
  tilesOff : List Nat := []
  musOff : List Nat := []
deriving DecidableEq, Repr

/-- The state of the block. `regs` holds the register words that differ from their reset values and `cnts` the performance counters that
are not 0 (value, with WRAP in bit 48), both keyed by register, copy and word; `stage` the staging words of a write in
progress (R551, R552), keyed by path. `free` numbers the free values read so far. -/
structure State where
  pending : List Instr := []
  fuse : FuseSt := {}
  regs : SMap Word := []
  cnts : SMap Nat := []
  stage : SMap Nat := []
  free : Nat := 0
  time : TimeSt := {}
  trib : TribSt := {}
  weir : WeirSt := {}
  eddy : EddySt := {}
  ve : List VeHub := [{}, {}]
  die : DieSt := {}
  dist : DistSt := {}
  cap : List CapSt := [{}, {}, {}, {}]
  slu : SluiceSt := {}
  braid : BraidSt := {}
  head : HeadSt := {}
  mem : MemSt := {}
  sec : SecSt := {}
  rel : RelSt := {}
  power : PowerSt := {}
  mgmt : MgmtSt := {}
  pins : PinSt := {}
deriving DecidableEq, Repr

/-- Why the machine stops with a fault: no command of the table does. -/
inductive Fault where
deriving DecidableEq, Repr

/-- Why the machine has no meaning for a command. -/
inductive Refusal where
  /-- Raised by a command's arm that has no meaning yet, by the command's mnemonic. Safe: nothing is claimed of it. -/
  | notModelled (mnemonic : String)
deriving DecidableEq, Repr

/-- The block right after a cold reset at power-up: every register at its reset value, BT not valid, boot step 1, no set, no
key, memory with nothing listed. -/
def State.reset : State := {}

end Sys2Proof.Machine
end

