-- ==== Sys2Proof/Machine/Ops.lean ====
section
/-! DEFINITION. The named operations that every subsystem shares: registers, performance counters, events, attention, time, and the
readers of the active set. -/

namespace Sys2Proof.Machine

/-- The outcome of a command. -/
abbrev Out := Host.Outcome State Fault Refusal

/-- A reset that a pin or a trip holds keeps every part of the device but the always-on domain and the management controller in reset (R528,
R567, R571): what would happen there does not. -/
def State.gated (s : State) (x : Out) : Out := if s.pins.held || s.pins.warmHeld then .next s else x

/-- What acts through a warm reset that WARM_RST_N holds: the watch on temperatures, whose trip turns it into a cold reset (R524;
DEDUCED, log 87). -/
def State.gatedCold (s : State) (x : Out) : Out := if s.pins.held then .next s else x

/-- The row of a register in the map. -/
def regDesc (n : RegName) : RegDesc := nth regTable n.ctorIdx (RegDesc.mk .topId 0 1 false [] .ro false [] [] [] [])

/-- The store key of a register word: register, copy, word. -/
def regKey (n : RegName) (copy word : Nat) : Nat := n.ctorIdx * 2 ^ 32 + copy * 64 + word

/-- The reset value of a register word (R13, R560, Table 21.8): hub queues and tenant 0's Eddy share differ from the row's. -/
def regReset (n : RegName) (copy word : Nat) : Nat :=
  if n = .sluQcfg ∧ copy < 64 then 0x7E
  else if n = .memEddyShare ∧ copy = 0 then 0x54
  else nth (regDesc n).reset word 0

/-- The reset word of a store key. -/
def regDefault (k : Nat) : Word :=
  BitVec.ofNat 32 (match regTable[k / 2 ^ 32]? with
    | some d => regReset d.name (k % 2 ^ 32 / 64) (k % 64)
    | none => 0)

/-- A register word as held. -/
def State.rd (s : State) (n : RegName) (copy word : Nat) : Nat := (SMap.getD regDefault s.regs (regKey n copy word)).toNat

/-- Bits [hi:lo] of a register word. -/
def State.fld (s : State) (n : RegName) (copy word hi lo : Nat) : Nat := bits (s.rd n copy word) hi lo

/-- Writes a register word. -/
def State.wr (s : State) (n : RegName) (copy word v : Nat) : State :=
  { s with regs := SMap.setD regDefault s.regs (regKey n copy word) (BitVec.ofNat 32 v) }

/-- A 48-bit performance counter as held: VALUE, and WRAP in bit 48 (Table 20.5). -/
def State.cnt (s : State) (n : RegName) (copy : Nat) : Nat := SMap.getD (fun _ => 0) s.cnts (regKey n copy 0)

/-- Advances a performance counter: it continues from 0 past 2^48 − 1 and sets WRAP (R540). -/
def State.count (s : State) (n : RegName) (copy k : Nat) : State :=
  let c := s.cnt n copy
  let v := c % 2 ^ 48 + k
  let c' := v % 2 ^ 48 + (if 2 ^ 48 ≤ v ∨ bit c 48 then 2 ^ 48 else 0)
  { s with cnts := SMap.setD (fun _ => 0) s.cnts (regKey n copy 0) c' }

/-- Advances counter `k` of a block of counters by one. -/
def State.tick (s : State) (n : RegName) (copy : Nat) : State := s.count n copy 1

/-- A fresh free value. -/
def State.freshWord (s : State) : Nat × State := (Config.freeWord s.free, { s with free := s.free + 1 })

/-- Epoch length exponent, epoch length, and the number of the epoch of a tick (R112). -/
def State.epochLog2 (s : State) : Nat := s.fld .timeCfg 0 0 4 0
def State.epochLen (s : State) : Nat := 2 ^ s.epochLog2
def State.epochOf (s : State) (t : Nat) : Nat := t / s.epochLen
def State.now (s : State) : Nat := s.time.bt
def State.epoch (s : State) : Nat := s.epochOf s.time.bt

/-- INGRESS_BOUND, FABRIC_BOUND, FENCE (Table 4.6), RELEASE_LAT (R123). -/
def State.ingressBound (s : State) : Nat := s.fld .timeFence 0 0 15 0
def State.fabricBound (s : State) : Nat := s.fld .timeFence 0 0 31 16
def State.fence (s : State) : Nat := s.ingressBound + s.fabricBound + 256
def State.releaseLat (s : State) : Nat := s.fence + s.fld .timeLock 0 0 15 0

/-- This device's ID (R14), the mode bit (R328), tenancy. -/
def State.device (s : State) : Nat := s.rd .braidId 0 0 % 8192
def State.lockstep (s : State) : Bool := s.fld .detCfg 0 0 0 0 == 1
def State.tenancy (s : State) : Bool := s.sec.tenancy

/-- Extends a 32-bit EN to a full epoch number near the current one (R113). -/
def extendEN (cur en : Nat) : Int :=
  let d := sgn 32 (wrapI 32 ((en : Int) - (cur % 2 ^ 32 : Nat)))
  (cur : Int) + d

/-- Writes an event into the log, and into the event queue when events are sent (R81, R542). `queue` is false for the
ATTN_LATCHED event of EVENT_LOST (R90). Answers whether the event was lost. -/
def State.logEvent (s : State) (code unit tenant detail : Nat) (queue : Bool) : State × Bool :=
  let q := s.trib.evtSeq + 1
  let e : EvtEntry := { seq := q, stamp := s.time.bt, code := code, unit := unit % 65536, tenant := tenant % 256
                        detail := detail % 2 ^ 64 }
  let log := s.trib.evtLog.put (q % 65536) e
  let send := queue && s.fld .tribEvt 0 4 21 21 == 1
  if send = false then ({ s with trib := { s.trib with evtSeq := q, evtLog := log } }, false)
  else if Config.eventQueueSize ≤ s.trib.evtQueue.length then
    ({ s with trib := { s.trib with evtSeq := q, evtLog := log, evtLost := s.trib.evtLost + 1 } }, true)
  else ({ s with trib := { s.trib with evtSeq := q, evtLog := log, evtQueue := s.trib.evtQueue ++ [e] } }, false)

/-- The RW1C causes of ATTN_CAUSEn that are held (Table 3.15). -/
def attnDeadlock : Nat := 1
def attnTaskFault : Nat := 2
def attnLasting : Nat := 3
def attnMcastPruned : Nat := 6
def attnSupply : Nat := 9
def attnMirror : Nat := 10
def attnKeyRefused : Nat := 11
def attnSessionFull : Nat := 14
def attnCaptureFull : Nat := 15
def attnEventLost : Nat := 16

/-- A RW1C cause of a tenant is set. -/
def State.attnBit (s : State) (tenant c : Nat) : Bool := bit (s.rd .attnCause tenant 0) c

/-- Sets a cause in one copy. -/
def State.setAttnBit (s : State) (tenant c : Nat) : State :=
  s.wr .attnCause tenant 0 (setBit (s.rd .attnCause tenant 0) c true)

/-- The copies a cause is set in: all for a device-wide cause (`none`), else the tenant's. -/
def attnCopies : Option Nat → List Nat
  | none => [0, 1, 2, 3]
  | some t => [t]

/-- Latches a cause and raises ATTN_LATCHED for a change from 0 to 1 (R88, R90), without its own loss. -/
def State.latch1 (s : State) (who : Option Nat) (c : Nat) (queue : Bool) : State × Bool :=
  let cs := attnCopies who
  let new := cs.any (fun t => !s.attnBit t c)
  let s := cs.foldl (fun s t => s.setAttnBit t c) s
  if new then s.logEvent 0x0300 0xFFFF (who.getD 0xFF) (c + 2 ^ 32 * (s.epoch % 2 ^ 32)) queue else (s, false)

/-- Latches EVENT_LOST in the copy of the tenant whose event was lost, of a device event in each tenant's copy (R88); its own ATTN_LATCHED event is
not queued (R90). -/
def State.latchLost (s : State) (tenant : Nat) : State :=
  (if tenant < 4 then [tenant] else [0, 1, 2, 3]).foldl (fun s t => (s.latch1 (some t) attnEventLost false).1) s

/-- Latches an attention cause. -/
def State.latch (s : State) (who : Option Nat) (c : Nat) : State :=
  let r := s.latch1 who c true
  if r.2 then r.1.latchLost (who.getD 0xFF) else r.1

/-- Raises an event (R81, R542): a full event queue loses it and latches EVENT_LOST. -/
def State.event (s : State) (code unit tenant detail : Nat) : State :=
  let r := s.logEvent code unit tenant detail true
  if r.2 then r.1.latchLost tenant else r.1

/-- Little-endian DETAIL bytes from (width, value) fields. -/
def detailOf : List (Nat × Nat) → Nat
  | [] => 0
  | (w, v) :: l => v % 256 ^ w + 256 ^ w * detailOf l

/-- A 32-bit field that saturates. -/
def sat32 (v : Nat) : Nat := min v (2 ^ 32 - 1)

/-- Headwater's part of a tenant. -/
def State.hwT (s : State) (t : Nat) : HwTenant := nth s.head.tenants t {}
def State.setHwT (s : State) (t : Nat) (h : HwTenant) : State :=
  { s with head := { s.head with tenants := setNth s.head.tenants t h } }

/-- The set instance that serves a tenant's records of an epoch (R120, R421): before the switch the old one, or none. -/
def State.instFor (s : State) (t epoch : Nat) : Option SetInst :=
  let h := s.hwT t
  if epoch < h.switchEpoch then h.old else h.active
def State.setFor (s : State) (t epoch : Nat) : ModelSet :=
  match s.instFor t epoch with
  | some i => i.set
  | none => {}
def State.active (s : State) (t : Nat) : Option SetInst := (s.hwT t).active

/-- One hub die's Weir and fetch engines. -/
def State.hub (s : State) (h : Nat) : WeirHub := nth s.weir.hubs h {}
def State.setHub (s : State) (h : Nat) (w : WeirHub) : State :=
  { s with weir := { s.weir with hubs := setNth s.weir.hubs h w } }
def State.ent? (s : State) (h i : Nat) : Option RecEnt := (s.hub h).recs.find? i
def State.setEnt (s : State) (h i : Nat) (e : RecEnt) : State :=
  let w := s.hub h
  s.setHub h { w with recs := w.recs.put i e }
def State.capOf (s : State) (t : Nat) : CapSt := nth s.cap t {}
def State.setCap (s : State) (t : Nat) (c : CapSt) : State := { s with cap := setNth s.cap t c }

/-- The replay session of a tenant, and Δ of R343. -/
def State.session (s : State) (t : Nat) : Option Session12 := (s.capOf t).session
def State.replayShift (s : State) (x : Session12) : Int := ((x.m : Int) - x.n) * s.epochLen

end Sys2Proof.Machine
end

