-- ==== Sys2Proof/Machine/Clock.lean ====
section
/-! DEFINITION. The clocks of the islands (R5, R509, R515 to R517): how many cycles an island runs in a tick, stretched or not, and how many it has
run. Domain and die n < 8 are VCn and SDn; 8 and 9 are HD0 and HD1. -/

namespace Sys2Proof.Machine

def State.sup (s : State) (d : Nat) : SupplySt := nth s.power.supply d {}
def State.setSup (s : State) (d : Nat) (x : SupplySt) : State :=
  { s with power := { s.power with supply := setNth s.power.supply d x } }
def State.heat (s : State) (d : Nat) : DieHeat := nth s.power.dies d {}
def State.setHeat (s : State) (d : Nat) (x : DieHeat) : State :=
  { s with power := { s.power with dies := setNth s.power.dies d x } }

/-- The islands of a domain are stretched under R509 or R516. -/
def SupplySt.stretched (x : SupplySt) : Bool := x.warn || x.timing

/-- One edge in 2^n is issued on a die's islands (R509, R516, R517): the deeper of the stretches in force (R524). -/
def State.stretchLog2 (s : State) (d : Nat) : Nat :=
  max (if (s.sup d).stretched then s.fld .pwrDroop 0 0 1 0 + 1 else 0) (if (s.heat d).stage = 2 then 1 else 0)

/-- The clock of a die's island in MHz: 1 ns a tick (R5). -/
def State.islandMhz (s : State) (d : Nat) : Nat := if d < 8 then (s.heat d).mhz else 1400
/-- The edges of an island's clock in this tick, and those since the last that a stretch let through: those of before a stretch that has ended are not
issued any more (R509). -/
def State.edgesNow (s : State) (d : Nat) : Nat := ((s.heat d).edges + s.islandMhz d) / 1000
def State.edgesIn (s : State) (d : Nat) : Nat := (s.heat d).skipped % 2 ^ s.stretchLog2 d + s.edgesNow d
/-- The cycles that an island issues in this tick: one in 2^n of its edges. -/
def State.cyclesNow (s : State) (d : Nat) : Nat := s.edgesIn d / 2 ^ s.stretchLog2 d
/-- The cycles that a hub die's island has run. -/
def State.hubCycles (s : State) (h : Nat) : Nat := (s.heat (8 + h)).run

/-- One tick of the islands: each runs its cycles; PWR_STRETCH_CNT counts those of a stretched one (R526). -/
def State.clockTick (s : State) : State :=
  (List.range 10).foldl (fun s d =>
    let k := s.stretchLog2 d
    let n := s.cyclesNow d
    let x := s.heat d
    let s' := s.setHeat d { x with edges := (x.edges + s.islandMhz d) % 1000, skipped := s.edgesIn d % 2 ^ k, run := x.run + n }
    if k = 0 then s' else s'.count .cntPwrStretchCnt d n) s

end Sys2Proof.Machine
end

