-- ==== Sys2Proof/Machine/Units.lean ====
section
/-! DEFINITION. The states of the units (Tables 7.x, 8.10, 9.10, 18.1), the degraded states (Table 18.6), and the live attention causes
(Table 3.15). -/

namespace Sys2Proof.Machine

/-- A tile that is fused off: T56 to T63 of each die on AX7-B (R17, R222), and any the fuses name. -/
def State.tileFused (s : State) (d t : Nat) : Bool :=
  decide ((66 * d + t) ∈ s.fuse.tilesOff) || (s.fuse.grade == 2 && decide (56 ≤ t) && decide (t < 64))
/-- A tile as held: T64 and T65 of each die are spares (R17), a fused tile is neither. -/
def State.tile (s : State) (d t : Nat) : UnitSt :=
  SMap.getD (fun _ => if s.tileFused d t = true then { state := 3 } else if t < 64 then { held := some t } else { state := 1 })
    s.rel.tiles (66 * d + t)
def State.setTile (s : State) (d t : Nat) (u : UnitSt) : State :=
  { s with rel := { s.rel with tiles := s.rel.tiles.put (66 * d + t) u } }

/-- A match unit as held: MU8 of each die is the spare (R17). -/
def State.mu (s : State) (d m : Nat) : UnitSt :=
  SMap.getD (fun _ => if (9 * d + m) ∈ s.fuse.musOff then { state := 3 } else if m < 8 then { held := some m } else { state := 1 })
    s.rel.mus (9 * d + m)
def State.setMu (s : State) (d m : Nat) (u : UnitSt) : State :=
  { s with rel := { s.rel with mus := s.rel.mus.put (9 * d + m) u } }

/-- A vector engine as held: VE32 and VE33 of each hub die are spares (R17). -/
def State.engine (s : State) (h v : Nat) : UnitSt :=
  SMap.getD (fun _ => if v < 32 then {} else { state := 1 }) s.rel.engines (34 * h + v)
def State.setEngine (s : State) (h v : Nat) (u : UnitSt) : State :=
  { s with rel := { s.rel with engines := s.rel.engines.put (34 * h + v) u } }

/-- The tile that serves a logical slot: the one that holds it, or the one that hosts it (R248, R249). -/
def State.slotTile (s : State) (d sl : Nat) : Option Nat :=
  (List.range 66).find? (fun t =>
    let u := s.tile d t
    decide (u.state = 0) && !u.resetting && (decide (u.held = some sl) || decide (u.hosted = some sl)))

/-- The match unit that serves a logical unit (R274, R275). -/
def State.muUnit (s : State) (d l : Nat) : Option Nat :=
  (List.range 9).find? (fun m =>
    let u := s.mu d m
    decide (u.state = 0) && !u.resetting && (decide (u.held = some l) || decide (u.hosted = some l)))

/-- The die links of a scoring die: link 2d to HD0 and 2d + 1 to HD1 (R489). A die that has had both down, or whose
Watersmeet is lastingly faulty, is withdrawn, until a cold reset (Table 18.6). -/
def State.dieWithdrawn (s : State) (d : Nat) : Bool :=
  s.rel.outDies.contains d || (s.rel.dieLinks.contains (2 * d) && s.rel.dieLinks.contains (2 * d + 1)) ||
  (SMap.getD (fun _ => {}) s.rel.wins (0x3000 + d)).lasting
def State.dieOneLink (s : State) (d : Nat) : Bool := s.rel.dieLinks.contains (2 * d) != s.rel.dieLinks.contains (2 * d + 1)

/-- The scoring dies of a tenant (R475): two each with tenancy on, all for tenant 0 with it off. -/
def State.tenantDies (s : State) (t : Nat) : List Nat :=
  if s.tenancy then [2 * t, 2 * t + 1] else if t = 0 then List.range 8 else []

/-- The physical unit that serves a logical unit 9 d + m; of a pair the survivor serves alone (R275). -/
def State.servingUnits (s : State) (m : ModelSet) (x : Nat) : List Nat :=
  (if m.pairFirst x then [x, x + 1] else [x]).filterMap (fun u => s.muUnit (u / 9) (u % 9))
/-- Counts the entry writes of a load into a physical match unit that holds a logical one (R276, R277). -/
def State.countWrites (s : State) (d p l : Nat) (us : SMap MuImage) : State :=
  s.count .cntMuCnt ((9 * d + p) * 5 + 1) (SMap.getD (fun _ => {}) us (9 * d + l)).entries.length
/-- The entry writes of a load of a set, in every unit that holds a logical one. -/
def State.countLoad (s : State) (us : SMap MuImage) : State :=
  us.foldl (fun s u =>
    match s.muUnit (u.1 / 9) (u.1 % 9) with
    | some p => s.countWrites (u.1 / 9) p (u.1 % 9) us
    | none => s) s
/-- A slot of a set for AX7-A is served on AX7-B by the tile of slot s − 8 (R239). -/
def State.movedSlot (s : State) (m : ModelSet) (x : Nat) : Bool := s.fuse.grade == 2 && m.grade == 1 && decide (56 ≤ x % 66)
def State.servingTile (s : State) (m : ModelSet) (x : Nat) : Option Nat :=
  s.slotTile (x / 66) (if s.movedSlot m x then x % 66 - 8 else x % 66)

/-- A replica of an ensemble is available when each of its slots and units is (R248, R266). -/
def State.replicaOk (s : State) (m : ModelSet) (e r : Nat) : Bool :=
  (m.replicaSlots e r).all (fun x => (s.servingTile m x).isSome && !s.dieWithdrawn (x / 66)) &&
  (m.replicaUnits e r).all (fun x => !(s.servingUnits m x).isEmpty && !s.dieWithdrawn (x / 9))

/-- A slot or a logical unit that no unit holds, hosts, resets or loads is lastingly unavailable (R266, R487). -/
def State.slotLost (s : State) (d sl : Nat) : Bool :=
  s.dieWithdrawn d || (List.range 66).all (fun t =>
    let u := s.tile d t
    u.state == 3 || (u.held != some sl && u.hosted != some sl && u.loading != some sl))
def State.unitLost (s : State) (d l : Nat) : Bool :=
  s.dieWithdrawn d || (List.range 9).all (fun t =>
    let u := s.mu d t
    u.state == 3 || (u.held != some l && u.hosted != some l && u.loading != some l))
def State.muLost (s : State) (m : ModelSet) (x : Nat) : Bool :=
  (if m.pairFirst x then [x, x + 1] else [x]).all (fun u => s.unitLost (u / 9) (u % 9))
def State.tileLost (s : State) (m : ModelSet) (x : Nat) : Bool :=
  s.slotLost (x / 66) (if s.movedSlot m x then x % 66 - 8 else x % 66)
/-- A replica is removed from the replica count (R487). -/
def State.replicaLost (s : State) (m : ModelSet) (e r : Nat) : Bool :=
  (m.replicaSlots e r).any (s.tileLost m) || (m.replicaUnits e r).any (s.muLost m)
def State.tableLost (s : State) (m : ModelSet) (t r : Nat) : Bool := (m.tableUnits t r).any (s.muLost m)
def State.tableOk (s : State) (m : ModelSet) (t r : Nat) : Bool :=
  (m.tableUnits t r).all (fun x => !(s.servingUnits m x).isEmpty && !s.dieWithdrawn (x / 9))

/-- The replicas of a set that have been removed from their replica counts (R266, R487): of rule tables (true) and of ensembles, as index and
replica. -/
def State.removed (s : State) (m : ModelSet) : List (Bool × Nat × Nat) :=
  m.tables.flatMap (fun t => ((List.range (m.tableReplicas t.index)).filter (s.tableLost m t.index)).map (fun r => (true, t.index, r))) ++
  m.ensembles.flatMap (fun e => ((List.range (m.replicas e.index)).filter (s.replicaLost m e.index)).map (fun r => (false, e.index, r)))
/-- The replica that the order key chooses (R145, R266, R487): by the count k over the replicas that stood when the record was admitted; where that one
has been removed since, over those that remain. -/
def keyReplica (k n : Nat) (before now : Nat → Bool) : Option Nat :=
  let pick := fun (gone : Nat → Bool) => let l := (List.range n).filter (fun r => !gone r); l[k % max 1 l.length]?
  match pick before with
  | some r => if now r then pick now else some r
  | none => pick now

/-- A stage of a set with no available replica (Table 18.6, bit 5). -/
def State.stageLost (s : State) (m : ModelSet) : Bool :=
  m.cascades.any (fun c => c.stages.any (fun st =>
    (List.range (m.replicas st.ensemble)).all (fun r => s.replicaLost m st.ensemble r))) ||
  m.tables.any (fun t => (List.range (m.tableReplicas t.index)).all (fun r => s.tableLost m t.index r))

/-- A die has a slot or a logical unit that another unit hosts (bit 4). -/
def State.dieRemapped (s : State) (d : Nat) : Bool :=
  (List.range 66).any (fun t => (s.tile d t).hosted.isSome) || (List.range 9).any (fun m => (s.mu d m).hosted.isSome)

/-- A die has a unit that hosts another slot, or is being loaded as its host (R249, R275). -/
def State.dieHosting (s : State) (d : Nat) : Bool :=
  let p := fun (u : UnitSt) => u.hosted.isSome || (u.state == 0 && u.loading.isSome)
  (List.range 66).any (fun t => p (s.tile d t)) || (List.range 9).any (fun m => p (s.mu d m))

/-- A pair that has lost one of its two units, with no spare or host for it (bit 6, R275): while a spare loads or a unit is reset, it has lost none. -/
def State.pairSingle (s : State) (m : ModelSet) : Bool :=
  m.rows.any (fun r => r.engine == 1 && r.paired && (List.range (r.replicas * r.span)).any (fun j => r.unitSteps.any (fun x =>
    let d := r.slot / 9 + j
    let u := r.firstUnit + x
    s.unitLost d u != s.unitLost d (u + 1))))

/-- An Eddy region of the tenant: its share of each stack's Eddy area is not 0 (R448); tenant 0 holds all of it with tenancy off. -/
def State.hasEddyRegion (s : State) (t : Nat) : Bool := if s.tenancy then s.rd .memEddyShare t 0 != 0 else t == 0

/-- Both ports of an enabled torus port's direction are down (R393). -/
def State.wayDown (s : State) (b : Nat) : Bool :=
  let up := fun (p : Nat) => (SMap.getD (fun _ => {}) s.braid.ports p).step == 6
  s.fld .braidPortCfg b 0 0 0 == 1 && s.fld .braidPortCfg b 0 2 1 == 0 && !up b && !up ((b + 6) % 12)

/-- The degraded states of a tenant (Table 18.6), as REL_DEGn shows them. -/
def State.degBits (s : State) (t : Nat) : Nat :=
  let m := match s.active t with | some i => i.set | none => {}
  let ds := s.tenantDies t
  bitmap [
    s.time.state == 2 || s.time.expiring,
    (List.range 12).any s.wayDown,
    ds.any s.dieOneLink,
    ds.any s.dieWithdrawn,
    ds.any s.dieRemapped,
    s.stageLost m,
    s.pairSingle m,
    !s.eddy.lost.isEmpty && s.hasEddyRegion t,
    s.mem.stk.any StackSt.unmirrored,
    (List.range 2).any (fun h => decide (((List.range 34).filter (fun v => (s.engine h v).state == 0 || (s.engine h v).state == 2)).length < 32)),
    s.rel.wins.any (fun u => u.2.lasting && (u.1 / 4096 == 6 || u.1 / 4096 == 8 || u.1 / 4096 == 9)) ]

/-- The port-number form of a record port: index 2n + s. -/
def portN (p : Nat) : Nat := p / 2
def portS (p : Nat) : Nat := p % 2
def State.port (s : State) (p : Nat) : PortSt := SMap.getD (fun _ => {}) s.trib.ports p
def State.setPort (s : State) (p : Nat) (x : PortSt) : State :=
  { s with trib := { s.trib with ports := s.trib.ports.put p x } }
def State.portCfg (s : State) (p hi lo : Nat) : Nat := s.fld .tribPortCfg p 0 hi lo
def State.portTenant (s : State) (p : Nat) : Nat := if s.tenancy then s.portCfg p 5 4 else 0

/-- The port exists in the arrangement of its hub die (Table 3.1). -/
def State.portUsed (s : State) (p : Nat) : Bool :=
  let a := nth s.trib.arrange (p / 16) 0
  decide (p < 32) && (if a = 2 then true else if a = 1 then p % 4 == 0 else p % 2 == 0)

/-- An enabled record port or Braid port of the tenant is not up (LINK_DOWN). Braid ports between members belong to all. -/
def State.linkDown (s : State) (t : Nat) : Bool :=
  (List.range 32).any (fun p => s.portUsed p && s.portCfg p 0 0 == 1 && s.portTenant p == t && !(s.port p).up) ||
  (List.range 12).any (fun b => s.fld .braidPortCfg b 0 0 0 == 1 && (SMap.getD (fun _ => {}) s.braid.ports b).step != 6 &&
    (s.fld .braidPortCfg b 0 2 1 != 1 || !s.tenancy || s.fld .braidPortCfg b 0 5 4 == t))

/-- A die serving the tenant has no spare left, and work is remapped (SPARES_OUT, bits 4, 5, 6 and 9). -/
def State.sparesOut (s : State) (t : Nat) : Bool :=
  let b := s.degBits t
  bit b 4 || bit b 5 || bit b 6 || bit b 9

/-- ATTN_CAUSEn as it reads: latched causes, and the RO causes as their conditions hold (R88). -/
def State.attnCause (s : State) (t : Nat) : Nat :=
  let c := s.rd .attnCause t 0
  let ro : List (Nat × Bool) := [(0, (s.hwT t).missed), (4, s.sparesOut t), (5, bit (s.degBits t) 7),
    (7, s.weir.hubs.any WeirHub.throttled), (8, s.power.dies.any (fun d => decide (1 ≤ d.stage)) || s.mem.stk.any StackSt.hot), (12, s.linkDown t),
    (13, s.time.isRoot && !s.time.ptpLocked)]
  ro.foldl (fun v b => setBit v b.1 b.2) c

/-- An unmasked cause is pending for the tenant: the ATTN bit (R84, R542). -/
def State.attn (s : State) (t : Nat) : Bool := s.attnCause t &&& s.rd .attnMask t 0 != 0

/-- A degraded state holds for the tenant: the DEGRADED bit (R84, R497). -/
def State.degraded (s : State) (t : Nat) : Bool := s.degBits t != 0

/-- Raises REL_DEGRADED_CHANGE for each tenant whose REL_DEGn differs from what was last reported (R497). -/
def State.noteDegraded (s : State) : State :=
  (List.range 4).foldl (fun s t =>
    let b := s.degBits t
    if nth s.rel.degraded t 0 = b then s
    else
      let s := { s with rel := { s.rel with degraded := setNth s.rel.degraded t b } }
      s.event 0x1204 0xFFFF t (detailOf [(4, b), (4, s.epoch)])) s

end Sys2Proof.Machine
end

