-- ==== Sys2Proof/Machine/Reply.lean ====
section
/-! DEFINITION. Audit digests, the capture ring, and the way of a reply: held, gathered, queued, sent (chapters 3, 4 and 12). -/

namespace Sys2Proof.Machine

/-- An order key in its 16-byte form (Table 4.4). -/
def orderKeyBytes (k : OrderKey) : List Byte :=
  leBytes 8 k.stamp ++ leBytes 4 (k.seq % 65536 + k.dev % 8192 * 65536) ++ leBytes 1 (k.port % 16) ++ leBytes 3 0

/-- A snapshot body (Table 6.11); `mirror` false clears SNAPS bit 2 (Table 12.4). -/
def snapBytes (b : SnapBody) (mirror : Bool) : List Byte :=
  orderKeyBytes b.key ++ leBytes 1 b.keyIndex ++ leBytes 1 b.state ++
  leBytes 1 (b2n b.pre.isSome + 2 * b2n b.post.isSome + 4 * b2n (mirror && b.mirror)) ++ leBytes 1 0 ++
  leBytes 4 b.satmap ++ leBytes 4 b.livePre ++ leBytes 4 b.livePost ++ leBytes 8 b.lastStamp ++
  (b.pre.getD []) ++ (b.post.getD [])

/-- The bytes of a record as received, from CLASS to the end of its padding (Table 3.4): its header, then its payload; of a REPLAY record, those of the
record in its capture entry. One that could not be delimited (R70) has none (DESIGN CHOICE, log 110). -/
def recordBytes (r : Rec) : List Byte := r.hdr ++ r.payload

/-- The audit digest of a record (R336, Table 12.4): set digest, order key, record, snapshots in KEY_INDEX order, bare payload. -/
def auditDigest (setDigest : Nat) (k : OrderKey) (raw snaps bare : List Byte) : Nat :=
  sipHash24 0 (leBytes 48 setDigest ++ orderKeyBytes k ++ raw ++ snaps ++ bare)

/-- The model-set digest of a set in effect for an epoch (R270, R320): each change whose target has come is chained, in order of target,
a rule edit before a capacity commit. -/
def SetInst.digestAt (x : SetInst) (epoch : Nat) : Nat :=
  (x.changes.filter (fun c => c.done || decide (c.target ≤ epoch))).foldl (fun d c => Config.sha384 (leBytes 48 d ++ c.body) % 2 ^ 384) x.set.digest
/-- The digest in effect at an epoch of the device's own: the changes whose target has come on this device, also in a replay session (R346). -/
def SetInst.digestNow (x : SetInst) (epoch : Nat) : Nat :=
  (x.changes.filter (fun c => c.done || decide (c.due ≤ epoch))).foldl (fun d c => Config.sha384 (leBytes 48 d ++ c.body) % 2 ^ 384) x.set.digest
/-- SET_ID, SET_VERSION and digest of the set that a tenant has in effect at an epoch of the device (0 with none). -/
def State.setAt (s : State) (t epoch : Nat) : Nat × Nat × Nat :=
  match s.active t with
  | some i => (i.set.setId, i.set.version, i.digestNow epoch)
  | none => (0, 0, 0)
/-- The model-set digest in effect for a tenant's stamp. -/
def State.setDigest (s : State) (t stamp : Nat) : Nat :=
  match s.instFor t (s.epochOf stamp) with
  | some i => i.digestAt (s.epochOf stamp)
  | none => 0

/-- The reply queue of a port: replies gathered, queued or held for it (R67). -/
def State.rqLevel (s : State) (p : Nat) : Nat :=
  let x := s.port p
  let n := fun (l : List TxFrame) => (l.map (fun f => f.replies.length)).sum
  n x.gather + n x.txq + (s.trib.held.filter (fun r => match r.dest with
    | .eth n' s' _ _ _ _ _ => 2 * n' + s' == p
    | _ => false)).length

/-- The bytes that a frame of replies takes (R82). -/
def State.frameLen (s : State) (p : Nat) (f : TxFrame) : Nat :=
  let v6 := match f.dest with | .eth _ _ _ v6 _ _ _ => v6 | _ => false
  frameWire v6 (s.portCfg p 3 3 == 1) (s.portCfg p 9 9 == 1) (32 + (f.replies.map replySize).sum)

/-- MAX_FRAME and COALESCE of a hub die (Table 21.4). -/
def State.maxFrame (s : State) (h : Nat) : Nat := s.fld .tribReply h 0 13 0
def State.coalesce (s : State) (h : Nat) : Nat := s.fld .tribReply h 0 31 16

/-- Adds a reply to the frame that gathers for its destination (R82): a frame it would take past MAX_FRAME leaves first, and one that
holds 64 replies leaves. -/
def State.gather (s : State) (p : Nat) (r : Reply) : State :=
  let x := s.port p
  let old := x.gather.find? (fun f => f.dest = r.dest)
  let rest := x.gather.filter (fun f => f.dest ≠ r.dest)
  let fresh : TxFrame := { dest := r.dest, replies := [r], first := s.now }
  match old with
  | none => s.setPort p { x with gather := rest ++ [fresh] }
  | some f =>
    let g := { f with replies := f.replies ++ [r] }
    if s.maxFrame (p / 16) < s.frameLen p g then s.setPort p { x with gather := rest ++ [fresh], txq := x.txq ++ [f] }
    else if g.replies.length = 64 then s.setPort p { x with gather := rest, txq := x.txq ++ [g] }
    else s.setPort p { x with gather := rest ++ [g] }

/-- Splits replies of one destination into frames of at most 64 that fit MAX_FRAME. -/
def State.packFrames (s : State) (p : Nat) : List Reply → List TxFrame → List TxFrame
  | [], fs => fs
  | r :: rs, fs =>
    match fs.getLast? with
    | some f =>
      let g := { f with replies := f.replies ++ [r] }
      if f.dest = r.dest ∧ f.replies.length < 64 ∧ s.frameLen p g ≤ s.maxFrame (p / 16) then
        State.packFrames s p rs (fs.dropLast ++ [g])
      else State.packFrames s p rs (fs ++ [{ dest := r.dest, replies := [r], first := s.now }])
    | none => State.packFrames s p rs [{ dest := r.dest, replies := [r], first := s.now }]

/-- A Braid port. -/
def State.brPort (s : State) (b : Nat) : BrPort := SMap.getD (fun _ => {}) s.braid.ports b
def State.setBrPort (s : State) (b : Nat) (x : BrPort) : State :=
  { s with braid := { s.braid with ports := s.braid.ports.put b x } }

/-- The flits a message takes: 240 bytes of envelope and padded body each (R380, R387). -/
def brFlits (m : BrMsg) : Nat := ceilDiv (16 + (padTo 8 m.body).length) 240

/-- A port's direction: dimension and sign (Table 14.1); the size of the ring of a dimension; a device's coordinate. -/
def portDim (b : Nat) : Nat := b % 6 / 2
def portPos (b : Nat) : Bool := b % 2 == 0
def State.torusLen (s : State) (k : Nat) : Nat :=
  let c := s.rd .braidCfg 0 0
  nth [bits c 4 0, bits c 8 5, bits c 12 9] k 0 + 1
def coordOf (d k : Nat) : Nat := nth [bits d 4 0, bits d 8 5, bits d 12 9] k 0

/-- A message that leaves by a torus port over the link between coordinates n − 1 and 0 moves to dateline class 1 (R391). -/
def State.crossing (s : State) (b : Nat) (m : BrMsg) : BrMsg :=
  let c := coordOf s.device (portDim b)
  let cross := if portPos b then decide (c + 1 = s.torusLen (portDim b)) else c == 0
  if s.fld .braidPortCfg b 0 2 1 = 0 ∧ cross = true then { m with flags := setBit m.flags 3 true } else m

/-- What the dies hold of a record is cleared, but for the optional work that stays. -/
def State.clearRec (s : State) (h i : Nat) (stay : Bool) : State :=
  let mine := fun (hub ent : Nat) (opt : Option Nat) => hub == h && ent == i && !(stay && opt.isSome)
  let d := s.die
  { s with die := { d with
                    bufs := d.bufs.filter (fun x => !mine x.hub x.ent x.opt), ins := d.ins.filter (fun x => !mine x.hub x.ent x.opt)
                    recs := d.recs.filter (fun x => !mine x.hub x.ent x.opt), parts := d.parts.filter (fun x => !mine x.hub x.ent x.opt) } }

/-- A record's granted optional work that has not ended: it runs to completion, even past the reply (R139). A record that ended before it had a
vector has none to run on. -/
def RecEnt.works (e : RecEnt) : Bool := !e.vec.isEmpty && e.opts.any OptSt.busy

/-- Returns what a reply's record held, as the reply leaves (Table 5.2). What its optional work still needs stays, in phase tail, outside the record
table's count (R139; DESIGN CHOICE, log 67). -/
def State.freeEnt (s : State) (h i : Nat) : State :=
  match s.ent? h i with
  | none => s
  | some e =>
    let w := s.hub h
    let w := { w with poolUsed := w.poolUsed - e.vecBlocks - e.recBlocks }
    let recs := if e.works then w.recs.put i { e with phase := .tail, vecBlocks := 0, recBlocks := 0, opts := e.opts.map OptSt.cut } else w.recs.del i
    (s.setHub h { w with recs := recs }).clearRec h i e.works

/-- A reply of this device as it enters a link (R84, R125): ATTN and DEGRADED are sampled, and LATE is set past T + TX_SLACK. -/
def State.stampReply (s : State) (m : BrMsg) : BrMsg :=
  match m.wait with
  | none => m
  | some w =>
    let old := leAt m.body 4 2
    let late := bit old 14 || (match w.1 with | some t => decide (t + s.fld .timeLock 0 0 23 16 < s.now) | none => false)
    let st := setBit (setBit (setBit old 15 (s.attn m.tenant)) 14 late) 11 (s.degraded m.tenant)
    { m with wait := none, body := m.body.take 4 ++ leBytes 2 st ++ m.body.drop 6 }

/-- The link that a port's sequence numbers belong to (R383): the direction, of a torus port; the port itself, of another. -/
def State.linkOf (s : State) (b : Nat) : Nat := if s.fld .braidPortCfg b 0 2 1 = 0 then b % 6 else 6 + b

/-- A virtual channel's messages on a port: accepted and not acknowledged, which hold its credits; and waiting (R392). -/
def BrPort.inUse (x : BrPort) (v : Nat) : Nat := (x.unacked.filter (fun m => m.flags % 4 == v)).length
def BrPort.waits (x : BrPort) (v : Nat) : Bool := x.egress.any (fun m => m.flags % 4 == v)

/-- The link layer of a port accepts a message: it is up, the message's channel has one of its 512 credits and no earlier message waiting (R390, R392;
log 96), and a command list, signal or repair request for an attached endpoint has that endpoint's credit (R403). -/
def State.brFree (s : State) (b : Nat) (m : BrMsg) (credit : Bool) : Bool :=
  let x := s.brPort b
  let hold := s.fld .braidPortCfg b 0 2 1 == 1 && (m.type == 5 || m.type == 8 || m.type == 9)
  x.step == 6 && (credit || !hold) && decide (x.inUse (m.flags % 4) < 512) && !x.waits (m.flags % 4)

/-- A message enters its link under the next number of the link's sequence, and is kept until it is acknowledged (R383). The record of a reply returns
what it held as the reply leaves. -/
def State.brAccept (s : State) (b : Nat) (m : BrMsg) : State :=
  let x := s.brPort b
  let k := s.linkOf b
  let n := SMap.getD (fun _ => 0) s.braid.txSeq k
  let out := { s.stampReply m with seq := n, que := none, since := 0 }
  let s := s.setBrPort b { x with unacked := x.unacked ++ [out] }
  let s := { s with braid := { s.braid with sentOut := s.braid.sentOut ++ [(b, out)], txSeq := s.braid.txSeq.put k (n + 1) } }
  let s := s.count .cntBraidPortCnt (b * 9) (brFlits m)
  match m.wait with
  | some (_, some i) => s.freeEnt (b / 6) i
  | _ => s

/-- A message waits in a port's egress queue. -/
def State.brQueue (s : State) (b : Nat) (m : BrMsg) : State :=
  let x := s.brPort b
  s.setBrPort b { x with egress := x.egress ++ [m] }

/-- Sends a Braid message by a port: it leaves at once where the link layer accepts it, else it waits. -/
def State.brSend (s : State) (b : Nat) (m : BrMsg) : State :=
  let m := s.crossing b m
  if s.brFree b m false then s.brAccept b m else s.brQueue b { m with since := s.now }

/-- The messages that wait at a port leave in order, as far as its link layer accepts them; `credit` that the endpoints attached to it return credit. -/
def State.brPump (s : State) (b : Nat) (credit : Bool) : State :=
  let x := s.brPort b
  x.egress.foldl (fun s m => if s.brFree b m credit then s.brAccept b m else s.brQueue b m) (s.setBrPort b { x with egress := [] })

/-- Raises BRAID_ATT_DROP for what a port discarded in an epoch that is over (R403, R406). DESIGN CHOICE (log 22): as the epoch ends, with its count. -/
def State.attDropDue (s : State) (b : Nat) : State :=
  match s.braid.attDrop.find? b with
  | none => s
  | some o =>
    if o.1 = s.epoch then s
    else
      let s := { s with braid := { s.braid with attDrop := s.braid.attDrop.del b } }
      s.event 0x0E06 b 0xFF (detailOf [(4, o.1), (4, sat32 o.2)])

/-- Counts a message for an attached endpoint that is discarded (R403, R404). -/
def State.attDrop (s : State) (b : Nat) : State :=
  let s := (s.tick .cntBraidDevCnt 1).attDropDue b
  let n := match s.braid.attDrop.find? b with | some o => o.2 + 1 | none => 1
  { s with braid := { s.braid with attDrop := s.braid.attDrop.put b (s.epoch, n) } }

/-- An endpoint number lies below the ENDPOINTS that a port's peer announced (R404). -/
def BrPort.serves (x : BrPort) (dst : Nat) : Bool := decide (bits dst 25 18 < max 1 x.endpoints)

/-- The hub die of a destination. -/
def destHub : Dest → Nat
  | .eth n _ _ _ _ _ _ => n / 8
  | .braid b _ _ => b / 6

/-- A reply is handed to the Braid port its record arrived on (R24, R125, R388): a REPLY message to the record's SRC; for an endpoint that the port's
attached device does not have it is discarded (R404), and the record returns what it held. -/
def State.replyBraid (s : State) (b dst : Nat) (r : Reply) : State :=
  let none_ := s.fld .braidPortCfg b 0 2 1 == 1 && !(s.brPort b).serves dst
  if none_ then
    match r.recIdx with
    | some i => (s.attDrop b).freeEnt (b / 6) i
    | none => s.attDrop b
  else
    s.brSend b { type := 2, flags := 1, dst := dst, src := s.device, tenant := r.tenant, body := replyBytes r false false, wait := some (r.release, r.recIdx) }

/-- Adds a late reply to the frame of the late replies that are complete at this tick for its destination, while that waits and has room (R124). -/
def State.gatherLate (s : State) (p : Nat) (r : Reply) : List TxFrame → List TxFrame
  | [] => [{ dest := r.dest, replies := [r], first := s.now }]
  | f :: fs =>
    let g := { f with replies := f.replies ++ [r] }
    if f.dest = r.dest ∧ f.first = s.now ∧ f.replies.all Reply.late ∧ f.replies.length < 64 ∧ s.frameLen p g ≤ s.maxFrame (p / 16) then g :: fs
    else f :: s.gatherLate p r fs

/-- A reply goes on its way: by Braid at once; by a record port into the frame that gathers (R82), late with the late replies of its tick (R124), or
`alone`, at once in a frame of its own (R69). -/
def State.releaseReply (s : State) (r : Reply) (alone : Bool) : State :=
  match r.dest with
  | .braid b _ dst => s.replyBraid b dst r
  | .eth n sub _ _ _ _ _ =>
    let p := 2 * n + sub
    let x := s.port p
    if alone then s.setPort p { x with txq := x.txq ++ [{ dest := r.dest, replies := [r], first := s.now }] }
    else if r.late then s.setPort p { x with txq := s.gatherLate p r x.txq }
    else s.gather p r

/-- STALE of a stamp's epoch (Table 3.12). -/
def State.staleAt (s : State) (t epoch : Nat) : Bool :=
  (s.hwT t).stale.any (fun x => decide (x.1 ≤ epoch) && (match x.2 with | none => true | some e => decide (epoch < e)))

/-- Sends a reply that has just become complete: in Fast mode it gathers; in Lockstep mode it is held to its release tick, or
leaves late at once (R82, R83, R123, R124). `at_` is the tick its record is served at. -/
def State.sendReply (s : State) (at_ : Nat) (lock : Bool) (r : Reply) : State :=
  let r := { r with stale := s.staleAt r.tenant (s.epochOf r.key.stamp) }
  if lock = false then s.releaseReply r false
  else
    let t := at_ + s.releaseLat
    if s.now ≤ t then { s with trib := { s.trib with held := s.trib.held ++ [{ r with release := some t }] } }
    else s.releaseReply { r with release := some t, late := true } false

/-- Adds the digest of a record's reply to the digest sum of its epoch, and the record to its count (R338). -/
def State.addDigest (s : State) (t : Nat) (k : OrderKey) (d : Nat) : State :=
  let c := s.capOf t
  let e := s.epochOf k.stamp
  let o := SMap.getD (fun _ => ((0, 0) : Nat × Nat)) c.digests e
  s.setCap t { c with digests := c.digests.put e ((o.1 + d) % 2 ^ 64, o.2 + 1) }

/-- Sends the reply of a record: counts and hashes it for its epoch when EDIG is set (R338), then sends it. -/
def State.answer (s : State) (at_ : Nat) (lock : Bool) (raw snaps bare : List Byte) (r : Reply) : State :=
  let edig := s.fld .capCfg r.tenant 0 2 2 == 1
  let d := if edig then auditDigest (s.setDigest r.tenant r.key.stamp) r.key raw snaps bare else 0
  (s.addDigest r.tenant r.key d).sendReply at_ lock r

/-- The size of a tenant's capture ring in bytes (R341). -/
def State.ringSize (s : State) (t : Nat) : Nat := s.fld .capSize t 0 10 0 * 2 ^ 26

/-- Drops the oldest entries until `n` more bytes fit; answers the entries, and how many were overwritten. -/
def dropOldest (size n wr : Nat) : List (Nat × List Byte) → List (Nat × List Byte) × Nat
  | [] => ([], 0)
  | e :: l =>
    if wr - e.1 + n ≤ size then (e :: l, 0)
    else
      let r := dropOldest size n wr l
      (r.1, r.2 + 1)

/-- The header of a capture entry (Table 12.5). -/
def capHead (type len tenant outcome cause : Nat) (mid : List Byte) (digest : Nat) : List Byte :=
  leBytes 2 type ++ leBytes 2 len ++ leBytes 1 tenant ++ leBytes 1 outcome ++ leBytes 1 cause ++ leBytes 1 0 ++ mid ++ leBytes 8 digest

/-- Writes one entry into the ring: in WRAP mode over the oldest ones, else only where it fits (R341). Answers whether it was
written. -/
def State.ringWrite (s : State) (t : Nat) (b : List Byte) : State × Bool :=
  let c := s.capOf t
  let size := s.ringSize t
  let wrap := s.fld .capCfg t 0 1 1 == 1
  if size < b.length then (s, false)
  else if c.wr - c.rd + b.length ≤ size then
    ((s.setCap t { c with ring := c.ring ++ [(c.wr, b)], wr := c.wr + b.length }).tick .cntCapCnt (t * 3), true)
  else if wrap then
    let r := dropOldest size b.length c.wr c.ring
    let rd := match r.1 with | [] => c.wr | e :: _ => e.1
    let s := s.setCap t { c with ring := r.1 ++ [(c.wr, b)], rd := rd, wr := c.wr + b.length }
    ((s.latch (some t) attnCaptureFull).tick .cntCapCnt (t * 3), true)
  else (s, false)

/-- Counts a record that was not captured; CAPTURE_FULL latches at the first loss of a run (R341). -/
def State.captureLost (s : State) (t stamp : Nat) : State :=
  let c := s.capOf t
  let l := match c.loss with
    | none => { count := 1, first := stamp, last := stamp : LossRun }
    | some l => { l with count := l.count + 1, last := stamp }
  let s := (s.setCap t { c with loss := some l }).tick .cntCapCnt (t * 3 + 1)
  if c.loss.isNone then s.latch (some t) attnCaptureFull else s

/-- A capture write at ring bytes `lo` to `lo + 511` that the memory rejects (R341, R443): the entries there leave the ring, and those behind close up
(DESIGN CHOICE, log 95); each record is lost like an entry that does not fit, a marker only latches CAPTURE_FULL. -/
def State.captureReject (s : State) (t lo : Nat) : State :=
  let c := s.capOf t
  let size := max 1 (s.ringSize t)
  let hit := fun (e : Nat × List Byte) => decide (0 < e.2.length) && (decide ((e.1 + size - lo) % size < 512) || decide ((lo + size - e.1 % size) % size < e.2.length))
  let r := c.ring.foldl (fun (a : Nat × List (Nat × List Byte)) e => if hit e then a else (a.1 + e.2.length, a.2 ++ [(a.1, e.2)])) (c.rd, [])
  let s := s.setCap t { c with ring := r.2, wr := r.1 }
  (c.ring.filter hit).foldl (fun s e => if leAt e.2 0 2 = 1 then s.captureLost t (leAt e.2 8 8) else s.latch (some t) attnCaptureFull) s

/-- CAPTURE_GAP_ENTRY's effect where the gap entry fits (R341, Table 12.5); answers whether no loss run is left open. -/
def State.gapEntry (s : State) (t : Nat) : State × Bool :=
  match (s.capOf t).loss with
  | none => (s, true)
  | some l =>
    let b := capHead 3 32 t 0 0 (leBytes 8 l.first ++ leBytes 4 (sat32 l.count) ++ leBytes 4 0) l.last
    let r := s.ringWrite t b
    if r.2 then
      let c := r.1.capOf t
      let s := r.1.setCap t { c with loss := none }
      (s.event 0x0C01 t t (detailOf [(4, sat32 l.count), (4, l.first)]), true)
    else (s, false)

/-- Captures a record with its Weir outcome (R339, R340). -/
def State.capture (s : State) (r : Rec) (outcome cause : Nat) : State :=
  let t := r.tenant
  let en := s.fld .capCfg t 0 0 0 == 1 && decide (1 ≤ r.cls) && decide (r.cls ≤ 4) && !r.replay &&
    bit (s.rd .capCfg t 0) (2 + r.cls)
  if en = false then s
  else
    let raw := recordBytes r
    let g := s.gapEntry t
    if g.2 then
      let w := g.1.ringWrite t (capHead 1 (32 + raw.length) t outcome cause (orderKeyBytes r.key) 0 ++ raw)
      if w.2 then w.1 else w.1.captureLost t r.key.stamp
    else g.1.captureLost t r.key.stamp

/-- The epoch marker that closes an epoch of a tenant (R338, R340): written with EN or EDIG set, its DIGEST 0 unless EDIG. One that does not fit is lost,
and latches CAPTURE_FULL (R341). -/
def State.epochMarker (s : State) (t epoch : Nat) : State :=
  let c := s.capOf t
  let o := SMap.getD (fun _ => ((0, 0) : Nat × Nat)) c.digests epoch
  let s := s.setCap t { c with digests := c.digests.del epoch }
  let edig := s.fld .capCfg t 0 2 2 == 1
  if s.fld .capCfg t 0 0 0 == 0 && !edig then s
  else
    let b := capHead 2 32 t (b2n c.session.isSome) 0 (leBytes 8 epoch ++ leBytes 4 (sat32 o.2) ++ leBytes 4 0) (if edig then o.1 else 0)
    let g := s.gapEntry t
    let w := if g.2 then g.1.ringWrite t b else (g.1, false)
    if w.2 then w.1 else w.1.latch (some t) attnCaptureFull

end Sys2Proof.Machine
end

