-- ==== Sys2Proof/Machine/Flow.lean ====
section
/-! DEFINITION. A record's way through the hub die after admission: snapshots, feature program, stage, finish program, settlement, reply
(chapters 5, 7 and 11). -/

namespace Sys2Proof.Machine

/-- The set that serves a record: fixed by the epoch of its stamp (R120); of a REPLAY record by its original stamp (R343). -/
def State.recInst (s : State) (e : RecEnt) : Option SetInst := s.instFor e.r.tenant (s.epochOf e.r.key.stamp)
def State.recSet (s : State) (e : RecEnt) : ModelSet := s.setFor e.r.tenant (s.epochOf e.r.key.stamp)
def State.recPipe (s : State) (e : RecEnt) : Pipeline := ((s.recSet e).pipeline e.r.pipe).getD {}

/-- A record of a stage that is done and waits for an entry of the next stage buffer: its partial keeps its return queue entry (R150). -/
def RecEnt.heldRet (e : RecEnt) : Bool := e.phase == .issued && e.run.issued && e.run.left.isEmpty
/-- The cascade and the stage that a record stands in. -/
def State.recCascade (s : State) (e : RecEnt) : Cascade := ((s.recSet e).cascade (s.recPipe e).cascade).getD {}
def State.recStage (s : State) (e : RecEnt) : Stage := nth (s.recCascade e).stages e.stage {}

/-- The entries of each stage buffer of a cascade (Table 5.12). -/
def State.bufDepth (s : State) (t c : Nat) (m : ModelSet) : Nat :=
  let d := s.fld .weirCascade (t * 32 + c) 0 14 0
  if d ≠ 0 then d else 16384 / max 1 ((m.cascades.map (fun x => x.nstages - 1)).sum)
def State.reserving (s : State) (t c : Nat) : Bool := s.fld .weirCascade (t * 32 + c) 0 15 15 == 1

/-- The entries in use of the stage buffer before stage `k`: held by waiting records, or reserved by records of the stage before. -/
def State.bufUsed (s : State) (h t c k : Nat) : Nat :=
  ((s.hub h).recs.filter (fun r =>
    r.2.r.tenant == t && (s.recPipe r.2).cascade == c && ((r.2.buffered && r.2.stage == k) || (r.2.reserved && r.2.stage + 1 == k)))).length
def State.bufRoom (s : State) (h : Nat) (e : RecEnt) (k : Nat) : Bool :=
  let c := (s.recPipe e).cascade
  decide (s.bufUsed h e.r.tenant c k < s.bufDepth e.r.tenant c (s.recSet e))

/-- Records that keep their return queue entries on a die until a stage buffer entry is free (R150). -/
def State.heldReturns (s : State) (die hub : Nat) : Nat :=
  ((s.hub hub).recs.filter (fun r => r.2.heldRet && ((s.recSet r.2).replicaDies r.2.run.ens r.2.run.replica).contains die)).length
/-- The return queue of a hub die for a die has room: 2,048 partials (Table 5.6). -/
def State.returnRoom (s : State) (die hub : Nat) : Bool :=
  decide ((s.die.parts.filter (fun p => p.die == die && p.hub == hub)).length + s.heldReturns die hub < 2048)

/-- A Watersmeet entry serves a record's run on a die. -/
def DieRec.is (r : DieRec) (die hub ent : Nat) (opt : Option Nat) : Bool :=
  r.die == die && r.hub == hub && r.ent == ent && r.opt == opt
def State.setDieRec (s : State) (x : DieRec) : State :=
  { s with die := { s.die with recs := s.die.recs.map (fun r => if r.is x.die x.hub x.ent x.opt then x else r) } }

/-- A run's die partial is complete: every drain has come, and the preload is written (R290). -/
def DieRec.complete (x : DieRec) : Bool := x.todo.isEmpty && x.expected == 0 && !x.needPre
/-- A die partial that is complete is sent once the hub's return queue has room, and its bank entries are freed (R290, Table 5.6). -/
def State.sendPartial (s : State) (x : DieRec) : State :=
  if x.complete = true ∧ s.returnRoom x.die x.hub = true then
    let p : DiePart := { die := x.die, hub := x.hub, ent := x.ent, stream := x.stream, gen := x.gen, opt := x.opt, sums := x.sums }
    { s with die := { s.die with recs := s.die.recs.filter (fun r => !r.is x.die x.hub x.ent x.opt), parts := s.die.parts ++ [p] } }
  else s.setDieRec x
/-- The complete partials that waited for room in a return queue are sent, oldest first. -/
def State.pumpPartials (s : State) : State := (s.die.recs.filter DieRec.complete).foldl (fun s x => s.sendPartial x) s

/-- A record that waits for the stage buffer entry before its next stage takes one that is free (R150). -/
def State.enterBuffer (s : State) (h i : Nat) (e : RecEnt) : State :=
  let st := s.recStage e
  s.setEnt h i { e with phase := .stage, stage := e.stage + 1, residual := e.run.sums.take st.residual, run := {}, buffered := true
                        reserved := false, ready := s.now }
def State.takeBuffer (s : State) (h t c k : Nat) : State :=
  let wait := (s.hub h).recs.filter (fun r => r.2.heldRet && r.2.r.tenant == t && (s.recPipe r.2).cascade == c && r.2.stage + 1 == k)
  match wait.foldl (fun b r => match b with | none => some r | some q => if r.2.ready < q.2.ready then some r else some q) (none : Option (Nat × RecEnt)) with
  | none => s
  | some (i, e) => if s.bufRoom h e k then (s.enterBuffer h i e).pumpPartials else s

/-- The stage buffer entry that a record leaves, held or reserved, goes to the first record that waits for one; a return queue entry that it leaves
lets a complete partial in (R150). -/
def State.leaveBuffer (s : State) (h : Nat) (e : RecEnt) : State :=
  let c := (s.recPipe e).cascade
  let s := if e.buffered then s.takeBuffer h e.r.tenant c e.stage else s
  let s := if e.reserved then s.takeBuffer h e.r.tenant c (e.stage + 1) else s
  if e.heldRet then s.pumpPartials else s

/-- A record's reply before its code and payload are known (Tables 3.8 and 3.9). -/
def baseReply (r : Rec) : Reply :=
  let sub := match r.dest with | .eth _ sub _ _ _ _ _ => sub | _ => 0
  { cls := replyClass r.cls, pipe := if clsKnown r.cls then r.pipe else 0, recIndex := r.recIndex, recId := r.recId, key := r.key
    reqSeq := r.reqSeq, portByte := r.key.port % 16 + 16 * sub, tenant := r.tenant, dest := r.dest }

/-- The snapshots part of the digest (Table 12.4, part 4): in KEY_INDEX order; a key with no body gives a head of state 4. -/
def snapsPart (e : RecEnt) : List Byte :=
  (e.keys.map (fun k =>
    match e.snaps.find? (fun b => b.keyIndex = k.idx) with
    | some b => snapBytes b false
    | none => snapBytes { key := e.r.key, keyIndex := k.idx, state := 4 } false)).flatten

/-- Answers a record that holds no table entry, or a refused one, with an empty payload (R78). -/
def State.refuseRec (s : State) (r : Rec) (at_ : Nat) (code cause : Nat) : State :=
  s.answer at_ s.lockstep (recordBytes r) [] [] { baseReply r with code := code, cause := cause }

/-- Ends an admitted record with a code and no payload: its entry is returned as the reply leaves (Table 5.2). -/
def State.endRec (s : State) (h i : Nat) (code cause : Nat) : State :=
  match s.ent? h i with
  | none => s
  | some e =>
    let s := (s.setEnt h i { e with phase := .reply, buffered := false, reserved := false }).leaveBuffer h e
    s.answer e.at_ e.lock (recordBytes e.r) (snapsPart e) [] { baseReply e.r with code := code, cause := cause, recIdx := some i }

/-- The state of a key at its record: 4 when no body has come (R176, R178). -/
def keyState (e : RecEnt) (k : KeyRef) : Nat :=
  match e.snaps.find? (fun b => b.keyIndex = k.idx) with
  | some b => b.state
  | none => 4

/-- The NO_ENTITY cause of a record: that of its lowest key in states 2 to 4 (R176). -/
def noEntityCause (e : RecEnt) : Option Nat :=
  (e.keys.find? (fun k => 2 ≤ keyState e k)).map (fun k =>
    match keyState e k with
    | 2 => 1
    | 3 => 3
    | _ => 2)

/-- The results and cause of an UPDATE's ACK (R80, R179): bitmaps of the keys applied and of those refused. -/
def State.ackUpdate (s : State) (h i : Nat) : State :=
  match s.ent? h i with
  | none => s
  | some e =>
    if e.late then s.endRec h i rcFaultRetry 0xC else
    let ok := (e.keys.filter (fun k => keyState e k < 2)).foldl (fun v k => setBit v k.idx true) 0
    let no := (e.keys.filter (fun k => 2 ≤ keyState e k)).foldl (fun v k => setBit v k.idx true) 0
    let payload := leBytes 1 ok ++ leBytes 1 no ++ leBytes 6 0
    let c := noEntityCause e
    let s := s.setEnt h i { e with phase := .reply }
    s.answer e.at_ e.lock (recordBytes e.r) (snapsPart e) payload
      { baseReply e.r with code := if c.isSome then rcNoEntity else rcOk, cause := c.getD 0, payload := payload, recIdx := some i }

/-- The optional slots a pipeline names, in order (R32). -/
def optNamed (p : Pipeline) : List (Nat × Nat) :=
  ((p.optional.zipIdx).filter (fun x => x.1 ≠ 0xFF)).map (fun x => (x.2, x.1))

/-- The map of the rule table slots that hit (Table 3.10). -/
def hitMap (e : RecEnt) : Nat := (e.searches.filter (fun x => x.hit)).foldl (fun v x => setBit v x.slot true) 0

/-- The bare part of a scored reply that precedes the route sections (R79, R336). -/
def bareHead (e : RecEnt) : List Byte := padTo 8 (scorePayload e.stage e.early 0 0 (hitMap e) e.results [] none)

/-- A reply carries its digest (R337). -/
def State.wantDigest (s : State) (e : RecEnt) : Bool := e.r.dig || s.fld .detCfg 0 0 1 1 == 1

/-- The part of a scored reply that precedes the route sections: results, optional section, digest (R79). -/
def State.replyHead (s : State) (e : RecEnt) (dg : Nat) : List Byte :=
  let named := optNamed (s.recPipe e)
  let optMap := named.foldl (fun v x => setBit v x.1 true) 0
  let runMap := (e.opts.filter (fun o => o.state = 3)).foldl (fun v o => setBit v o.slot true) 0
  let sect := named.map (fun x =>
    (x.2, match e.opts.find? (fun o => o.slot = x.1 ∧ o.state = 3) with
      | some o => o.outs.map (BitVec.ofNat 32)
      | none => []))
  padTo 8 (scorePayload e.stage e.early runMap optMap (hitMap e) e.results sect (if s.wantDigest e then some dg else none))

/-- The reply of a scored record (R79, R86, R313): OK for a ROUTE record with no ranked candidate, else the code by precedence, results, optional section, digest; `cs` are a ROUTE record's choices. -/
def State.formReply (s : State) (h i : Nat) (cs : Option (List Choice)) : State :=
  match s.ent? h i with
  | none => s
  | some e =>
    if e.late then s.endRec h i rcFaultRetry 0xC else
    let m := s.recSet e
    let pol := (m.policyAt (s.recPipe e).dispatch).getD {}
    let tail := match cs with
      | none => []
      | some cs => routeBytes cs ++ tagBytes (s.epochOf e.r.key.stamp) e.utag pol.source cs
    let dropped := match cs with
      | none => false
      | some cs => pol.policy != 0 && !cs.isEmpty && !cs.any Choice.dispatched
    let unranked := cs == some []
    let c := if unranked then none else noEntityCause e
    let code := if c.isSome then rcNoEntity else if unranked then rcOk else if dropped then rcDropped else if e.early then rcEarlyExit else rcOk
    let bare := bareHead e ++ tail
    let dg := auditDigest (s.setDigest e.r.tenant e.r.key.stamp) e.r.key (recordBytes e.r) (snapsPart e) bare
    let s := s.setEnt h i { e with phase := .reply }
    s.answer e.at_ e.lock (recordBytes e.r) (snapsPart e) bare
      { baseReply e.r with code := code, cause := c.getD 0, sat := e.sat, payload := s.replyHead e dg ++ tail, recIdx := some i }

/-- Optional readouts formed after a held Lockstep reply was formed, by its release tick: the reply's optional section takes them (R139). -/
def State.patchHeld (s : State) (h i : Nat) (old new : RecEnt) : State :=
  let fix := fun (r : Reply) =>
    if r.recIdx = some i ∧ destHub r.dest = h then
      let tail := r.payload.drop (s.replyHead old 0).length
      let dg := auditDigest (s.setDigest old.r.tenant old.r.key.stamp) old.r.key (recordBytes old.r) (snapsPart old) (bareHead old ++ tail)
      { r with payload := s.replyHead new dg ++ tail }
    else r
  { s with trib := { s.trib with held := s.trib.held.map fix } }

/-- The capacity of a destination in effect for an epoch: the loaded one, changed by the capacity commits whose target has
come (R319). -/
def SetInst.capAt (x : SetInst) (epoch d : Nat) : Nat :=
  let base := ((x.set.dests.find? d).getD {}).cap
  (x.changes.filter (fun c => c.kind = 6 && (c.done || decide (c.target ≤ epoch)))).foldl (fun v c =>
    match c.caps.find? (fun e => e.1 = d) with
    | some e => e.2
    | none => v) base

/-- The epoch of the set that a settlement's records were scored by: in a replay session, the original one (R343). -/
def State.origEpoch (s : State) (t epoch : Nat) : Nat :=
  match s.session t with
  | some z => epoch + z.n - z.m
  | none => epoch
def State.settleInst (s : State) (t epoch : Nat) : SetInst := (s.instFor t (s.origEpoch t epoch)).getD {}

/-- The hub die that counts a destination: the one of its number's low bit, or the other die while that one's Distributary is lastingly faulty
and the other's is not (R317, R492; log 88). -/
def State.countSide (s : State) (dest : Nat) : Nat :=
  let out := fun (h : Nat) => (SMap.getD (fun _ => {}) s.rel.wins (0x8000 + h) : FaultWin).lasting
  if out (dest % 2) && !out (1 - dest % 2) then 1 - dest % 2 else dest % 2

/-- The tick at which settlement of an epoch opens and the tick at which it closes (R310). -/
def State.settleOpenAt (s : State) (epoch : Nat) : Nat :=
  (epoch + 1) * s.epochLen + s.fence + s.fld .distSettle 0 0 15 0
def State.settleCloseAt (s : State) (epoch : Nat) : Nat := s.settleOpenAt epoch + 2 * s.epochLen - 256
/-- The hub cycles from now to the close of a settlement, at the present clock of the slower hub island (R5, R310, R317). -/
def State.settleCycles (s : State) (epoch : Nat) : Nat :=
  (s.settleCloseAt epoch - s.now) * 1400 / (1000 * 2 ^ max (s.stretchLog2 8) (s.stretchLog2 9))

/-- The ordered procedure of an epoch on the given records, begun now, under the capacities in effect for it (R310, R317, R318). -/
def State.orderRecs (s : State) (t epoch : Nat) (xs : List SetlRec) : SettleOut :=
  settleOrdered ((s.settleInst t epoch).capAt (s.origEpoch t epoch)) s.countSide (s.settleCycles epoch) xs

/-- A settlement with its ordered procedure run as `o`, begun now. -/
def State.ordered (s : State) (st : Settlement) (o : SettleOut) : Settlement :=
  { st with bank := o.bank, recs := o.recs, endAt := [s.hubCycles 0 + o.cycles, s.hubCycles 1 + o.cycles], overrun := o.overrun
            overrun1 := o.overrun1 }

/-- The settlement of a tenant's epoch, if it has opened. -/
def State.settlement? (s : State) (t epoch : Nat) : Option Settlement :=
  s.dist.open_.find? (fun x => x.tenant = t ∧ x.epoch = epoch)
def State.setSettlement (s : State) (x : Settlement) : State :=
  { s with dist := { s.dist with open_ := s.dist.open_.map (fun y => if y.tenant = x.tenant ∧ y.epoch = x.epoch then x else y) } }

/-- A settled record's reply: RENORM where the policy asks for it (R314), the dispatch counters, the route sections. -/
def State.replyRoute (s : State) (x : SetlRec) (cs : List Choice) : State :=
  let disp := fun (c : Choice) => if x.policy.policy = 0 then true else c.dispatched
  let n := if x.policy.renorm then renormChoices disp cs else (cs, false)
  let k := (x.tenant * 2 + x.hub) * 10
  let cnt := fun (p : Choice → Bool) => (cs.filter p).length
  let s := if x.policy.policy = 0 then s
    else
      let s := s.count .cntDistCnt (k + 0) cs.length
      let s := s.count .cntDistCnt (k + 1) (cnt (fun c => c.grant == 0))
      let s := s.count .cntDistCnt (k + 2) (cnt (fun c => !c.dispatched))
      s.count .cntDistCnt (k + 3) (cnt (fun c => c.grant == 3 && c.dispatched))
  let s := if x.policy.renorm && n.2 then s.tick .cntDistCnt (k + 7) else s
  s.formReply x.hub x.ent (some n.1)

/-- A ROUTE record whose finish program is done (R307, R310, R313, R315, R316): ranked, then answered at once, held for the
settlement of its epoch, settled late, or refused after close. A list ready in the very tick of the opening is ready (R310): where the settlement
has opened in this tick, its ordered procedure takes it in. -/
def State.routeReady (s : State) (h i : Nat) : State :=
  match s.ent? h i with
  | none => s
  | some e =>
    let m := s.recSet e
    let pol := (m.policyAt (s.recPipe e).dispatch).getD {}
    let r := rankCands pol m.dests e.results e.cands
    let ep := s.epochOf e.at_
    let x : SetlRec := { hub := h, ent := i, tenant := e.r.tenant, epoch := ep, key := e.r.key, recId := e.r.recId, policy := pol
                         ranked := r.1, utag := e.utag }
    let s := s.count .cntDistCnt ((e.r.tenant * 2 + h) * 10 + 4) r.2
    let s := s.setEnt h i { e with phase := .settle }
    if pol.policy = 0 then s.replyRoute x (noneChoices x)
    else if r.1.isEmpty then s.replyRoute x []
    else if s.now ≤ s.settleOpenAt ep then
      match s.settlement? e.r.tenant ep with
      | some st => s.setSettlement (s.ordered st (s.orderRecs e.r.tenant ep (st.recs.map (fun y => { y with choices := [] }) ++ [x])))
      | none => { s with dist := { s.dist with waiting := s.dist.waiting ++ [x] } }
    else
      let s := s.tick .cntDistCnt ((e.r.tenant * 2 + h) * 10 + 5)
      match s.settlement? e.r.tenant ep with
      | some st =>
        if s.settleCloseAt ep < s.now then s.replyRoute x (refuseAll x).choices
        else s.setSettlement { st with late := st.late ++ [{ x with late := true }], lateCount := st.lateCount + 1 }
      | none =>
        if s.settleCloseAt ep ≤ s.now then s.replyRoute x (refuseAll x).choices
        else { s with dist := { s.dist with waiting := s.dist.waiting ++ [{ x with late := true }] } }

/-- In Fast mode optional slots whose readouts are not formed by now are reported not run (R139); their granted work goes on. -/
def RecEnt.cutOpts (e : RecEnt) : RecEnt := if e.lock then e else { e with opts := e.opts.map OptSt.cut }

/-- A record whose result words stand: a ROUTE record goes to Distributary, any other is answered. -/
def State.resultsReady (s : State) (h i : Nat) : State :=
  match s.ent? h i with
  | none => s
  | some e =>
    let s := s.setEnt h i e.cutOpts
    if e.r.cls = clsRoute then s.routeReady h i else s.formReply h i none

/-- Adds a record to the gathering batch of its program and set half (R193, R196): a batch of 32 is due. `now` counts hub cycles. -/
def VeHub.join (v : VeHub) (kind tenant prog half : Nat) (i now : Nat) : VeHub :=
  let fits := fun (b : VeBatch) => b.kind = kind ∧ b.tenant = tenant ∧ b.prog = prog ∧ b.half = half ∧ b.due = false
  match v.batches.find? (fun b => decide (fits b)) with
  | none =>
    { v with batches := v.batches ++ [{ tenant := tenant, kind := kind, prog := prog, half := half, recs := [i]
                                        opened := now }] }
  | some _ =>
    { v with batches := v.batches.map (fun b => if fits b then { b with recs := b.recs ++ [i], due := decide (32 ≤ b.recs.length + 1) } else b) }
/-- The set half that scores a record. -/
def State.recHalf (s : State) (e : RecEnt) : Nat := ((s.recInst e).getD {}).half
def State.veHub (s : State) (h : Nat) : VeHub := nth s.ve h {}
def State.setVe (s : State) (h : Nat) (v : VeHub) : State := { s with ve := setNth s.ve h v }

/-- A record whose last stage and searches are done (R149): its finish program is ready, or the readouts are its results (R79). -/
def State.finishReady (s : State) (h i : Nat) : State :=
  match s.ent? h i with
  | none => s
  | some e =>
    if e.phase ≠ .finish ∨ e.searches.any (fun x => !x.done) then s
    else
      let p := s.recPipe e
      if p.finProg = 0xFF then
        (s.setEnt h i { e with results := (e.outs.take 64).map (BitVec.ofNat 32) }).resultsReady h i
      else s.setVe h ((s.veHub h).join 2 e.r.tenant p.finProg (s.recHalf e) i (s.hubCycles h))

/-- A record whose feature vector stands: it waits to be issued into stage 0, and its searches wait for their units (R148, R149). -/
def State.vectorReady (s : State) (h i : Nat) (vec : List Byte) (carry : List VReg) : State :=
  match s.ent? h i with
  | none => s
  | some e =>
    let m := s.recSet e
    let p := s.recPipe e
    let tabs := (p.ruleTables.zipIdx).filter (fun x => x.1 ≠ 0xFF)
    let rep := fun (t : Nat) => keyReplica (e.r.key.seq + e.r.key.port) (m.tableReplicas t) (fun r => e.removed.contains (true, t, r)) (s.tableLost m t)
    let ss := tabs.map (fun x => ({ slot := x.2, table := x.1, replica := (rep x.1).getD 0 } : SearchSt))
    let w := s.hub h
    let s := s.setHub h { w with poolUsed := w.poolUsed - e.recBlocks }
    s.setEnt h i { e with vec := vec, carry := carry, recBlocks := 0, phase := .stage, stage := 0, searches := ss, ready := s.now }

/-- A record whose feature program is ready (R195): it joins its batch; with FEAT_PROG 0xFF its feature block is its vector. -/
def State.featReady (s : State) (h i : Nat) : State :=
  match s.ent? h i with
  | none => s
  | some e =>
    let m := s.recSet e
    let p := s.recPipe e
    if p.featProg = 0xFF then s.vectorReady h i (e.r.payload.take (vecBytes m.ftable)) []
    else
      let s := s.setEnt h i { e with phase := .feat, ready := s.now }
      s.setVe h ((s.veHub h).join 1 e.r.tenant p.featProg (s.recHalf e) i (s.hubCycles h))

/-- The vector blocks of a Fast-mode record go back once its last stage's task has read the vector (R132, Table 5.2). -/
def State.freeVector (s : State) (h i : Nat) : State :=
  match s.ent? h i with
  | none => s
  | some e =>
    if e.lock then s
    else
      let w := s.hub h
      s.setHub h { w with poolUsed := w.poolUsed - e.vecBlocks, recs := w.recs.put i { e with vecBlocks := 0 } }

/-- A record whose snapshots are all in, or have been given up (R178, R179, R195). -/
def State.snapsReady (s : State) (h i : Nat) : State :=
  match s.ent? h i with
  | none => s
  | some e =>
    if e.phase ≠ .snaps ∨ !e.want.isEmpty then s
    else if e.r.cls = clsUpdate then
      let w := s.hub h
      (s.setHub h { w with poolUsed := w.poolUsed - e.recBlocks, recs := w.recs.put i { e with recBlocks := 0 } }).ackUpdate h i
    else s.featReady h i

end Sys2Proof.Machine
end

