-- ==== Sys2Proof/Machine/Weir.lean ====
section
/-! DEFINITION. Weir (R129 to R140): the tests at arrival, the resources and deadline at the head of a queue, optional grants, and the Eddy
requests of an admitted record (R161, R162, R180). -/

namespace Sys2Proof.Machine

/-- The entries an admission queue holds by its kind (R130). -/
def State.queueCap (s : State) (q : Nat) : Nat :=
  if 32 ≤ q then 1024
  else
    match nth s.trib.arrange (q / 16) 0 with
    | 1 => 2048
    | 2 => 512
    | _ => 1024
def State.queue (s : State) (q : Nat) : AdmQueue := SMap.getD (fun _ => []) s.weir.queues q
def State.setQueue (s : State) (q : Nat) (l : AdmQueue) : State :=
  { s with weir := { s.weir with queues := s.weir.queues.put q l } }
def qLen (l : AdmQueue) : Nat := (l.filter (fun x => !x.ghost)).length

/-- The hub die of an admission queue. -/
def queueHub (q : Nat) : Nat := if 32 ≤ q then (q - 32) / 6 else q / 16

/-- A tenant is frozen for an epoch (R135): at or after its freeze, and before its resume. -/
def State.frozenAt (s : State) (t epoch : Nat) : Bool :=
  let f := nth s.weir.freeze t {}
  match f.from_ with
  | none => false
  | some a => decide (a ≤ epoch) && (match f.open_ with | none => true | some b => decide (epoch < b))

/-- The reply queue level that test 3 reads: the record port's, or that of the Braid port, whose replies are held or wait in its egress (R67, R388, R402). -/
def State.replyLevel (s : State) (q : Nat) : Nat :=
  if 32 ≤ q then (s.trib.held.filter (fun r => match r.dest with | .braid b _ _ => b == q - 32 | _ => false)).length +
    ((s.brPort (q - 32)).egress.filter (fun m => m.type == 2 && m.wait.isSome)).length
  else s.rqLevel q

/-- The tests of Table 5.1, in order: the refusal of the first that fails. -/
def State.arrivalTest (s : State) (x : QEnt) (lossy : Bool) : Option (Nat × Nat) :=
  let h := queueHub x.r.queue
  let ep := s.epochOf x.at_
  let w := s.hub h
  if x.r.replay = false ∧ s.frozenAt x.r.tenant ep then some (rcBusy, 1)
  else if 16 ≤ s.weir.live.length ∧ ep ∉ s.weir.live then some (rcBusy, 1)
  else if s.fld .weirCfg h 0 11 0 ≤ s.replyLevel x.r.queue then some (rcBusy, 1)
  else if w.throttle = true ∧ w.left = 0 then some (rcBusy, 2)
  else if lossy = true ∧ s.queueCap x.r.queue ≤ qLen (s.queue x.r.queue) then some (rcBusy, 1)
  else none

/-- Writes the captures of the ghosts at the head of a queue, whose turn has come (R339). -/
def State.flushGhosts (s : State) : AdmQueue → State × AdmQueue
  | [] => (s, [])
  | x :: l =>
    if x.ghost then
      let o := x.outcome.getD (0, 0)
      State.flushGhosts (s.capture x.r o.1 o.2) l
    else (s, x :: l)

/-- Replaces the queue, with the captures that come due. -/
def State.putQueue (s : State) (q : Nat) (l : AdmQueue) : State :=
  let r := s.flushGhosts l
  r.1.setQueue q r.2

/-- A record reaches Weir (R130): it is refused, or joins the tail of its queue. Records count against the throttle allowance in
arrival order (R136). DESIGN CHOICE (log 66): one that test 5 refuses does not count against it. A REPLAY record of a refused outcome is not executed
(R345): no test applies to it, and it waits in its queue for S'. -/
def State.weirArrive (s : State) (x : QEnt) (lossy : Bool) : State :=
  if x.outcome.isSome then s.setQueue x.r.queue (s.queue x.r.queue ++ [x])
  else
  let h := queueHub x.r.queue
  let t := s.arrivalTest x lossy
  let w := s.hub h
  let reaches4 := !(t == some (rcBusy, 1) && (s.frozenAt x.r.tenant (s.epochOf x.at_) || decide (s.fld .weirCfg h 0 11 0 ≤ s.replyLevel x.r.queue)))
  let w := if reaches4 then { w with demand := w.demand + 1 } else w
  let s := s.setHub h w
  match t with
  | some (code, cause) =>
    let s := if cause = 2 then s.setHub h { w with throttled := true, shedRefused := w.shedRefused + 1 } else s
    let s := s.putQueue x.r.queue (s.queue x.r.queue ++ [{ x with outcome := some (code, cause), ghost := true }])
    s.refuseRec x.r x.at_ code cause
  | none =>
    let s := if w.throttle then s.setHub h { w with left := w.left - 1 } else s
    s.setQueue x.r.queue (s.queue x.r.queue ++ [x])

/-- The device ID lies within the domain's dimensions (R14, R378): coordinates x [4:0], y [8:5], z [12:9]. -/
def State.inDomain (s : State) (dev : Nat) : Bool :=
  let c := s.rd .braidCfg 0 0
  decide (bits dev 4 0 ≤ bits c 4 0) && decide (bits dev 8 5 ≤ bits c 8 5) && decide (bits dev 12 9 ≤ bits c 12 9)

/-- The domain key of a tenant (EDDY_KEYn), as a number. -/
def State.domKey (s : State) (t : Nat) : Nat := leNat (nth s.eddy.domKeys t [])

/-- The devices that a key's requests go to, each with whether it is the mirror: PRIMARY and, with MIRROR_EN, MIRROR, as far as they lie in the
domain (R161, R162, R180). -/
def State.keyHomes (s : State) (t hash : Nat) : List (Nat × Bool) :=
  let e := s.rd .eddyHome (t * 65536 + homeIndex hash) 0
  if bit e 31 = false then []
  else ((bits e 12 0, false) :: (if bit e 15 then [(bits e 28 16, true)] else [])).filter (fun d => s.inDomain d.1)

/-- The keys of a stateful record (R73, R159): class, bytes, hash, homes. -/
def State.keysOf (s : State) (r : Rec) (keyClasses : Nat) : List KeyRef :=
  match parseKeySection r.payload keyClasses with
  | .error _ => []
  | .ok (ks, _) =>
    (ks.zipIdx).map (fun k =>
      let hs := keyHash (s.domKey r.tenant) k.1.1 k.1.2
      { idx := k.2, cls := k.1.1, bytes := k.1.2, hash := hs, homes := s.keyHomes r.tenant hs })

/-- The ring distance and direction of dimension-ordered routing (R389): steps the positive way, and the size of the ring. -/
def ringWay (a b n : Nat) : Nat := (b + n - a) % n

/-- The first-hop direction from `cur` of a message from `src` to another device: dimension 0 x, 1 y, 2 z, and whether the positive way is
taken (R389). -/
def State.hopFrom (s : State) (cur src dst : Nat) : Option (Nat × Bool) :=
  let c := s.rd .braidCfg 0 0
  let dims := [bits c 4 0 + 1, bits c 8 5 + 1, bits c 12 9 + 1]
  let co := fun (d : Nat) => [bits d 4 0, bits d 8 5, bits d 12 9]
  let ones := fun (v : Nat) => popCount 13 v
  let x := ((src ^^^ dst) % 8192)
  ((List.range 3).find? (fun k => nth (co cur) k 0 ≠ nth (co dst) k 0)).map (fun k =>
    let n := nth dims k 1
    let w := ringWay (nth (co cur) k 0) (nth (co dst) k 0) n
    let field := [2 ^ 5 - 1, (2 ^ 4 - 1) * 2 ^ 5, (2 ^ 4 - 1) * 2 ^ 9]
    let rest := x &&& (8191 - nth field k 0)
    (k, if n = 2 then ones rest % 2 == 0 else decide (2 * w ≤ n)))

def State.firstHop (s : State) (src dst : Nat) : Option (Nat × Bool) := s.hopFrom src src dst

/-- The torus port of a direction on a hub die (Table 14.1): ports 6h + 2k (positive) and 6h + 2k + 1 (negative) of dimension k. -/
def torusPort (h k : Nat) (pos : Bool) : Nat := 6 * h + 2 * k + (if pos then 0 else 1)

/-- A torus port that serves a direction: it has the role, and is enabled (R379). -/
def State.torusRole (s : State) (b : Nat) : Bool :=
  s.fld .braidPortCfg b 0 2 1 == 0 && s.fld .braidPortCfg b 0 0 0 == 1

/-- The port that a message of `src` to another device leaves this one by (R389, R393): the one of this hub die, else of the other, else
the other way round. A message that goes round a ring, having come in by a port of it, keeps its way, the long one of a detour too. -/
def State.routeFrom (s : State) (h : Nat) (inPort : Option Nat) (src dst : Nat) : Option Nat :=
  (s.hopFrom s.device src dst).bind (fun d =>
    let up := fun (b : Nat) => (s.brPort b).step == 6
    let pos := match inPort with | some p => if s.torusRole p && portDim p == d.1 then !portPos p else d.2 | none => d.2
    let way := [torusPort h d.1 pos, torusPort (1 - h) d.1 pos]
    let back := [torusPort h d.1 (!pos), torusPort (1 - h) d.1 (!pos)]
    (if s.torusLen d.1 = 2 then way else way ++ back).find? up)

def State.routePort (s : State) (h dst : Nat) : Option Nat := s.routeFrom h none s.device dst

/-- The requests of a record: one per key and home, as (home, request) (R173, R180). -/
def State.requestsOf (s : State) (r : Rec) (keys : List KeyRef) (m : ModelSet) : List (Nat × EddyReq) :=
  let fields := match parseKeySection r.payload 0xFF with
    | .ok (_, f) => f
    | .error _ => []
  keys.flatMap (fun k =>
    match m.keyClass k.cls with
    | none => []
    | some c =>
      k.homes.map (fun d =>
        let q := buildRequest c (m.accessFor r.pipe k.cls) r.cls r.key k.idx r.tenant (s.rd .eddyHomeGen r.tenant 0 % 65536) k.hash s.device
          k.bytes fields
        (d.1, { q with mirror := d.2 })))

/-- The Braid request credits in use on a port: its EDDY_REQ messages that the link layer has not accepted (Table 5.2). -/
def State.reqCredits (s : State) (b : Nat) : Nat := ((s.brPort b).egress.filter (fun m => m.type == 3)).length

/-- The blocks a record takes (Table 5.2): of its own bytes, and of its vector; none for an UPDATE's vector. -/
def recordBlocks (r : Rec) : Nat := ceilDiv (32 + r.payload.length) 256
def vectorBlocks (m : ModelSet) (r : Rec) : Nat := if r.cls = clsUpdate then 0 else ceilDiv (vecBytes m.ftable) 256

/-- The lowest record table entry that is free. -/
def freeIndex {α : Type} : SMap α → Nat → Nat
  | [], n => n
  | (k, _) :: l, n => if k = n then freeIndex l (n + 1) else n

/-- The cost of an optional ensemble (R138): the sum over its trees of DEPTH + 1. -/
def optCost (m : ModelSet) (e : Nat) : Nat :=
  match m.ensemble e with
  | some x => (x.table.map (fun t => t.depth + 1)).sum
  | none => 0

/-- Grants a mandatory record's named optional slots, in slot order, while their cost fits (R138). Answers the slots and the credit left. -/
def grantSlots (m : ModelSet) (opt : Bool) : Option Nat → List (Nat × Nat) → List OptSt × Option Nat
  | c, [] => ([], c)
  | c, (sl, e) :: l =>
    let k := optCost m e
    let fits := opt && (match c with | none => true | some v => decide (k ≤ v))
    let c' := if fits then c.map (fun v => v - k) else c
    let r := grantSlots m opt c' l
    ({ slot := sl, ens := e, state := if fits then 1 else 0 } :: r.1, r.2)

/-- Whether every resource that the head record needs is free at once (R132, Table 5.2). -/
def State.resourcesFree (s : State) (h : Nat) (r : Rec) (m : ModelSet) (reqs : List (Nat × EddyReq)) : Bool :=
  let w := s.hub h
  let local' := (reqs.filter (fun q => q.1 = s.device)).length
  let ports := (reqs.filter (fun q => q.1 ≠ s.device)).map (fun q => s.routePort h q.1)
  decide ((w.recs.filter (fun x => x.2.phase != .tail)).length < 32768) && decide (w.poolUsed + recordBlocks r + vectorBlocks m r ≤ 131072) &&
  decide ((s.eddy.handed.filter (fun q => q.1 = h)).length + local' ≤ 4096) &&
  (List.range 12).all (fun b => decide (s.reqCredits b + (ports.filter (· == some b)).length ≤ 512))

/-- The bytes of an Eddy request (Table 6.10): head of 0x48 bytes, key, operands of 16 bytes. -/
def reqBytes (q : EddyReq) : List Byte :=
  orderKeyBytes q.key ++ leBytes 1 q.keyIndex ++ leBytes 1 q.cls ++ leBytes 1 q.klen ++
  leBytes 1 (b2n q.pre + 2 * b2n q.post + 4 * b2n q.insert + 8 * b2n q.mirror + 16 * b2n q.del + 32 * b2n q.pin + 64 * b2n q.unpin) ++
  leBytes 1 q.tenant ++ leBytes 1 q.ops.length ++ leBytes 2 q.homeGen ++ leBytes 2 q.snapLen ++ leBytes 1 q.slot ++ leBytes 1 q.bucketsLog2 ++
  leBytes 4 0 ++ leBytes 8 q.hash ++ q.keyBytes ++ List.replicate (32 - q.keyBytes.length) 0 ++
  (q.ops.map (fun o => leBytes 1 o.field ++ leBytes 1 o.op ++ leBytes 1 o.type ++ leBytes 1 o.param ++ leBytes 2 o.offset ++ leBytes 2 0 ++
    leBytes 8 o.val)).flatten

/-- Hands a record's requests to the local Eddy and to Braid (R133), and notes the snapshots it waits for until S + FENCE + SNAP_WAIT (R178). A
home that cannot be reached is answered under R393 by no snapshot. -/
def State.handRequests (s : State) (h at_ : Nat) (reqs : List (Nat × EddyReq)) : State :=
  let due := at_ + s.fence + s.fld .eddyCfg 0 0 15 0
  let asks := reqs.map (fun q =>
    ({ key := q.2.key, idx := q.2.keyIndex, mirror := q.2.mirror, part := partitionOf q.2.hash, until_ := due } : AskedSnap))
  let s := { s with eddy := { s.eddy with asked := s.eddy.asked ++ asks } }
  reqs.foldl (fun s q =>
    if q.1 = s.device then { s with eddy := { s.eddy with handed := s.eddy.handed ++ [(h, q.2)] } }
    else
      match s.routePort h q.1 with
      | some b => s.brSend b { type := 3, flags := 0, dst := q.1, src := s.device, tenant := q.2.tenant, body := reqBytes q.2 }
      | none => s.tick .cntBraidDevCnt 0) s

/-- Admits the head record (R132): takes its resources in one hub cycle, grants optional slots, hands its requests over, and
lets it go on. Keys with no home take state 4 at once (R162). -/
def State.admitRec (s : State) (h : Nat) (x : QEnt) : State :=
  let r := x.r
  let m := s.setFor r.tenant (s.epochOf r.key.stamp)
  let p := (m.pipeline r.pipe).getD {}
  let stateful := p.stateful && r.cls != clsScore
  let keys := if stateful then s.keysOf r p.keyClasses else []
  let reqs := s.requestsOf r keys m
  let w := s.hub h
  let i := freeIndex w.recs 0
  let g := if r.cls = clsUpdate then ([], w.energyLeft)
    else grantSlots m (s.fld .weirCfg h 0 12 12 == 1) w.energyLeft (optNamed p)
  let spent := ((g.1.filter (fun o => o.state = 1)).map (fun o => optCost m o.ens)).sum
  let noHome := keys.filter (fun k => k.homes.isEmpty)
  let cands := if r.cls = clsRoute then
      (match parseCands r.payload r.payload.length with | .ok c => (c.1, c.2.1) | .error _ => ([], 0))
    else ([], 0)
  let e : RecEnt :=
    { r := r, at_ := x.at_, epoch := s.epochOf x.at_, lock := s.lockstep, keys := keys
      want := (keys.filter (fun k => !k.homes.isEmpty)).map KeyRef.idx
      snaps := noHome.map (fun k => { key := r.key, keyIndex := k.idx, state := 4 })
      recBlocks := recordBlocks r, vecBlocks := vectorBlocks m r, opts := g.1, cands := cands.1, utag := cands.2
      removed := s.removed m }
  let w := { w with recs := w.recs.put i e, poolUsed := w.poolUsed + e.recBlocks + e.vecBlocks, energyLeft := g.2
                    admitted := w.admitted + 1, optUnits := w.optUnits + spent }
  let s := s.setHub h w
  let s := if e.epoch ∈ s.weir.live then s else { s with weir := { s.weir with live := s.weir.live ++ [e.epoch] } }
  let s := noHome.foldl (fun s k => s.tick .cntEddyPartCnt (partitionOf k.hash * 8 + 6)) s
  let s := s.handRequests h e.at_ reqs
  let s := if r.replay then
      let c := s.capOf r.tenant
      s.setCap r.tenant { c with session := c.session.map (fun z => { z with count := z.count + 1 }) }
    else s
  s.snapsReady h i

/-- A record served at `at_` may be admitted now: none is with INGRESS_BOUND at 96 ticks or less (R133). -/
def State.inTime (s : State) (at_ : Nat) : Bool := decide (96 < s.ingressBound) && decide (s.now + 96 ≤ at_ + s.ingressBound)
/-- BT has passed the admission deadline of a record served at `at_` (R133). -/
def State.pastDeadline (s : State) (at_ : Nat) : Bool := decide (at_ + s.ingressBound < s.now + 96)

/-- A REPLAY record whose session has closed, or whose S' falls at or after the session's end (R342, R347). -/
def State.pastReplay (s : State) (x : QEnt) : Bool :=
  x.r.replay && (match s.session x.r.tenant with
    | none => true
    | some z => z.e.any (fun e => decide (e * s.epochLen ≤ x.at_)))

/-- The head of a queue whose resources are free is admitted; a REPLAY record of a refused outcome is answered with it (R132, R345), and one past the
end of its session is refused (R347). Answers `none` where the head may not be admitted now. -/
def State.admitHead (s : State) (q : Nat) : Option State :=
  match s.queue q with
  | [] => none
  | x :: l =>
    let h := queueHub q
    if x.r.replay = true ∧ s.now < x.at_ then none
    else if s.pastReplay x then some ((s.putQueue q l).refuseRec x.r x.at_ rcRefused 3)
    else if s.inTime x.at_ = false ∧ x.outcome = none then none
    else
      match x.outcome with
      | some (code, cause) =>
        let c := s.capOf x.r.tenant
        let s := s.setCap x.r.tenant { c with session := c.session.map (fun z => { z with count := z.count + 1 }) }
        some ((s.putQueue q l).refuseRec x.r x.at_ code cause)
      | none =>
        let m := s.setFor x.r.tenant (s.epochOf x.r.key.stamp)
        let p := (m.pipeline x.r.pipe).getD {}
        let keys := if p.stateful && x.r.cls != clsScore then s.keysOf x.r p.keyClasses else []
        if s.resourcesFree h x.r m (s.requestsOf x.r keys m) then
          some ((((s.capture x.r 0 0).putQueue q l)).admitRec h x)
        else none

/-- A queue's head that has passed its deadline is refused with ADMIT_TIMEOUT (R133, R344). Answers `none` where none has. -/
def State.timeoutHead (s : State) (q : Nat) : Option State :=
  match s.queue q with
  | [] => none
  | x :: l =>
    if s.pastDeadline x.at_ = false ∨ x.outcome.isSome = true ∨ s.pastReplay x = true then none
    else
      let s := s.capture x.r rcAdmitTimeout 0
      let s := if x.r.replay then s.tick .cntCapCnt (x.r.tenant * 3 + 2) else s
      some ((s.putQueue q l).refuseRec x.r x.at_ rcAdmitTimeout 0)

/-- The admission queues of a hub die, in the order of the round over its ports (R134): its record ports and sub-ports, then its Braid ports. -/
def hubQueues (h : Nat) : List Nat := (List.range 16).map (16 * h + ·) ++ (List.range 6).map (32 + 6 * h + ·)

/-- The queue whose head is next in the round: its head is ready, or has passed its deadline (R134). -/
def State.headTurn (s : State) (h : Nat) : Option Nat :=
  let n := (s.hub h).turn
  ((hubQueues h).drop n ++ (hubQueues h).take n).find? (fun q => (s.admitHead q).isSome || (s.timeoutHead q).isSome)

/-- A queue's head may be served now: it is next in the round, and Weir serves up to two heads per hub cycle and hub die (R134). -/
def State.mayServe (s : State) (q : Nat) : Bool :=
  s.headTurn (queueHub q) == some q && decide ((s.hub (queueHub q)).heads < 2 * s.cyclesNow (8 + queueHub q))

/-- A queue's head has been served: the round goes on with the next port. -/
def State.headServed (s : State) (q : Nat) : State :=
  let h := queueHub q
  let w := s.hub h
  s.setHub h { w with turn := ((hubQueues h).takeWhile (· ≠ q)).length + 1, heads := w.heads + 1 }

/-- ADMISSION_HEAD_ADMIT (R132, R134). -/
def execAdmissionHeadAdmit (queue : Nat) (s : State) : Out := s.gated <|
  if s.mayServe queue then
    match s.admitHead queue with
    | some t => .next (t.headServed queue)
    | none => .next s
  else .next s

/-- REPLAY_HEAD_RELEASE (R344): a REPLAY record at its queue's head is admitted when BT reaches S'. -/
def execReplayHeadRelease (queue : Nat) (s : State) : Out := s.gated <|
  match s.queue queue with
  | x :: _ =>
    if x.r.replay && s.mayServe queue then
      match s.admitHead queue with
      | some t => .next (t.headServed queue)
      | none => .next s
    else .next s
  | [] => .next s

/-- ADMISSION_DEADLINE_EXPIRY (R133, R134, R344): a head whose deadline has passed is refused with ADMIT_TIMEOUT. -/
def execAdmissionDeadlineExpiry (queue : Nat) (s : State) : Out := s.gated <|
  if s.mayServe queue then
    match s.timeoutHead queue with
    | some t => .next (t.headServed queue)
    | none => .next s
  else .next s

end Sys2Proof.Machine
end

