-- ==== Sys2Proof/Machine/Intake.lean ====
section
/-! DEFINITION. The parsing of records from a frame or a Braid message: sequence numbers, format, permission, readiness, and the hand-over to
Weir or to Headwater (R69 to R76, R86, R342, R345). -/

namespace Sys2Proof.Machine

/-- Operands and gates of the record's keys lie inside its field bytes (R172). -/
def operandsFit (m : ModelSet) (pipe : Nat) (keys : List KeyEntry) (fields : List Byte) : Bool :=
  keys.all (fun k =>
    match m.keyClass k.1, m.accessFor pipe k.1 with
    | some c, some a => accessFits a c fields
    | _, _ => true)

/-- The format of a payload for its class and pipeline (R32, R72, R73, R172, R306): a MALFORMED cause. -/
def payloadFault (m : ModelSet) (cls pipe : Nat) (p : List Byte) : Option Nat :=
  match m.pipeline pipe with
  | none => some 7
  | some e =>
    let keyed := cls = clsStateful ∨ cls = clsUpdate ∨ (cls = clsRoute ∧ e.stateful = true)
    if cls = clsScore ∧ e.stateful = true then some 7
    else if keyed ∧ (e.stateful = false ∨ e.keyClasses = 0) then some 7
    else if cls = clsRoute ∧ e.dispatch = 0xFF then some 7
    else
      let base : Except Nat Nat :=
        if keyed then
          match parseKeySection p e.keyClasses with
          | .error c => .error c
          | .ok (ks, rest) => if operandsFit m pipe ks rest then .ok (p.length - rest.length) else .error 8
        else if p.length < vecBytes m.ftable then .error 8 else .ok (vecBytes m.ftable)
      match base with
      | .error c => some c
      | .ok used =>
        if cls = clsRoute then
          match parseCands p (p.length - used) with
          | .error c => some c
          | .ok _ => none
        else none

/-- What a request record becomes: refused, queued for Weir, or taken by Headwater. -/
inductive Intake where
  | refuse (r : Rec) (at_ : Nat) (code cause : Nat)
  | weir (x : QEnt)
  | head (r : Rec)
deriving DecidableEq, Repr

/-- Permissions of a record's class where it came in (Table 3.5, R92; Braid: BRAID_PORT_CFG, at the device where a record enters). -/
def State.classAllowed (s : State) (q cls : Nat) : Bool :=
  if 32 ≤ q then
    let c := s.rd .braidPortCfg (q - 32) 0
    if bits c 2 1 = 0 then true else if cls = clsControl then bit c 7 else if cls = clsModel then bit c 8 else if cls = clsReplay then bit c 9 else bit c 6
  else if cls = clsControl then s.portCfg q 6 6 == 1
  else if cls = clsModel then s.portCfg q 7 7 == 1
  else if cls = clsReplay then s.portCfg q 8 8 == 1
  else true

/-- The tenant's memory is being scrubbed (R450, R478). -/
def State.scrubbing (s : State) (t : Nat) : Bool := s.mem.scrubs.contains t

/-- No set serves a tenant's epoch: none is active; during a drain swap, from its RESUME_EN until the new set is placed (R424). -/
def State.noSet (s : State) (t epoch : Nat) : Bool :=
  match (s.hwT t).drainSwap with
  | none => (s.instFor t epoch).isNone
  | some l =>
    if epoch < l.named then (s.instFor t epoch).isNone
    else if epoch + l.target < l.named + l.resumeEn then false
    else (s.hwT t).placing || !(s.hwT t).drainPlaced

/-- Readiness (Table 3.13, R86, Tables 4.1 and 15.3): booting or BT not locked, erasing, no active set, scrubbing. -/
def State.readiness (s : State) (t cls epoch : Nat) : Option (Nat × Nat) :=
  let weir := cls ≠ clsModel ∧ cls ≠ clsControl
  if s.head.step < 9 then some (rcNotReady, if s.mem.erased then 1 else 2)
  else if weir ∧ s.time.state = 0 then some (rcNotReady, 1)
  else if s.scrubbing t then some (rcBusyScrub, 0)
  else if weir ∧ s.noSet t epoch = true then some (rcNotReady, 3)
  else none

/-- The tick that a REPLAY record is served at (R343); outside a session, that of its arrival. -/
def State.replayAt (s : State) (t stamp now : Nat) : Nat :=
  match s.session t with
  | some z => ((stamp : Int) + s.replayShift z).toNat
  | none => now

/-- A REPLAY record under its original key (R109), with the bytes that its capture entry holds (Table 12.4). -/
def Rec.heldIn (r : Rec) (key : OrderKey) : Rec := { r with key := key, hdr := slice r.payload 32 32, payload := r.payload.drop 64 }

/-- A REPLAY record (R109, R342 to R345): the captured record under its original key, the tick it is served at, its captured outcome. -/
def State.replayIntake (s : State) (r : Rec) (h : RecHead) : Intake :=
  let key := replayKey h
  let at_ := s.replayAt r.tenant key.stamp r.key.stamp
  let p := r.payload
  let r := r.heldIn key
  let ih := parseRecHead r.hdr
  let cap : Rec := { r with cls := ih.cls, pipe := ih.pipe, dig := bit ih.flags 0, recId := ih.recId, replay := true, payload := slice p 64 (ih.length - 32) }
  if p.length < 64 ∨ leAt p 0 2 ≠ 1 ∨ leAt p 2 2 ≠ 32 + ih.length ∨ p.length < 32 + ih.length ∨ ih.length < 32 ∨
      slice p 8 16 ≠ orderKeyBytes key then .refuse r at_ rcMalformed 8
  else if ih.cls < 1 ∨ 4 < ih.cls then .refuse r at_ rcMalformed 6
  else
    let ep := s.epochOf key.stamp
    let set := s.instFor r.tenant ep
    let fault := match set with
      | some i => payloadFault i.set ih.cls ih.pipe cap.payload
      | none => none
    let outcome := leAt p 5 1
    match (if outcome = 0 then fault else none) with
    | some c => .refuse cap at_ rcMalformed c
    | none =>
      if s.classAllowed r.queue clsReplay = false then .refuse cap at_ rcRefused 1
      else
        match s.session r.tenant with
        | none => .refuse cap at_ rcRefused 3
        | some z =>
          let past := match z.e with | none => false | some e => decide (e * s.epochLen ≤ at_)
          if key.stamp < z.n * s.epochLen ∨ past = true then .refuse cap at_ rcRefused 3
          else
            match s.readiness r.tenant ih.cls ep with
            | some (c, k) => .refuse cap at_ c k
            | none => .weir { r := cap, at_ := at_, outcome := if outcome = 0 then none else some (outcome, leAt p 6 1) }

/-- The fault of a segment's payload (R412): MALFORMED with a CAUSE. -/
def segmentFault (p : List Byte) : Option Nat :=
  let seg := leAt p 4 1
  let segs := leAt p 5 1
  let n := leAt p 8 2
  if p.length < 16 then some 8
  else if leAt p 6 2 ≠ 0 ∨ allZero (slice p 10 6) = false then some 4
  else if segs < 1 ∨ 16 < segs ∨ segs ≤ seg ∨ p.length < 16 + n ∨ (seg + 1 < segs ∧ n ≠ 8176) then some 8
  else none

/-- A MODEL payload shorter than its chunk header or the data it announces (R86, Tables 3.14 and 15.7): MALFORMED with a CAUSE. -/
def modelFault (p : List Byte) : Option Nat :=
  if p.length < 32 ∨ p.length < 32 + leAt p 12 2 then some 8 else none

/-- One record's checks, in the order of R86: session verdict, format, permission, readiness. A CONTROL record's readiness is tested as Headwater takes
it, after its signature. A REPLAY record keeps its original key, whatever refuses it (R109). -/
def State.intake (s : State) (r : Rec) (h : RecHead) (verdict : SessVerdict) : Intake :=
  let keyed := if h.cls = clsReplay then r.heldIn (replayKey h) else r
  let at_ := if h.cls = clsReplay then s.replayAt r.tenant keyed.key.stamp r.key.stamp else r.key.stamp
  match sessionRefusal verdict with
  | some (c, k) => .refuse keyed at_ c k
  | none =>
    let ep := s.epochOf r.key.stamp
    if clsKnown h.cls = false then .refuse r r.key.stamp rcMalformed 6
    else if recHeadReserved h then .refuse keyed at_ rcMalformed 4
    else if h.cls = clsReplay then s.replayIntake r h
    else
      let weir := h.cls ≠ clsModel ∧ h.cls ≠ clsControl
      let fault := if weir then
          match s.instFor r.tenant ep with
          | some i => payloadFault i.set h.cls h.pipe r.payload
          | none => none
        else if h.cls = clsControl then segmentFault r.payload else modelFault r.payload
      match fault with
      | some c => .refuse r r.key.stamp rcMalformed c
      | none =>
        if s.classAllowed r.queue h.cls = false then .refuse r r.key.stamp rcRefused 1
        else if h.cls = clsControl then .head r
        else
          match s.readiness r.tenant h.cls ep with
          | some (c, k) => .refuse r r.key.stamp c k
          | none => if weir then .weir { r := r, at_ := r.key.stamp } else .head r

/-- Takes a checked record on: refusal, Weir's tests, or Headwater's list. -/
def State.takeIntake (s : State) (lossy : Bool) : Intake → State
  | .refuse r at_ c k => s.refuseRec r at_ c k
  | .weir x => s.weirArrive x lossy
  | .head r => { s with head := { s.head with records := s.head.records ++ [r] } }

/-- The next ingress sequence number of a port number's counter, shared by its sub-ports and its Braid ingress (R60, R74, R130). -/
def State.nextSeq (s : State) (n : Nat) : Nat × State :=
  let v := SMap.getD (fun _ => 0) s.trib.seqs n
  (v, { s with trib := { s.trib with seqs := SMap.setD (fun _ => 0) s.trib.seqs n ((v + 1) % 65536) } })

/-- Parses one record, or a record that R70 refuses for its length (`none`). -/
def State.takeRecord (s : State) (base : Rec) (lossy : Bool) (verdict : SessVerdict) (idx : Nat) (b : Option (List Byte)) : State :=
  let q := s.nextSeq base.key.port
  let s := q.2
  let r := { base with recIndex := idx, key := { base.key with seq := q.1 } }
  match b with
  | none =>
    match sessionRefusal verdict with
    | some (c, k) => s.refuseRec r r.key.stamp c k
    | none => s.refuseRec r r.key.stamp rcMalformed 5
  | some b =>
    let h := parseRecHead b
    let r := { r with cls := h.cls, pipe := h.pipe, dig := bit h.flags 0, recId := h.recId, hdr := b.take 32, payload := b.drop 32 }
    s.takeIntake lossy (s.intake r h verdict)

/-- Parses records in order. -/
def State.takeAll (s : State) (base : Rec) (lossy : Bool) (verdict : SessVerdict) : Nat → List (Option (List Byte)) → State
  | _, [] => s
  | i, b :: bs => State.takeAll (s.takeRecord base lossy verdict i b) base lossy verdict (i + 1) bs

/-- Parses a request frame's records (R70, R74): the bytes past the last record are counted in RX_TRAIL. -/
def State.takeFrame (s : State) (p : Nat) (stamp : Nat) (dest : Dest) (verdict : SessVerdict) (lossy : Bool) (payload : List Byte) : State :=
  let h := parseJrfHead payload
  let sp := splitRecords (payload.drop 32) h.records
  let base : Rec := { queue := p, tenant := s.portTenant p, key := { stamp := stamp, dev := s.device, port := portN p }
                      reqSeq := h.frameSeq, dest := dest }
  let s := s.count .cntTribPortCnt (p * 11 + 8) sp.2
  s.takeAll base lossy verdict 0 sp.1

end Sys2Proof.Machine
end

