-- ==== Sys2Proof/Machine/Trib.lean ====
section
/-! DEFINITION. Tributary (chapter 3): frames received and sent, flow control, MACsec, sessions, release ticks. -/

namespace Sys2Proof.Machine

/-- The ingress buffer of a port in bytes, by its arrangement. -/
def State.bufBytes (s : State) (p : Nat) : Nat :=
  match nth s.trib.arrange (p / 16) 0 with
  | 1 => 2 ^ 21
  | 2 => 2 ^ 19
  | _ => 2 ^ 20

/-- The class of a frame (R65): `some true` lossless class B, `some false` class A, `none` lossy. -/
def State.frameClass (s : State) (p : Nat) (tags : List (Nat × Nat)) : Option Bool :=
  let l := s.portCfg p 11 10
  match tags with
  | [] => none
  | t :: _ =>
    if 1 ≤ l ∧ t.1 = s.portCfg p 14 12 then some false
    else if l = 2 ∧ t.1 = s.portCfg p 17 15 then some true
    else none

/-- The share of a class in bytes (R65, Table 21.4): a share that LOSSLESS does not enable belongs to the lossy class. -/
def State.classShare (s : State) (p : Nat) (c : Option Bool) : Nat :=
  let l := s.portCfg p 11 10
  let a := if 1 ≤ l then s.fld .tribPortPfc p 0 7 0 else 0
  let b := if l = 2 then s.fld .tribPortPfc p 0 15 8 else 0
  s.bufBytes p / 64 * (match c with | some false => a | some true => b | none => 64 - a - b)

/-- The bytes that waiting frames of a class take. -/
def PortSt.used (x : PortSt) (b : Bool) : Nat := ((if b then x.waitB else x.waitA).map WaitFrame.len).sum

/-- The protection of a frame that a port sends (R63): with MACSEC 1 its transmit association, whose packet number advances. -/
def State.protect (s : State) (p : Nat) : State × Option SecTag :=
  let x := s.port p
  match s.portCfg p 3 3, x.txSa with
  | 0, _ => (s, none)
  | _, none => (s, none)
  | _, some a => (s.setPort p { x with txSa := some { a with pn := a.pn + 1 } }, some { an := a.an, sci := a.sci, pn := a.pn })

/-- Sends PFC XOFF when a class reaches its threshold and XON when it falls below (R65). -/
def State.pfcCheck (s : State) (p : Nat) (b : Bool) : State :=
  let x := s.port p
  let sh := s.classShare p (some b)
  let used := x.used b
  let off := if b then x.xoffB else x.xoffA
  let prio := if b then s.portCfg p 17 15 else s.portCfg p 14 12
  let set := fun (v : Bool) (s : State) =>
    let q := (s.setPort p (if b then { x with xoffB := v } else { x with xoffA := v })).protect p
    { q.1 with trib := { q.1.trib with out := q.1.trib.out ++ [TxOut.pfc (portN p) (portS p) prio v q.2] } }
  if off = false ∧ sh * s.fld .tribPortPfc p 0 23 16 / 64 ≤ used then set true s
  else if off = true ∧ used < sh * s.fld .tribPortPfc p 0 31 24 / 64 then set false s
  else s

/-- The MACsec checks of a frame (R63): the port's associations after it, or `none` for a discard. -/
def State.macsecCheck (s : State) (p : Nat) (t : Option SecTag) : Option (List SecAssoc) :=
  let x := s.port p
  match s.portCfg p 3 3, t with
  | 0, none => some x.rxSa
  | 0, some _ => none
  | _, none => none
  | _, some t =>
    match x.rxSa.find? (fun a => a.an = t.an ∧ a.sci = t.sci ∧ a.live = true) with
    | none => none
    | some a =>
      if t.icvOk = false ∨ t.pn + s.fld .tribMacsec p 0 30 0 ≤ a.pn then none
      else some (x.rxSa.map (fun y => if y = a then { y with pn := max y.pn t.pn } else y))

/-- Discards a frame, counted. -/
def State.discard (s : State) (p k : Nat) : State := s.tick .cntTribPortCnt (p * 11 + k)

/-- An accepted frame (R23): its header is checked, then its session, then its records are parsed, at once or when the queue has room. -/
def State.acceptFrame (s : State) (p : Nat) (cls : Option Bool) (len stamp : Nat) (h : IpHead) (payload : List Byte) : State :=
  let j := parseJrfHead payload
  let tenant := s.portTenant p
  let dest : Dest := .eth (portN p) (portS p) h.src h.v6 h.srcPort j.session tenant
  match jrfHeadFault j payload.length tenant with
  | some (code, cause) =>
    let r : Reply := { cls := 0x83, code := code, cause := cause, recIndex := 0xFF, key := { stamp := stamp }
                       reqSeq := if payload.length < 16 then 0 else j.frameSeq, portByte := portN p + 16 * portS p
                       payload := leBytes 8 0, tenant := tenant, dest := dest
                       stale := s.staleAt tenant (s.epochOf stamp) }
    s.releaseReply r true
  | none =>
    let hub := p / 16
    let key : SessionKey := { ip := h.src, v6 := h.v6, udp := h.srcPort, session := j.session }
    let c := sessionCheck (nth s.trib.sessions hub []) key (portN p) (portS p) j.frameSeq s.now
    let s := { s with trib := { s.trib with sessions := setNth s.trib.sessions hub c.2 } }
    let s := if c.1 = .noSessionFull then s.latch (some tenant) attnSessionFull else s
    match cls with
    | none => s.takeFrame p stamp dest c.1 true payload
    | some b =>
      let x := s.port p
      let waiting := if b then x.waitB else x.waitA
      let room := decide (qLen (s.queue p) + j.records ≤ s.queueCap p)
      if room && waiting.isEmpty then s.takeFrame p stamp dest c.1 false payload
      else
        let w : WaitFrame := { len := len, stamp := stamp, dest := dest, verdict := c.1, payload := payload }
        (s.setPort p (if b then { x with waitB := x.waitB ++ [w] } else { x with waitA := x.waitA ++ [w] })).pfcCheck p b

/-- FRAME_RECEIVED (R23, R61, R63, R66 to R75): size, buffer space, FCS, MACsec, options, addressing; then acceptance. -/
def execFrameReceived (port sub : Nat) (f : RxFrame) (s : State) : Out := s.gated <|
  let p := 2 * port + sub
  if s.portUsed p = false ∨ s.portCfg p 0 0 = 0 ∨ (s.port p).up = false then .next s
  else
    let s := s.discard p 0
    let s := (s.count .cntTribPortCnt (p * 11 + 2) f.fecCorr).count .cntTribPortCnt (p * 11 + 3) f.fecUncorr
    let cls := s.frameClass p f.tags
    let used := match cls with | some b => (s.port p).used b | none => 0
    if f.len < 64 then .next (s.discard p 10)
    else if 9216 < f.len then .next (s.discard p 6)
    else if s.classShare p cls < used + f.len then .next (s.discard p 5)
    else if f.fcsOk = false then .next (s.discard p 1)
    else
      match s.macsecCheck p f.secTag with
      | none => .next (s.discard p 4)
      | some sas =>
        let s := s.setPort p { s.port p with rxSa := sas }
        let tagOk := match f.tags with
          | [] => true
          | [t] => s.portCfg p 9 9 == 1 && t.2 == s.fld .tribPortVlan p 0 11 0
          | _ => false
        match f.body with
        | .ip h payload =>
          let ver := if h.v6 then s.portCfg p 2 2 == 1 else s.portCfg p 1 1 == 1
          let sum := if h.csumZero then !h.v6 else h.csumOk
          if tagOk && ver && h.own && h.plain && h.udp && sum && h.dstPort == s.fld .tribCfg (p / 16) 0 31 16 then
            .next (s.acceptFrame p cls f.len (s.now - f.ago) h payload)
          else .next (s.discard p 7)
        | _ => .next (s.discard p 7)

/-- LOSSLESS_FRAME_PARSE (R131): the first waiting frame of a class is parsed once the queue has room for all its records. -/
def execLosslessFrameParse (port sub : Nat) (classB : Bool) (s : State) : Out := s.gated <|
  let p := 2 * port + sub
  let x := s.port p
  match (if classB then x.waitB else x.waitA) with
  | [] => .next s
  | w :: l =>
    if qLen (s.queue p) + (parseJrfHead w.payload).records ≤ s.queueCap p then
      let s := (s.setPort p (if classB then { x with waitB := l } else { x with waitA := l })).pfcCheck p classB
      .next (s.takeFrame p w.stamp w.dest w.verdict false w.payload)
    else .next s

/-- The tick at which a pause of a count of quanta of 512 bit times ends, at the rate of the port (Table 3.1). PRESUMED (log 77): IEEE 802.1Qbb. -/
def State.pauseEnd (s : State) (p q : Nat) : Nat :=
  let gbps := match nth s.trib.arrange (p / 16) 0 with | 1 => 1600 | 2 => 400 | _ => 800
  if q = 0 then 0 else s.now + ceilDiv (512 * q) gbps

/-- The pauses that a PFC frame sets (R67): a class enabled in it is paused for its quanta and resumed by 0. -/
def State.paused (s : State) (p : Nat) (enable : BitVec 8) (quanta : List Nat) (x : PortSt) : PortSt :=
  let l := s.portCfg p 11 10
  let a := s.portCfg p 14 12
  let b := s.portCfg p 17 15
  let x := if 1 ≤ l ∧ bit enable.toNat a = true then { x with pausedA := s.pauseEnd p (nth quanta a 0) } else x
  if l = 2 ∧ bit enable.toNat b = true then { x with pausedB := s.pauseEnd p (nth quanta b 0) } else x

/-- PFC_FRAME_RECEIVED (R63, R67): the frame passes the port's MACsec test, then sets its pauses. -/
def execPfcFrameReceived (port sub : Nat) (enable : BitVec 8) (quanta : PfcQuanta) (s : State) : Out := s.gated <|
  let p := 2 * port + sub
  if s.portUsed p = false ∨ (s.port p).up = false then .next s
  else
    let s := s.discard p 0
    match s.macsecCheck p quanta.tag with
    | none => .next (s.discard p 4)
    | some sas => .next (s.setPort p (s.paused p enable quanta.quanta { s.port p with rxSa := sas }))

/-- CONTROL_PROTOCOL_FRAME (R61, R63): a request for the port's own address is answered; any other protocol is discarded. A port answers a
protocol of an IP version only while it accepts that version (DESIGN CHOICE, log 90). -/
def execControlProtocolFrame (port sub : Nat) (c : CtrlFrame) (s : State) : Out := s.gated <|
  let p := 2 * port + sub
  let k := match c.kind with | .arp => 1 | .icmpEcho => 2 | .neighbour => 3 | .icmp6Echo => 4 | .other => 0
  let on := if k = 1 ∨ k = 2 then s.portCfg p 1 1 == 1 else s.portCfg p 2 2 == 1
  if s.portUsed p = false ∨ (s.port p).up = false then .next s
  else
    match (s.discard p 0).macsecCheck p c.tag with
    | none => .next ((s.discard p 0).discard p 4)
    | some sas =>
      let s := s.discard p 0
      let s := s.setPort p { s.port p with rxSa := sas }
      if k = 0 ∨ on = false then .next (s.discard p 7)
      else
        let q := s.protect p
        .next { q.1 with trib := { q.1.trib with out := q.1.trib.out ++ [TxOut.ctrl port sub k q.2] } }

/-- A port's transmit side may send: up, and with a live association where it needs MACsec (R62, R64). -/
def State.mayTransmit (s : State) (p : Nat) : Bool :=
  let x := s.port p
  x.up && (s.portCfg p 3 3 == 0 || (match x.txSa with | some a => a.live | none => false))

/-- RECORD_PORT_UP (R62): the last bring-up step completes; a port that requires MACsec needs its channel live. None
comes up in the module's error state (R461). -/
def execRecordPortUp (port sub : Nat) (s : State) : Out := s.gated <|
  let p := 2 * port + sub
  let x := s.port p
  let live := match x.txSa with | some a => a.live | none => false
  if s.portUsed p ∧ s.portCfg p 0 0 = 1 ∧ 6 ≤ s.head.step ∧ s.sec.error = false ∧ (s.portCfg p 3 3 = 0 ∨ live = true) then
    .next (s.setPort p { x with up := true })
  else .next s

/-- RECORD_PORT_DOWN (R62): LINK_DOWN follows, and replies wait. -/
def execRecordPortDown (port sub : Nat) (s : State) : Out := s.gated <|
  let p := 2 * port + sub
  .next (s.setPort p { s.port p with up := false, pausedA := 0, pausedB := 0 })

/-- MACSEC_KEY_CHANGE (R64): past packet number 2^62 the control cores start a key change. -/
def execMacsecKeyChange (port sub : Nat) (s : State) : Out := s.gated <|
  let p := 2 * port + sub
  let x := s.port p
  match x.txSa with
  | some a =>
    if 2 ^ 62 < a.pn ∧ x.keyChange = false then
      let s := s.setPort p { x with keyChange := true }
      .next { s with trib := { s.trib with out := s.trib.out ++ [TxOut.mka port sub ((a.an + 1) % 4)] } }
    else .next s
  | none => .next s

/-- A MACsec Key Agreement frame that the port may act on: authenticated under the connectivity association key that it names, which the port holds
(R468); the module in its error state loads no key (R461). -/
def State.mkaTrusted (s : State) (p : Nat) (m : MkaMsg) : Bool := m.auth && (s.sec.caks.find? p).any (fun k => k.2 == m.ckn) && !s.sec.error

/-- MKA_FRAME (R63, R64): authenticated under the port's connectivity association key, it makes a transmit association live or
installs a receive association, of at most eight channels. The frame stands outside MACsec (PRESUMED, log 78) and is counted, whatever
its fate (R92). -/
def execMkaFrame (port sub : Nat) (m : MkaMsg) (s : State) : Out := s.gated <|
  let p := 2 * port + sub
  if s.portUsed p = false then .next s
  else
    let s := s.discard p 0
    let x := s.port p
    if s.mkaTrusted p m = false then .next s
    else
      let x := match m.tx with
        | some an => { x with txSa := some { an := an % 4, sci := Config.portSci p, pn := 1, live := true }, keyChange := false }
        | none => x
      let x := match m.rx with
        | some (an, sci) =>
          let others := x.rxSa.filter (fun a => !(decide (a.an = an % 4) && decide (a.sci = sci)))
          let scis := (others.map SecAssoc.sci).eraseDups
          if scis.contains sci || decide (scis.length < 8) then
            { x with rxSa := others ++ [{ an := an % 4, sci := sci, pn := 0, live := true }] }
          else x
        | none => x
      .next (s.setPort p x)

/-- LLDP_TRANSMIT (R61). -/
def execLldpTransmit (port sub : Nat) (s : State) : Out := s.gated <|
  if s.mayTransmit (2 * port + sub) then
    let q := s.protect (2 * port + sub)
    .next { q.1 with trib := { q.1.trib with out := q.1.trib.out ++ [TxOut.lldp port sub q.2] } }
  else .next s

/-- SESSION_IDLE_EXPIRY (R77). -/
def execSessionIdleExpiry (hub : Nat) (key : SessionKey) (s : State) : Out := s.gated <|
  let idle := s.rd .tribSess hub 0 + 2 ^ 32 * (s.rd .tribSess hub 1 % 65536)
  let l := nth s.trib.sessions hub []
  let l' := l.filter (fun e => !(decide (e.key = key) && decide (e.lastBt + idle ≤ s.now)))
  .next { s with trib := { s.trib with sessions := setNth s.trib.sessions hub l' } }

/-- REPLY_COALESCE_EXPIRY (R82): the frame leaves COALESCE ticks after its first reply was ready. -/
def execReplyCoalesceExpiry (port sub : Nat) (dest : Dest) (s : State) : Out := s.gated <|
  let p := 2 * port + sub
  let x := s.port p
  match x.gather.find? (fun f => f.dest = dest) with
  | some f =>
    if f.first + s.coalesce (p / 16) ≤ s.now then
      .next (s.setPort p { x with gather := x.gather.filter (fun g => g.dest ≠ dest), txq := x.txq ++ [f] })
    else .next s
  | none => .next s

/-- Held replies in the order of their release ticks and order keys. -/
def insHeld (r : Reply) : List Reply → List Reply
  | [] => [r]
  | q :: l =>
    if r.release.getD 0 < q.release.getD 0 ∨ (r.release = q.release ∧ r.key.lt q.key = true) then r :: q :: l
    else q :: insHeld r l

/-- Adds a released reply to the frames of its tick (R82, R123): one frame per destination while it fits. -/
def State.packReply (s : State) (p : Nat) (r : Reply) : List TxFrame → List TxFrame
  | [] => [{ dest := r.dest, replies := [r], first := s.now }]
  | f :: fs =>
    let g := { f with replies := f.replies ++ [r] }
    if f.dest = r.dest ∧ f.replies.all (fun q => q.release == r.release) ∧ f.replies.length < 64 ∧ s.frameLen p g ≤ s.maxFrame (p / 16) then
      g :: fs
    else f :: State.packReply s p r fs

/-- LOCKSTEP_RELEASE_TICK (R123, R125): the held replies whose tick has come are gathered into frames, in order-key order. -/
def execLockstepReleaseTick (s : State) : Out := s.gated <|
  let due := fun (r : Reply) => match r.release with | some t => decide (t ≤ s.now) | none => true
  let rs := (s.trib.held.filter due).foldl (fun l r => insHeld r l) []
  let s := { s with trib := { s.trib with held := s.trib.held.filter (fun r => !due r) } }
  let s := rs.foldl (fun s r =>
    match r.dest with
    | .braid b _ dst => s.replyBraid b dst r
    | _ => s) s
  let portOf := fun (r : Reply) => match r.dest with | .eth n sub _ _ _ _ _ => some (2 * n + sub) | _ => none
  .next ((List.range 32).foldl (fun s p =>
    let mine := rs.filter (fun r => portOf r == some p)
    if mine.isEmpty then s
    else
      let fs := mine.foldl (fun fs r => s.packReply p r fs) []
      s.setPort p { s.port p with txq := (s.port p).txq ++ fs }) s)

/-- The SESSION's reply frame count (Table 3.3), and the table with it advanced; 0 for no session. -/
def replyFrameSeq (tbl : List Session) (key : SessionKey) : Nat × List Session :=
  match tbl.find? (fun e => e.key = key) with
  | none => (0, tbl)
  | some e => (e.replyFrames, tbl.map (fun x => if x.key = key then { x with replyFrames := (x.replyFrames + 1) % 2 ^ 32 } else x))

/-- The ATTN and DEGRADED bits of a tenant as they stood at a tick (R84): now as they are, earlier as they were at its end. -/
def State.sampleAt (s : State) (tick : Nat) : Nat := (((s.trib.sampled.filter (fun x => decide (x.1 ≤ tick))).getLast?).map Prod.snd).getD 0
def State.attnAt (s : State) (t tick : Nat) : Bool := if s.now ≤ tick then s.attn t else bit (s.sampleAt tick) t
def State.degradedAt (s : State) (t tick : Nat) : Bool := if s.now ≤ tick then s.degraded t else bit (s.sampleAt tick) (4 + t)

/-- Sends one frame of replies: LATE and the sampled bits as its first byte left (R84, R124), then what its records held returns. DEDUCED (log 76): the
replies of a frame are sampled as the frame begins. -/
def State.sendFrame (s : State) (p : Nat) (f : TxFrame) (start : Nat) : State :=
  match f.dest with
  | .eth n sub ip v6 udp session tenant =>
    let hub := n / 8
    let key : SessionKey := { ip := ip, v6 := v6, udp := udp, session := session }
    let c := replyFrameSeq (nth s.trib.sessions hub []) key
    let slack := s.fld .timeLock 0 0 23 16
    let late := fun (r : Reply) => r.late || (match r.release with | some t => decide (t + slack < start) | none => false)
    let bs := f.replies.map (fun r => replyBytes { r with late := late r } (s.attnAt r.tenant start) (s.degradedAt r.tenant start))
    let fr := jrfFrame 1 tenant session c.1 (s.epochOf start % 2 ^ 32) s.device bs
    let q := s.protect p
    let s := q.1
    let s := { s with trib := { s.trib with sessions := setNth s.trib.sessions hub c.2, out := s.trib.out ++ [TxOut.jrf n sub f.dest q.2 fr] } }
    let s := s.count .cntTribPortCnt (p * 11 + 9) f.replies.length
    f.replies.foldl (fun s r => match r.recIdx with | some i => s.freeEnt hub i | none => s) s
  | _ => s

/-- The events that fit one event frame (R81): at most 64, within MAX_FRAME. -/
def eventFit (limit used : Nat) : Nat → List EvtEntry → List EvtEntry
  | 0, _ => []
  | _, [] => []
  | n + 1, e :: l => if limit < used + 48 then [] else e :: eventFit limit (used + 48) n l

/-- Sends one event frame (R81): SESSION 0, to the destination of TRIB_EVT. -/
def State.sendEvents (s : State) (p : Nat) (start : Nat) : State :=
  let t := s.portTenant p
  let es := eventFit (s.maxFrame (p / 16)) 162 64 s.trib.evtQueue
  let ip := (List.range 4).foldl (fun v i => v + s.rd .tribEvt 0 i * 2 ^ (32 * i)) 0
  let udp := s.fld .tribEvt 0 4 15 0
  let bs := es.map (fun e => replyBytes (eventReply e (.eth (portN p) (portS p) ip true udp 0 t)) (s.attnAt t start) (s.degradedAt t start))
  let fr := jrfFrame 2 t 0 0 (s.epochOf start % 2 ^ 32) s.device bs
  if es.isEmpty then s
  else
    let q := s.protect p
    let s := q.1
    { s with trib := { s.trib with evtQueue := s.trib.evtQueue.drop es.length
                                   out := s.trib.out ++ [TxOut.event ip udp (portN p) (portS p) q.2 fr] } }

/-- The replies of a port wait for a lossless class that its peer has paused (R67). The spec gives their 802.1Q priority no value, so it is a free
value (log 19); untagged, they are of the lossy class (R65). -/
def State.replyPaused (s : State) (p : Nat) : Bool :=
  let x := s.port p
  (decide (s.now < x.pausedA) || decide (s.now < x.pausedB)) &&
  (match s.frameClass p (if s.portCfg p 9 9 = 1 then [(Config.replyPriority p % 8, 0)] else []) with
   | some b => decide (s.now < if b then x.pausedB else x.pausedA)
   | none => false)

/-- REPLY_LEFT_PORT (R132): the frame at the head of a port's transmit queue, or the next event frame, finishes transmission. -/
def execReplyLeftPort (port sub : Nat) (events : Bool) (startedAgo : Nat) (s : State) : Out := s.gated <|
  let p := 2 * port + sub
  let start := s.now - startedAgo
  if s.mayTransmit p = false ∨ s.replyPaused p = true then .next s
  else if events then
    if s.fld .tribEvt 0 4 19 16 = port ∧ s.fld .tribEvt 0 4 20 20 = sub then .next (s.sendEvents p start) else .next s
  else
    let x := s.port p
    match x.txq with
    | [] => .next s
    | f :: l => .next ((s.setPort p { x with txq := l }).sendFrame p f start)

end Sys2Proof.Machine
end

