-- ==== Sys2Proof/Machine/Time.lean ====
section
/-! DEFINITION. Braid time (chapter 4): the time states, time words, root switch, PTP, and the end of an epoch. -/

namespace Sys2Proof.Machine

/-- The device that is the time root now (R96, R101). -/
def State.rootId (s : State) : Nat := if s.time.onAlt then s.fld .timeCfg 0 0 30 18 else s.fld .timeCfg 0 0 17 5
def State.iAmRoot (s : State) : Bool := s.device == s.rootId
def State.altEn (s : State) : Bool := s.fld .timeCfg 0 0 31 31 == 1

/-- The parent port (R97): of the pair that leads one hop towards the root, the lower-numbered one that is up. -/
def State.parentPort (s : State) : Option Nat :=
  if s.iAmRoot then none
  else
    (s.firstHop s.device s.rootId).bind (fun d =>
      [torusPort 0 d.1 d.2, torusPort 1 d.1 d.2].find? (fun b => (s.brPort b).step == 6))

/-- The times that the time base counts its waits from, moved with BT as BT takes a new value: the waits go on (log 89). -/
def TimeSt.shifted (x : TimeSt) (bt : Nat) : TimeSt :=
  let f := fun (t : Nat) => t + bt - x.bt
  { x with bt := bt, lastWord := f x.lastWord, lastBeat := f x.lastBeat, firstUp := x.firstUp.map f, holdFrom := f x.holdFrom
           sentAt := x.sentAt.mapVals (fun _ t => f t), tx64 := x.tx64.mapVals (fun _ t => t + 64 * bt - 64 * x.bt)
           rx64 := x.rx64.mapVals (fun _ t => t + 64 * bt - 64 * x.bt) }
/-- The ticks that a Braid port counts its limits from, moved likewise. -/
def BrPort.shifted (x : BrPort) (was bt : Nat) : BrPort :=
  { x with stepAt := x.stepAt + bt - was, lastDown := x.lastDown.map (fun t => t + bt - was) }

/-- BT takes a new value, in ACQUIRE only (R99): the epoch count goes on from there. -/
def State.setBt (s : State) (bt : Nat) : State :=
  let was := s.time.bt
  let s := { s with time := { s.time.shifted bt with valid := true, btSet := true, acquiredIn := none }
                    braid := { s.braid with ports := s.braid.ports.mapVals (fun _ x => x.shifted was bt) } }
  let e := s.epoch
  { s with time := { s.time with started := e }, weir := { s.weir with live := [e] } }

/-- The device enters LOCKED and raises TIME_LOCKED (R99). DESIGN CHOICE (log 73): the root is shown as root from its lock on. -/
def State.enterLocked (s : State) : State :=
  let s := { s with time := { s.time with state := 1, close := 0, expiring := false, isRoot := s.iAmRoot, valid := true } }
  s.event 0x0400 0xFFFF 0xFF s.now

/-- The device enters ACQUIRE (R99, R103). -/
def State.enterAcquire (s : State) : State :=
  { s with time := { s.time with state := 0, close := 0, btSet := false, isRoot := false, acquiredIn := some s.epoch } }

/-- The first time parameter of a word that differs from this device's (R103, Table 4.16). -/
def State.paramMismatch (s : State) (w : TimeWord) : Option Nat :=
  if w.epochLog2 ≠ s.epochLog2 then some 1
  else if w.ingress ≠ s.ingressBound then some 2
  else if w.fabric ≠ s.fabricBound then some 3
  else if w.releaseAdd ≠ s.fld .timeLock 0 0 15 0 then some 4
  else none

/-- A device that has become the root outside ACQUIRE is LOCKED at once (Table 4.1): out of HOLDOVER it raises TIME_LOCKED. -/
def State.rootTakesOver (s : State) : State :=
  if s.iAmRoot = false then s
  else match s.time.state with
    | 0 => s
    | 2 => s.enterLocked
    | _ => { s with time := { s.time with isRoot := true } }

/-- The device follows the alternate root from now on (R101), and raises ROOT_SWITCH once. The alternate root itself becomes root and keeps its own BT; in
ACQUIRE it takes time as R102 states. -/
def State.followAlt (s : State) : State :=
  if s.time.onAlt then s
  else
    let s := { s with time := { s.time with onAlt := true, isRoot := false } }
    let s := s.event 0x0403 s.rootId 0xFF s.now
    s.rootTakesOver.noteDegraded

/-- A word's BT at its marked symbol, and when that symbol came, in sixty-fourths of a tick (R396). -/
def TimeWord.sent64 (w : TimeWord) : Nat := 64 * w.bt + w.btFrac % 64
def State.came64 (s : State) (w : TimeWord) : Nat := 64 * s.now + w.rxFrac % 64
/-- The sender's BT as a word's marked symbol came: BT plus the one-way delay, in sixty-fourths of a tick. -/
def TimeWord.then64 (w : TimeWord) : Nat := w.sent64 + w.delay
/-- Notes a word's arrival on its port and measures the link (R396): the one-way delay is half of the round trip, from this device's last word on the port,
less TURN. A TURN of 0 follows no word of this device's, and measures nothing (DESIGN CHOICE, log 99). -/
def State.timed (s : State) (port : Nat) (w : TimeWord) : State × TimeWord :=
  let rx := s.came64 w
  let n := { s with time := { s.time with rx64 := s.time.rx64.put port rx } }
  match s.time.tx64.find? port with
  | some tx => if w.turn = 0 ∨ rx < tx + w.turn then (n, { w with delay := 0, measured := false }) else (n, { w with delay := (rx - tx - w.turn) / 2, measured := true })
  | none => (n, { w with delay := 0, measured := false })

/-- A measurement of the offset from the parent (R99), to 1/64 tick. -/
def State.measure (s : State) (w : TimeWord) : State :=
  let off : Int := (w.then64 : Int) - s.came64 w
  let near := decide (off.natAbs ≤ 128)
  let s := { s with time := { s.time with offset := off.tdiv 64, close := if near then s.time.close + 1 else 0 } }
  match s.time.state with
  | 0 => if 16 ≤ s.time.close then s.enterLocked else s
  | 2 => s.enterLocked
  | _ => s

/-- A time word from the parent port or its pair has come (R99, R101): it ends the wait of holdover, and a heartbeat that moved is noted. -/
def State.hearParent (s : State) (w : TimeWord) : State :=
  let beat := decide (w.heartbeat ≠ s.time.beat)
  { s with time := { s.time with lastWord := s.now, beat := w.heartbeat, lastBeat := if beat then s.now else s.time.lastBeat } }

/-- BT may be set from the parent (R102): the epoch in which the device returned to ACQUIRE is over, and no admitted record is left. -/
def State.liveEnded (s : State) : Bool :=
  (match s.time.acquiredIn with | some e => decide (e < s.epoch) | none => true) && s.weir.hubs.all (fun h => h.recs.isEmpty)

/-- A time word from the parent of a device that is not the root (R99, R103, R106). -/
def State.parentWord (s : State) (port : Nat) (w : TimeWord) : State :=
  let s := s.hearParent w
  let s := { s with time := { s.time with wall := w.wall, wallSet := s.time.wallSet || decide (w.wall ≠ 0) } }
  match s.paramMismatch w with
  | some k => (if s.time.state = 0 then s else s.enterAcquire).event 0x0404 port 0xFF k
  | none =>
    if w.measured = false then s
    else if s.time.state = 0 ∧ s.time.btSet = false then
      if w.valid = true ∧ s.liveEnded = true then s.setBt (w.then64 / 64) else s
    else s.measure w

/-- The word that carries the greatest valid BT of those heard on ports whose delay is measured, as it would stand now, and that BT in sixty-fourths of a
tick (R102). -/
def State.greatestBt (s : State) : Option (Nat × TimeWord) :=
  (s.time.heard.filter (fun x => x.2.2.measured)).foldl (fun best x =>
    let bt := x.2.2.sent64 + 64 * (s.now - x.2.1)
    match best with
    | some b => if b.1 < bt then some (bt, x.2.2) else best
    | none => some (bt, x.2.2)) none

/-- A time word at a root in ACQUIRE (R102): the greatest valid BT received, with the delay measured on its port, sets its own, and it locks. -/
def State.rootWord (s : State) (port : Nat) (w : TimeWord) : State :=
  if s.time.state ≠ 0 ∨ w.valid = false then s
  else
    let s := { s with time := { s.time with heard := s.time.heard.put port (s.now, w) } }
    match s.greatestBt with
    | none => s
    | some (bt, v) =>
      let s := (s.setBt ((bt + v.delay) / 64)).enterLocked
      { s with time := { s.time with heard := [], wall := v.wall, wallSet := s.time.wallSet || decide (v.wall ≠ 0) } }

/-- The port is the pair of the parent port: it leads the same hop towards the root (R97). -/
def State.parentPair (s : State) (port : Nat) : Bool :=
  !s.iAmRoot && (match s.firstHop s.device s.rootId with | some d => [torusPort 0 d.1 d.2, torusPort 1 d.1 d.2].contains port | none => false)

/-- TIME_WORD_RECEIVED (R96 to R103, R396): words on attached ports, or on ports that are not up, are ignored. DESIGN CHOICE (log 73): a word whose ON_ALT
is set tells any device of the domain that it follows the alternate root. -/
def execTimeWordReceived (port : Nat) (w : TimeWord) (s : State) : Out := s.gated <|
  if (s.brPort port).step ≠ 6 ∨ s.fld .braidPortCfg port 0 2 1 ≠ 0 then .next s
  else
    let r := s.timed port w
    let w := r.2
    let s := if w.onAlt ∧ r.1.altEn = true then r.1.followAlt else r.1
    if s.iAmRoot then .next (s.rootWord port w)
    else if s.parentPort = some port then .next (s.parentWord port w)
    else if s.parentPair port then .next (s.hearParent w)
    else .next s

/-- TIME_WORD_SEND (R396): once every 1,024 ticks on each port that is up; the root's heartbeat counts its words. When in the tick the marked symbol leaves is
free. -/
def execTimeWordSend (port : Nat) (s : State) : Out := s.gated <|
  let due := match s.time.sentAt.find? port with | none => true | some t => decide (t + 1024 ≤ s.now)
  if (s.brPort port).step ≠ 6 ∨ due = false then .next s
  else
    let beat := if s.iAmRoot then (s.time.beat + 1) % 65536 else s.time.beat
    let f := s.freshWord
    let s := f.2
    let tx := 64 * s.now + f.1 % 64
    let turn := match s.time.rx64.find? port with | some rx => (tx - rx) % 2 ^ 32 | none => 0
    let w : TimeWord := { bt := s.now, btFrac := f.1 % 64, turn := turn, valid := s.time.valid, state := s.time.state, root := s.rootId, heartbeat := beat
                          onAlt := s.time.onAlt, epochLog2 := s.epochLog2, ingress := s.ingressBound, fabric := s.fabricBound
                          releaseAdd := s.fld .timeLock 0 0 15 0, wall := s.time.wall }
    .next { s with time := { s.time with beat := beat, sentAt := s.time.sentAt.put port s.now, tx64 := s.time.tx64.put port tx, words := s.time.words ++ [(port, w)] } }

/-- HOLDOVER_ENTRY (R99): no time word from the parent port pair for 8,192 ticks. -/
def execHoldoverEntry (s : State) : Out := s.gated <|
  if s.time.state = 1 ∧ s.iAmRoot = false ∧ s.time.lastWord + 8192 ≤ s.now then
    let p := match s.firstHop s.device s.rootId with | some d => torusPort 0 d.1 d.2 | none => 0xF
    let s := { s with time := { s.time with state := 2, holdFrom := s.now } }
    .next (s.event 0x0401 (s.parentPort.getD p) 0xFF s.now).noteDegraded
  else .next s

/-- HOLDOVER_EXPIRY (R100): 2^23 ticks without a parent. -/
def execHoldoverExpiry (s : State) : Out := s.gated <|
  if s.time.state = 2 ∧ s.time.holdFrom + 2 ^ 23 ≤ s.now then
    let s := s.enterAcquire
    let s := { s with time := { s.time with expiring := true } }
    .next (s.event 0x0402 0xFFFF 0xFF s.now)
  else .next s

/-- ROOT_SWITCH (R101): no root heartbeat for 2^20 ticks; the alternate root becomes root and keeps its own BT. -/
def execRootSwitch (s : State) : Out := s.gated <|
  if s.altEn = true ∧ s.time.onAlt = false ∧ s.iAmRoot = false ∧ s.time.lastBeat + 2 ^ 20 ≤ s.now then
    .next s.followAlt
  else .next s

/-- ROOT_BT_START (R102): a root that no valid BT has reached starts BT at 0, 2^24 ticks after its first port came up, or at once with no port
enabled. -/
def execRootBtStart (s : State) : Out := s.gated <|
  let none' := (List.range 12).all (fun b => s.fld .braidPortCfg b 0 0 0 == 0)
  let due := none' || (match s.time.firstUp with | some t => decide (t + 2 ^ 24 ≤ s.now) && s.time.heard.isEmpty | none => false)
  if s.iAmRoot = true ∧ s.time.state = 0 ∧ 6 < s.head.step ∧ due = true then .next ((s.setBt 0).enterLocked) else .next s

/-- Lexicographic comparison of two Announce ranks, field by field. -/
def rankLt : List Nat → List Nat → Bool
  | [], _ => false
  | _, [] => true
  | a :: as, b :: bs => if a < b then true else if b < a then false else rankLt as bs

/-- A measurement of PTP time on the root (R105): it sets TIME_WALL as PTP first locks, and later steps it by a jump of 1 ms or more. -/
def State.ptpTime (s : State) (t : Int) : State :=
  let est : Int := (s.now : Int) + s.time.wall
  let jump := t - est
  let s := { s with time := { s.time with ptpLocked := true } }
  if s.time.wallSet = false then { s with time := { s.time with wall := t - s.now, wallSet := true } }
  else if 1000000 ≤ jump.natAbs then
    let s := { s with time := { s.time with wall := s.time.wall + jump } }
    s.event 0x0405 0xFFFF 0xFF (wrapI 64 jump)
  else s

/-- The master that the best master clock algorithm selects over the Announce messages heard (R104): the one of the best rank; of equal ones the
lowest identity. -/
def State.ptpBest (s : State) : Option Nat :=
  (s.time.ptpMasters.foldl (fun (best : Option (Nat × List Nat)) x =>
    match best with
    | some b => if rankLt x.2 b.2 then some x else best
    | none => some x) none).map Prod.fst

/-- PTP_MESSAGE (R104, R105): taken on the PTP port, in the configured transport and domain, by the root. An Announce replaces what its master said
before; only the best master's Sync is answered with a Delay_Req, and only its time is taken. -/
def execPtpMessage (port : Nat) (m : PtpMsg) (s : State) : Out := s.gated <|
  let p := 2 * port
  if s.portUsed p = false ∨ (s.port p).up = false then .next s
  else
    let s := s.discard p 0
    match s.macsecCheck p m.tag with
    | none => .next (s.discard p 4)
    | some sas =>
      let s := s.setPort p { s.port p with rxSa := sas }
      let c := s.rd .timePtp 0 0
      if bit c 0 = false ∨ s.time.isRoot = false ∨ bits c 4 1 ≠ port ∨ bits c 6 5 ≠ m.transport ∨ bits c 14 7 ≠ m.domain then .next s
      else
        match m.kind with
        | .announce r => .next { s with time := { s.time with ptpMasters := s.time.ptpMasters.put m.source r } }
        | .sync =>
          if s.ptpBest ≠ some m.source ∨ s.mayTransmit p = false then .next s
          else
            let q := s.protect p
            .next { q.1 with trib := { q.1.trib with out := q.1.trib.out ++ [TxOut.ptp port 0 q.2] } }
        | .time t => if s.ptpBest = some m.source then .next (s.ptpTime t) else .next s
        | .unsupported => .next s

/-- PTP_LOCK_LOSS (R106): BT runs on at the last steered rate; the master is to be chosen anew. -/
def execPtpLockLoss (s : State) : Out := s.gated <|
  if s.time.isRoot then .next { s with time := { s.time with ptpLocked := false, ptpMasters := [] } } else .next s

/-- No admitted record of an epoch is left whose reply has not left. -/
def State.epochEmpty (s : State) (epoch : Nat) : Bool := s.weir.hubs.all (fun h => h.recs.all (fun r => r.2.phase == .tail || r.2.epoch != epoch))

/-- An epoch of a tenant stops being live (R338): its marker is written. In a replay session the epochs from M on end original epochs, and the marker
names the original one (R347); the live records refused in such an epoch have a marker of its own name before it. -/
def State.endEpoch (s : State) (t epoch : Nat) : State :=
  match s.session t with
  | none => s.epochMarker t epoch
  | some z =>
    if epoch < z.m then s.epochMarker t epoch
    else
      let orig := epoch - z.m + z.n
      let s := if orig != epoch && ((s.capOf t).digests.find? epoch).isSome then s.epochMarker t epoch else s
      s.epochMarker t orig

/-- EPOCH_NO_LONGER_LIVE (R114, R338): its last tick has passed and its last admitted record's reply has left; each tenant's marker is
written. -/
def execEpochNoLongerLive (epoch : Nat) (s : State) : Out := s.gated <|
  if epoch ∈ s.weir.live ∧ epoch < s.epoch ∧ s.epochEmpty epoch = true then
    let s := { s with weir := { s.weir with live := s.weir.live.filter (· ≠ epoch) } }
    .next ((List.range 4).foldl (fun s t => s.endEpoch t epoch) s)
  else .next s

end Sys2Proof.Machine
end

