-- ==== Sys2Proof/Machine/Areas.lean ====
section
/-! DEFINITION. The map of external memory (R436 to R438, R445): where an address lies, whose it is, the pages of an owner, and the end of a sweep
over them (R446). -/

namespace Sys2Proof.Machine

/-- The owner of a 1 MiB line of the shared window (Tables 16.2 and 16.3). -/
def lineOwner (ten : Bool) (i : Nat) : Option Nat :=
  let t := fun (base len : Nat) => if ten then (i - base) / len else 0
  if i < 16384 then some 4
  else if i < 24576 then some (t 16384 2048)
  else if i < 32768 then some 4
  else if i < 131072 then some (t 32768 24576)
  else if i < 196608 then some (t 131072 16384)
  else none

/-- The tenant whose Eddy region of a partition holds its MiB `g`, and the region's first MiB: shares in GiB in tenant order. -/
def shareOwner : List Nat → Nat → Nat → Nat → Option (Nat × Nat)
  | [], _, _, _ => none
  | x :: l, t, lo, g => if g < lo + 1024 * x then some (t, lo) else shareOwner l (t + 1) (lo + 1024 * x) g
def eddyOwner (ten : Bool) (shares : List Nat) (g : Nat) : Option (Nat × Nat) :=
  if 86016 ≤ g then none else if ten then shareOwner shares 0 0 g else some (0, 0)

/-- The owner of a page of a stack (R437, R445): pages 0 to 32,767 hold the stack's lines of the window, the others its partition. -/
def pageOwner (ten : Bool) (shares : List Nat) (stack page : Nat) : Option Nat :=
  if page < 32768 then lineOwner ten (6 * page + stack % 6) else (eddyOwner ten shares (page - 32768)).map (·.1)

def State.shares (s : State) : List Nat := (List.range 4).map (fun t => s.rd .memEddyShare t 0)

/-- Where a device address lies (R436, R437): its copies as (stack, stack offset), none outside the map. -/
def placeOf (addr : Nat) : List (Nat × Nat) :=
  if addr < 0x3000000000 then
    let i := addr / 2 ^ 20
    let off := i / 6 * 2 ^ 20 + addr % 2 ^ 20
    [(i % 6, off), (i % 6 + 6, off)]
  else
    let p := (addr - 0x10000000000) / 0x2000000000
    let off := (addr - 0x10000000000) % 0x2000000000
    if 0x10000000000 ≤ addr ∧ p < 12 ∧ off < 84 * 2 ^ 30 then [(p, 32 * 2 ^ 30 + off)] else []

/-- The owner of a device address. -/
def State.ownerOf (s : State) (addr : Nat) : Option Nat :=
  match placeOf addr with
  | [] => none
  | c :: _ => pageOwner s.tenancy s.shares c.1 (c.2 / 2 ^ 20)

/-- The window areas of an owner as (first line, lines), and its Eddy region as (first MiB, MiB) of each partition (Table 16.3). -/
def State.windowAreas (s : State) (o : Nat) : List (Nat × Nat) :=
  if o = 4 then [(0, 16384), (24576, 8192)]
  else if s.tenancy then [(16384 + 2048 * o, 2048), (32768 + 24576 * o, 24576), (131072 + 16384 * o, 16384)]
  else if o = 0 then [(16384, 8192), (32768, 98304), (131072, 65536)] else []
def State.eddyRegion (s : State) (o : Nat) : Nat × Nat :=
  if 4 ≤ o then (0, 0)
  else if s.tenancy then (1024 * (s.shares.take o).sum, 1024 * nth s.shares o 0)
  else if o = 0 then (0, 86016) else (0, 0)

/-- The page spans of an owner in a stack, rising, as (first page, page past the last). -/
def State.ownerSpans (s : State) (o stack : Nat) : List (Nat × Nat) :=
  let j := stack % 6
  let e := s.eddyRegion o
  (s.windowAreas o).map (fun a => (ceilDiv (a.1 - j) 6, ceilDiv (a.1 + a.2 - j) 6)) ++ [(32768 + e.1, 32768 + e.1 + e.2)]

/-- The first page of an owner from a page on. -/
def nextPage : List (Nat × Nat) → Nat → Option Nat
  | [], _ => none
  | x :: l, p => if max x.1 p < x.2 then some (max x.1 p) else nextPage l p
def spanPages (l : List (Nat × Nat)) : Nat := (l.map (fun x => x.2 - x.1)).sum

/-- The pages of an owner over all stacks, and those that a rotation counts as done on failed stacks (R456). -/
def State.ownerPages (s : State) (o : Nat) : Nat := ((List.range 12).map (fun p => spanPages (s.ownerSpans o p))).sum
/-- Those on the stacks that are accessed, which a scrub writes (R456). -/
def State.pagesOn (s : State) (o : Nat) : Nat :=
  (((List.range 12).filter (fun p => (nth s.mem.stk p {}).state != 2)).map (fun p => spanPages (s.ownerSpans o p))).sum
def State.sweepDone (s : State) (r : Rotation) : Nat :=
  ((List.range 12).map (fun p => if (nth s.mem.stk p {}).state = 2 then
      spanPages ((s.ownerSpans r.owner p).map (fun x => (max x.1 (nth r.next p 0), x.2))) else 0)).sum + r.done

/-- Ends a rotation whose pages are all done (R446). -/
def State.endSweep (s : State) : State :=
  match s.mem.rotation with
  | none => s
  | some r =>
    if s.sweepDone r < s.ownerPages r.owner then s
    else
      let k := nth s.mem.keys r.owner (0, 0)
      let k := if r.gen = 1 then (0, k.2) else (k.1, 0)
      let s := { s with mem := { s.mem with rotation := none, keys := setNth s.mem.keys r.owner k } }
      s.event 0x1002 r.owner (if r.owner < 4 then r.owner else 0xFF) (detailOf [(1, r.gen), (3, 0), (4, s.ownerPages r.owner)])

/-- The tenant and slot of a bundle store address (Table 16.3). -/
def State.slotAt (s : State) (addr : Nat) : Option (Nat × Nat) :=
  if addr < 0x400000000 ∨ 0x600000000 ≤ addr then none
  else
    let o := addr - 0x400000000
    if s.tenancy then some (o / 2 ^ 31, o % 2 ^ 31 / 2 ^ 30) else some (0, o / 2 ^ 32)

end Sys2Proof.Machine
end

