-- ==== Sys2Proof/Machine/Fetch.lean ====
section
/-! DEFINITION. The fetch engines (chapter 5): tasks, the choice of a replica, the issue of records into stages, stage buffers, exit
tests, task aborts and drains (R141 to R156). -/

namespace Sys2Proof.Machine

/-- A stream of a hub die. -/
def State.stream? (s : State) (h st : Nat) : Option StreamSt := (s.hub h).streams.find? st
def State.setStream (s : State) (h st : Nat) (x : StreamSt) : State :=
  let w := s.hub h
  s.setHub h { w with streams := w.streams.put st x }

/-- The first die and the span of a die group code (Table 5.5), and the code of a group. -/
def groupDies (g : Nat) : List Nat :=
  if g < 8 then [g] else if g < 12 then [2 * (g - 8), 2 * (g - 8) + 1]
  else if g < 14 then (List.range 4).map (4 * (g - 12) + ·) else List.range 8
def groupCode (dies : List Nat) : Nat :=
  let d := dies.headD 0
  match dies.length with
  | 1 => d
  | 2 => 8 + d / 2
  | 4 => 12 + d / 4
  | _ => 14

/-- The tasks of a set (R141): one per cascade stage and replica, and one per replica of an optional ensemble. -/
def taskList (m : ModelSet) : List (Nat × Nat × Nat × Nat × Nat) :=
  m.cascades.flatMap (fun c => (c.stages.zipIdx).flatMap (fun st =>
    (List.range (m.replicas st.1.ensemble)).map (fun r => (1, c.index, st.2, st.1.ensemble, r)))) ++
  (m.ensembles.filter Ensemble.isOptional).flatMap (fun e => (List.range (m.replicas e.index)).map (fun r => (2, 0, 0, e.index, r)))

/-- The pipeline a task's descriptor names: the lowest that uses its cascade, or names its optional ensemble. -/
def taskPipe (m : ModelSet) (kind casc ens : Nat) : Nat :=
  ((m.pipelines.filter (fun p => p.valid && (if kind = 1 then p.cascade == casc else p.optional.contains ens))).map Pipeline.pipe).foldl min 255

/-- The descriptor of a task (Table 5.4): the firmware chooses MAX_INFLIGHT, DIE_BLOCKS and the ring. -/
def taskDesc (m : ModelSet) (k : Nat) (t : Nat × Nat × Nat × Nat × Nat) : StreamDesc :=
  let total := (taskList m).length
  { kind := t.1, persist := 1, pipe := taskPipe m t.1 t.2.1 t.2.2.2.1, stage := t.2.2.1, cascade := t.2.1
    group := groupCode (m.replicaDies t.2.2.2.1 t.2.2.2.2), engine := k % 16, sem := Config.taskSem k total % 512, semEn := Config.taskSemOn k total
    base := Config.taskBase k total % 2 ^ 48, count := max 1 (Config.taskCount k total % 2 ^ 32)
    maxInflight := min 4096 (max 1 (Config.taskInflight k total)), dieBlocks := min 1024 (max 1 (Config.taskBlocks k total)) }

/-- The share of each die's input queue that a set's tasks take, over both hub dies, fits 1,024 blocks (R146). -/
def tasksFit (m : ModelSet) : Bool :=
  (List.range 8).all (fun d =>
    decide (2 * ((((taskList m).zipIdx).map (fun t =>
      let x := taskDesc m t.2 t.1
      if d ∈ groupDies x.group then x.dieBlocks else 0)).sum) ≤ 1024))

/-- The base of a tenant's Spillway area for a half (Table 16.3). -/
def State.spillBase (s : State) (t half : Nat) : Nat :=
  0x800000000 + (if s.tenancy then (24 * t + 12 * half) * 2 ^ 30 else 48 * half * 2 ^ 30)

/-- The directory indices of the trees that a serving slot's window takes, in directory order (R239, R243): the spilled trees of its image, then
those of the slot 8 above that it serves. -/
def spillTrees (m : ModelSet) (slot : Nat) : List Nat :=
  let img := SMap.getD (fun _ => []) m.slots slot
  let more := match m.ext.find? (slot + 8) with
    | some a => (List.range (((SMap.getD (fun _ => []) m.runs (slot + 8)).map SlotRun.count).sum)).map (a + ·)
    | none => []
  (List.range (slotHead img).trees ++ more).filter (fun i => (dirAt img i).spill)
/-- The blocks of a spilled tree, in the set's Spillway area, and those of all the trees of a serving slot, in directory order. -/
def DirEntry.blocks (e : DirEntry) : List Nat := (List.range (e.spLen + 1)).map (e.spBlock + ·)
def spillBlocks (m : ModelSet) (slot : Nat) : List Nat :=
  (spillTrees m slot).flatMap (fun i => (dirAt (SMap.getD (fun _ => []) m.slots slot) i).blocks)

/-- The SPILL streams of a set (R243): one ring per slot that serves spilled trees, at the set's Spillway base, its elements the blocks of those
trees. DESIGN CHOICE (log 69): the k-th of them runs on hub die k mod 2. -/
def State.spillDescs (s : State) (t : Nat) (i : SetInst) : List (Nat × Nat × StreamDesc) :=
  let xs := (i.set.slots.map (fun x => (x.1, (spillBlocks i.set x.1).length))).filter (fun x => x.2 != 0)
  (xs.zipIdx).map (fun x =>
    (x.2 % 2, x.1.1, { kind := 3, persist := 1, group := x.1.1 / 66, engine := x.2 / 2 % 16, base := s.spillBase t i.half, count := x.1.2 }))

/-- A descriptor with no reserved value in any field (R142, Table 5.4). -/
def StreamDesc.legal (d : StreamDesc) : Bool :=
  let rec_ := d.kind == 1 || d.kind == 2
  decide (d.kind < 7) && decide (d.persist < 3) && (if rec_ then decide (d.pipe < 256) else d.pipe == 0) && decide (d.stage < 8) &&
  decide (d.cascade < 32) && decide (d.group < 15) && decide (d.engine < 16) && decide (d.sem < 512) && decide (d.base < 2 ^ 48) &&
  decide (1 ≤ d.count) && decide (d.count < 2 ^ 32) && decide (1 ≤ d.maxInflight) && decide (d.maxInflight ≤ 4096) &&
  decide (1 ≤ d.dieBlocks) && decide (d.dieBlocks ≤ 1024) && d.reserved == 0

/-- Arms a stream at the lowest free number of its hub die; one whose descriptor is refused stays IDLE (R142). -/
def State.armStream (s : State) (h : Nat) (x : StreamSt) : State :=
  s.setStream h (freeIndex (s.hub h).streams 0) { x with state := b2n x.desc.legal, armed := s.now }

/-- Creates the streams of a set that becomes active (R141, R243). -/
def State.armTasks (s : State) (t : Nat) (i : SetInst) : State :=
  let m := i.set
  let s := (List.range 2).foldl (fun s h =>
    ((taskList m).zipIdx).foldl (fun s k =>
      s.armStream h { desc := taskDesc m k.2 k.1, tenant := t, setId := m.setId, version := m.version, ens := k.1.2.2.2.1
                      replica := k.1.2.2.2.2 }) s) s
  (s.spillDescs t i).foldl (fun s x =>
    s.armStream x.1 { desc := x.2.2, tenant := t, setId := m.setId, version := m.version, replica := x.2.1 }) s

/-- Ends the streams of a kind of a tenant: they have nothing left to move. -/
def State.endStreams (s : State) (t kind : Nat) : State :=
  (List.range 2).foldl (fun s h =>
    let w := s.hub h
    s.setHub h { w with streams := w.streams.keep (fun _ x => !(x.tenant == t && x.desc.kind == kind)) }) s

/-- The LOAD streams of a bundle that is being placed (R141): one-shot, over the bundle in its slot (Table 16.3). DESIGN CHOICE (log 80): one on each
hub die, on fetch engine 0. -/
def State.armLoad (s : State) (t slot bytes : Nat) (m : ModelSet) : State :=
  let base := 0x400000000 + (if s.tenancy then 2 * t + slot else 4 * slot) * 2 ^ 30
  let d : StreamDesc := { kind := 4, group := groupCode (s.tenantDies t), base := base, count := max 1 (ceilDiv bytes 256) }
  (List.range 2).foldl (fun s h => s.armStream h { desc := d, tenant := t, setId := m.setId, version := m.version }) s

/-- The EXPORT streams of a tenant (R188): one-shot, one for each partition that is not lost, over the tenant's Eddy region of it. DESIGN CHOICE (log
80): on fetch engine p mod 6 of the hub die of stack p. -/
def State.armExport (s : State) (t first mib : Nat) : State :=
  if mib = 0 then s
  else
    ((List.range 12).filter (fun p => !s.eddy.lost.contains p)).foldl (fun s p =>
      let d : StreamDesc := { kind := 6, group := groupCode (s.tenantDies t), engine := p % 6, base := 0x10000000000 + p * 0x2000000000 + first * 2 ^ 20
                              count := mib * 4096 }
      s.armStream (p / 6) { desc := d, tenant := t, replica := p }) s

/-- Retires the streams of a set (R141). -/
def State.retireTasks (s : State) (t setId version : Nat) : State :=
  (List.range 2).foldl (fun s h =>
    let w := s.hub h
    s.setHub h { w with streams := w.streams.keep (fun _ x => !(x.tenant == t && x.setId == setId && x.version == version)) }) s

/-- A run is in flight: issued, and its partials have not all returned (R152). -/
def StageRun.flying (r : StageRun) : Bool := r.issued && !r.left.isEmpty
/-- The records of a task: entry, and the optional slot of an OPTIONAL task. -/
def State.taskRecs (s : State) (h st : Nat) : List (Nat × Option Nat) :=
  (s.hub h).recs.flatMap (fun r =>
    (if r.2.phase = .issued ∧ r.2.run.stream = st ∧ r.2.run.flying = true then [(r.1, none)] else []) ++
    (r.2.opts.filter (fun o => (o.state == 2 || o.state == 4) && o.run.stream == st && o.run.flying)).map (fun o => (r.1, some o.slot)))
/-- The records of a task that are done and hold a return queue entry. -/
def State.taskHeld (s : State) (h st : Nat) : List (Nat × Option Nat) :=
  ((s.hub h).recs.filter (fun r => r.2.heldRet && r.2.run.stream == st)).map (fun r => (r.1, none))
/-- The records in flight on a task's die group (Table 5.14): a record counts until its partials have left the return queue (R151). -/
def State.inflight (s : State) (h st : Nat) : Nat := (s.taskRecs h st).length + (s.taskHeld h st).length

/-- The blocks of a task's share of a die's input queue in use: the vectors that the die's record bus has not taken (R227). -/
def State.shareUsed (s : State) (d h st : Nat) : Nat :=
  ((s.die.recs.filter (fun x => x.die == d && x.hub == h && x.stream == st && !x.taken)).map (fun x =>
    match s.ent? h x.ent with
    | some e => ceilDiv e.vec.length 256
    | none => 0)).sum

/-- The stream of a hub die that serves a stage of a set's cascade, or an optional ensemble, by a replica. -/
def State.findTask (s : State) (h : Nat) (e : RecEnt) (kind casc stage ens rep : Nat) : Option (Nat × StreamSt) :=
  let m := s.recSet e
  List.find? (fun (x : Nat × StreamSt) =>
    x.2.desc.kind == kind && x.2.tenant == e.r.tenant && x.2.setId == m.setId && x.2.version == m.version && x.2.ens == ens &&
    x.2.replica == rep && (kind == 2 || (x.2.desc.cascade == casc && x.2.desc.stage == stage))) (s.hub h).streams

/-- The free blocks of a replica's share on its tightest die; none while the replica is unavailable (R145, R248). -/
def State.freeBlocks (s : State) (h : Nat) (e : RecEnt) (kind casc stage ens rep : Nat) : Nat :=
  match s.findTask h e kind casc stage ens rep with
  | none => 0
  | some (st, x) =>
    if s.replicaOk (s.recSet e) ens rep then
      ((groupDies x.desc.group).map (fun d => x.desc.dieBlocks - s.shareUsed d h st)).foldl min 1024
    else 0

/-- The replica with the most free blocks; ties go to the lowest die. -/
def bestReplica (free : Nat → Nat) : List Nat → Option Nat
  | [] => none
  | r :: rs =>
    match bestReplica free rs with
    | none => some r
    | some b => if free b ≤ free r then some r else some b

/-- The replica that takes a record (R145, R487): by free blocks in Fast mode, by the order key in Lockstep mode. -/
def State.replicaFor (s : State) (h : Nat) (e : RecEnt) (kind casc stage ens : Nat) : Option Nat :=
  let m := s.recSet e
  let left := (List.range (m.replicas ens)).filter (fun r => !s.replicaLost m ens r)
  if left.isEmpty then none
  else if e.lock then keyReplica (e.r.key.seq + e.r.key.port) (m.replicas ens) (fun r => e.removed.contains (false, ens, r)) (s.replicaLost m ens)
  else bestReplica (s.freeBlocks h e kind casc stage ens) left

/-- The unit class of a stage that has no replica left (R249, R266): tile, or match unit where every slot is served. -/
def State.lostClass (s : State) (m : ModelSet) (ens : Nat) : Nat :=
  if (List.range (m.replicas ens)).any (fun r => (m.replicaSlots ens r).any (s.tileLost m)) then 1 else 2

/-- A bias table entry as it enters a sum (R283, R288). -/
def biasVal (p : SumPath) (s : Int) (v : Nat) : Int :=
  match p with
  | .int => sgn 32 v
  | .fx => (fxConvert s (storedF32 v)).1
  | .f32 => ((storedF32 v : Nat) : Int)

/-- The preload of a stage (R288): per output its bias plus the residual of the stage before. -/
def preloads (x : Ensemble) (p : SumPath) (residual : List Int) : List Int :=
  (List.range x.outputs).map (fun o =>
    addSum p (if x.hasBias then biasVal p x.scale (nth x.bias o 0) else 0) (nth residual o 0))

/-- The units of a die that hold trees of an ensemble in a replica: slot s, or 66 plus logical unit m (R228, R262). -/
def unitsOn (m : ModelSet) (us : SMap MuImage) (ens rep d : Nat) : List Nat :=
  ((m.replicaSlots ens rep).filter (fun x => x / 66 == d && (match m.runAt x ens with | some r => decide (0 < r.count) | none => false))).map
    (· % 66) ++
  ((m.replicaUnits ens rep).filter (fun x => x / 9 == d && decide (0 < (muRun (SMap.getD (fun _ => {}) us x) ens).count))).map
    (fun x => 66 + x % 9)

/-- Issues a run of a record into a task: the record's entries on each die of the group; a die with neither trees nor a preload sends
its empty partial at once (R148, R288, R290). Answers the run. -/
def State.issueRun (s : State) (h i st : Nat) (x : StreamSt) (e : RecEnt) (opt : Option Nat) (residual : List Int) : State × StageRun :=
  let m := s.recSet e
  let en := (m.ensemble x.ens).getD {}
  let inst := (s.recInst e).getD {}
  let p := sumPath en.leafType e.lock
  let dies := groupDies x.desc.group
  let zero := List.replicate en.outputs (0 : Int)
  let recs := (dies.zipIdx).map (fun d =>
    let todo := unitsOn m inst.units x.ens x.replica d.1
    ({ die := d.1, hub := h, ent := i, stream := st, gen := x.gen, opt := opt, ens := x.ens, path := p
       bank := if inst.full then 0 else inst.half, todo := todo, taken := todo.isEmpty
       needPre := d.2 == 0 && (en.hasBias || !residual.isEmpty), sums := zero } : DieRec))
  let s := ({ s with die := { s.die with recs := s.die.recs ++ recs } } : State).pumpPartials
  (s.setStream h st { x with elem := x.elem + 1, sent := x.sent + 1 },
   { ens := x.ens, path := p, replica := x.replica, stream := st, gen := x.gen, left := dies, pre := preloads en p residual
     sums := zero, issued := true })

/-- A task takes another record: running, its count not finished, in-flight and input credit free on every die (R142, R146). In Lockstep mode a record
of a replica with an unavailable slot waits in the die input queue (R248). -/
def State.taskOpen (s : State) (h st : Nat) (x : StreamSt) (e : RecEnt) : Bool :=
  x.state == 1 && decide (x.elem < x.desc.count) && decide (s.inflight h st < x.desc.maxInflight) &&
  (groupDies x.desc.group).all (fun d => decide (s.shareUsed d h st + ceilDiv e.vec.length 256 ≤ x.desc.dieBlocks)) &&
  (e.lock || s.replicaOk (s.recSet e) x.ens x.replica)

/-- Where the searches of a record go as its stage 0 is issued (R149, R266): to the replica of each table on the stage 0 die group that has not been
removed. -/
def State.searchHome (s : State) (m : ModelSet) (dies : List Nat) (x : SearchSt) : SearchSt :=
  if x.done then x
  else match (List.range (m.tableReplicas x.table)).find? (fun r => decide (m.tableDie x.table r ∈ dies) && !s.tableLost m x.table r) with
  | some r => { x with replica := r }
  | none => x

/-- The searches that stand in the rule search queue of a logical match unit (R146): issued, not answered, of a replica that the unit is of. -/
def State.searchQueue (s : State) (u : Nat) : Nat :=
  ((List.range 2).map (fun h => ((s.hub h).recs.map (fun r =>
    let m := s.recSet r.2
    (r.2.searches.filter (fun x => x.issued && !x.done && (m.tableUnits x.table x.replica).contains u)).length)).sum)).sum
/-- The queues of every unit that a record's searches go to take them all: 256 searches each (Table 5.6). -/
def State.searchRoom (s : State) (m : ModelSet) (xs : List SearchSt) : Bool :=
  let us := xs.flatMap (fun x => m.tableUnits x.table x.replica)
  us.all (fun u => decide (s.searchQueue u + us.count u ≤ 256))

/-- Issues a mandatory record into the stage it waits for (R148 to R150); with stage 0 go its rule table searches, to units whose queues have room
(R146, R149). In Fast mode the last stage's task has then read the vector (R132). -/
def State.issueStage (s : State) (h i : Nat) (e : RecEnt) : State :=
  let c := s.recCascade e
  let st := s.recStage e
  match s.replicaFor h e 1 c.index e.stage st.ensemble with
  | none =>
    let m := s.recSet e
    if (List.range (m.replicas st.ensemble)).all (fun r => s.replicaLost m st.ensemble r) then
      s.endRec h i rcFaultRetry (s.lostClass m st.ensemble)
    else s
  | some rep =>
    match s.findTask h e 1 c.index e.stage st.ensemble rep with
    | none => s
    | some (k, x) =>
      let keep := s.reserving e.r.tenant c.index && decide (e.stage + 1 < c.nstages)
      let m := s.recSet e
      let searches := if e.stage = 0 then e.searches.map (s.searchHome m (groupDies x.desc.group)) else e.searches
      let room := s.searchRoom m (searches.filter (fun y => !y.done && !y.issued))
      if s.taskOpen h k x e = false ∨ (keep = true ∧ s.bufRoom h e (e.stage + 1) = false) ∨ room = false then s
      else
        let r := s.issueRun h i k x e none e.residual
        let e' := { e with phase := .issued, run := r.2, buffered := false, reserved := keep
                           searches := searches.map (fun y => { y with issued := true }) }
        let s := (r.1.setEnt h i e').takeBuffer h e.r.tenant c.index e.stage
        if c.nstages ≤ e.stage + 1 then s.freeVector h i else s

/-- Issues a granted optional slot of a record (R139). -/
def State.issueOpt (s : State) (h i : Nat) (e : RecEnt) (o : OptSt) : State :=
  match s.replicaFor h e 2 0 0 o.ens with
  | none => s
  | some rep =>
    match s.findTask h e 2 0 0 o.ens rep with
    | none => s
    | some (k, x) =>
      if s.taskOpen h k x e = false then s
      else
        let r := s.issueRun h i k x e (some o.slot) []
        r.1.setEnt h i { e with opts := e.opts.map (fun y => if y.slot = o.slot then { y with state := if y.state = 5 then 4 else 2, run := r.2 } else y) }

/-- The stack of a device address as a hub die reads it (R437): the shared window's copy on that hub die, or the partition's stack. -/
def stackOf (h addr : Nat) : Nat :=
  if addr < 0x3000000000 then addr / 2 ^ 20 % 6 + 6 * h else (addr - 0x10000000000) / 0x2000000000

/-- An element of a stream that reads external memory has come: a SPILL stream's block stands in the buffer that fills (R243). -/
def State.gotElem (s : State) (h st elem : Nat) : State :=
  match s.stream? h st with
  | some x => if x.desc.kind = 3 then s.setStream h st { x with win := { x.win with got := x.win.got ++ [elem] } } else s
  | none => s

/-- Reads an element of a stream (R141, R246). Reads of bundle store and Spillway addresses look their 256-byte line up in the bundle cache of the
hub die first: a hit is served from it and becomes the most recent; a miss joins a fetch of its line, or becomes a read of the engine. -/
def State.fetchLine (s : State) (h engine st elem addr : Nat) (cached : Bool) : State :=
  let w := s.hub h
  let line := addr / 256
  let read : FetchRead := { engine := engine, addr := line * 256, uses := [(st, elem)] }
  if cached = false then s.setHub h { w with reads := w.reads ++ [read] }
  else if line ∈ w.bcache then
    ((s.setHub h { w with bcache := w.bcache.filter (· ≠ line) ++ [line] }).tick .cntBcacheCnt (h * 2)).gotElem h st elem
  else
    let s := s.tick .cntBcacheCnt (h * 2 + 1)
    let w := s.hub h
    if w.reads.any (fun r => r.addr == line * 256) then
      s.setHub h { w with reads := w.reads.map (fun r => if r.addr = line * 256 then { r with uses := r.uses ++ [(st, elem)] } else r) }
    else s.setHub h { w with reads := w.reads ++ [read] }

/-- The set that a SPILL stream serves, as its tenant holds it. -/
def State.streamSet (s : State) (x : StreamSt) : ModelSet :=
  let t := s.hwT x.tenant
  ((t.active.toList ++ t.old.toList).find? (fun i => i.set.setId == x.setId && i.set.version == x.version)).elim {} SetInst.set
/-- The elements of a SPILL stream that carry the tree whose blocks fill the buffer: the first, and how many. -/
def StreamSt.winElems (x : StreamSt) (m : ModelSet) : Nat × Nat :=
  let img := SMap.getD (fun _ => []) m.slots x.replica
  let lens := (spillTrees m x.replica).map (fun i => (dirAt img i).spLen + 1)
  ((lens.take x.win.pos).sum, nth lens x.win.pos 0)
/-- The reads of a stream that are outstanding. -/
def State.readsOf (s : State) (h st : Nat) : Nat := (((s.hub h).reads.map (fun r => (r.uses.filter (fun u => u.1 == st)).length))).sum

/-- The next element of a SPILL stream is of the tree whose blocks fill the buffer, and the tile's queue of 64 block reads has room (R146, R243). -/
def State.spillNext (s : State) (h st : Nat) (x : StreamSt) : Bool :=
  let r := x.winElems (s.streamSet x)
  decide (r.1 ≤ x.elem) && decide (x.elem < r.1 + r.2) && decide (s.readsOf h st < 64)
/-- The address of the next element of a stream that reads external memory (R142, R243). -/
def State.elemAddr (s : State) (x : StreamSt) : Nat :=
  x.desc.base + 256 * (if x.desc.kind = 3 then nth (spillBlocks (s.streamSet x) x.replica) x.elem 0 else x.elem)

/-- The first optional slot of a record that an OPTIONAL stream may issue. -/
def optWaiting (e : RecEnt) (ens : Nat) : Option OptSt := e.opts.find? (fun o => (o.state == 1 || o.state == 5) && o.ens == ens)

/-- Mandatory records wait for input credit of a hub die: an OPTIONAL stream is held behind them (R139). -/
def State.mandatoryWaits (s : State) (h : Nat) : Bool :=
  (s.hub h).recs.any (fun r => r.2.phase == .stage &&
    (let c := s.recCascade r.2
     match s.replicaFor h r.2 1 c.index r.2.stage (s.recStage r.2).ensemble with
     | some rep => (match s.findTask h r.2 1 c.index r.2.stage (s.recStage r.2).ensemble rep with
       | some (k, x) => s.taskOpen h k x r.2
       | none => false)
     | none => false))

/-- The reads outstanding on a fetch engine (R141). -/
def State.engineReads (s : State) (h e : Nat) : Nat := ((s.hub h).reads.filter (fun r => r.engine == e)).length

/-- STAGE_BUFFER_ISSUE (R148): a record of a later stage that waits in a stage buffer is issued, and frees its entry. -/
def execStageBufferIssue (hub rec_ : Nat) (s : State) : Out := s.gated <|
  match s.ent? hub rec_ with
  | some e => if e.phase = .stage ∧ 0 < e.stage then .next (s.issueStage hub rec_ e) else .next s
  | none => .next s

/-- A re-arm is applied to a stream (R144): its window begins with its first tree again. -/
def StreamSt.rearmNow (x : StreamSt) (base count : Nat) : StreamSt :=
  { x with state := 1, rearm := none, rearmHeld := false, elem := 0, win := { x.win with pos := 0, got := [] }
           desc := { x.desc with base := base, count := count } }
/-- The reads of a stream's old elements no longer serve it. -/
def State.dropUses (s : State) (h st : Nat) : State :=
  let w := s.hub h
  s.setHub h { w with reads := w.reads.map (fun r => { r with uses := r.uses.filter (fun u => u.1 != st) }) }
/-- A re-arm is applied at once. -/
def State.applyRearm (s : State) (h st : Nat) (x : StreamSt) (base count : Nat) : State :=
  (s.dropUses h st).setStream h st (x.rearmNow base count)

/-- Adds an amount to a semaphore (R357): a sum past 65,535 saturates, sets OVF and raises SLU_SEM_OVERFLOW. -/
def State.semAdd (s : State) (sem n : Nat) : State :=
  let x := SMap.getD (fun _ => {}) s.slu.sems sem
  let v := x.count + n
  if v < 2 ^ 16 then { s with slu := { s.slu with sems := s.slu.sems.put sem { x with count := v } } }
  else
    let s := { s with slu := { s.slu with sems := s.slu.sems.put sem { x with count := 2 ^ 16 - 1, ovf := decide (2 ^ 16 ≤ v) || x.ovf } } }
    s.event 0x0D01 sem 0xFF (detailOf [(4, sat32 (v - (2 ^ 16 - 1))), (4, s.epoch)])

/-- STREAM_COUNT_END (R143, R144): the last element of a count is finished. -/
def execStreamCountEnd (hub stream : Nat) (s : State) : Out := s.gated <|
  match s.stream? hub stream with
  | none => .next s
  | some x =>
    if x.state ≠ 1 ∨ x.elem < x.desc.count then .next s
    else
      let y := match x.rearm with
        | some (b, c) => x.rearmNow b c
        | none =>
          match x.desc.persist with
          | 0 => { x with state := 0 }
          | 1 => { x with elem := 0 }
          | _ => { x with state := 2 }
      let s := s.setStream hub stream y
      .next (if x.desc.semEn then s.semAdd (512 * hub + x.desc.sem) 1 else s)

/-- The re-arm of a stream (R144); `none` where it is refused. -/
def State.rearm (s : State) (hub stream base count : Nat) : Option State :=
  match s.stream? hub stream with
  | none => none
  | some x =>
    if count = 0 ∨ x.rearm.isSome = true then none
    else if x.state = 0 ∨ x.state = 2 then some (s.applyRearm hub stream x base count)
    else some (s.setStream hub stream { x with rearm := some (base, count), rearmHeld := x.state == 3 })

/-- FETCH_REARM (R144): a re-arm while another is pending is refused. -/
def execFetchRearm (hub stream base count : Nat) (s : State) : Out := s.gated <| .next ((s.rearm hub stream base count).getD s)

/-- Ends, or in Lockstep mode issues again once, a mandatory record that a fault ends (R152, R154, R495). -/
def State.faultRec (s : State) (h i cause : Nat) : State :=
  match s.ent? h i with
  | none => s
  | some e =>
    if e.lock ∧ e.again = false then
      (s.setEnt h i { e with again := true, phase := .stage, run := {}, buffered := false, reserved := false, ready := s.now }).leaveBuffer h e
    else s.endRec h i rcFaultRetry cause

/-- The optional work of a record past its reply goes on: a run that its stream still serves, or a slot that a replica and a task are left for. -/
def State.tailWorks (s : State) (h : Nat) (e : RecEnt) : Bool :=
  e.opts.any (fun o => o.busy && (if o.run.issued then (s.stream? h o.run.stream).isSome
    else match s.replicaFor h e 2 0 0 o.ens with | some r => (s.findTask h e 2 0 0 o.ens r).isSome | none => false))
/-- Entries whose optional work past the reply has ended are gone (R139). -/
def State.reapTails (s : State) : State :=
  let gone := (List.range 2).flatMap (fun h => ((s.hub h).recs.filter (fun r => r.2.phase == .tail && !s.tailWorks h r.2)).map (fun r => (h, r.1)))
  gone.foldl (fun s r =>
    let w := s.hub r.1
    (s.setHub r.1 { w with recs := w.recs.del r.2 }).clearRec r.1 r.2 false) s

/-- Marks an optional slot not run (R139, R152). -/
def State.optNotRun (s : State) (h i slot : Nat) : State :=
  match s.ent? h i with
  | none => s
  | some e => s.setEnt h i { e with opts := e.opts.map (fun o => if o.slot = slot then { o with state := 4, run := {} } else o) }

/-- How a task is aborted: by a fault of a unit, by Backwater, by a drain (R152, R156, R372). -/
inductive AbortBy where
  | fault (unit : Nat) | backwater | drain
deriving DecidableEq, Repr

/-- A vector in a record buffer is still needed (R227, R263): an instruction of its run is to be issued to its unit, has not completed on its tile, or
has keys to build in its match unit; or a rule table search of its record has not built its key in that unit. -/
def State.bufLive (s : State) (b : BufSt) : Bool :=
  if b.rule then
    match s.ent? b.hub b.ent with
    | some e => e.searches.any (fun x => x.issued && !x.done && ((s.recSet e).tableUnits x.table x.replica).any (fun u => 9 * b.die + b.unit == u + 66))
    | none => false
  else
    s.die.recs.any (fun x => x.is b.die b.hub b.ent b.opt && x.gen == b.gen && x.todo.contains b.unit) ||
    s.die.ins.any (fun t => t.die == b.die && t.unit == b.unit && t.hub == b.hub && t.ent == b.ent && t.opt == b.opt && t.gen == b.gen && !t.pool &&
      (if t.unit < 66 then !t.done else !t.todo.isEmpty))
/-- The record buffer blocks that are no longer needed are free. -/
def State.trimBufs (s : State) : State := { s with die := { s.die with bufs := s.die.bufs.filter s.bufLive } }

/-- A record of an aborted task ends (R152). -/
def State.abortRec (s : State) (h : Nat) (how : AbortBy) (r : Nat × Option Nat) : State :=
  match r.2 with
  | some slot => s.optNotRun h r.1 slot
  | none =>
    match how with
    | .fault u => s.faultRec h r.1 (u / 4096)
    | .backwater => s.endRec h r.1 rcAborted 1
    | .drain => s.endRec h r.1 rcAborted 2

/-- Aborts a task (R152, R153): its records end, its entries on the dies are freed, its generation advances, and it is in ABORTING. A fault ends
those whose partials have not all returned; Backwater and a drain also those that are done and hold a return queue entry (R151, R156). An aborted
optional task changes no status bit (R139). -/
def State.abortTask (s : State) (h st : Nat) (how : AbortBy) : State :=
  match s.stream? h st with
  | none => s
  | some x =>
    if x.state = 3 then s
    else
      let rs := s.taskRecs h st ++ (match how with | .fault _ => [] | _ => s.taskHeld h st)
      let s := s.setStream h st { x with state := 3, gen := (x.gen + 1) % 16 }
      let s := { s with die := { s.die with recs := s.die.recs.filter (fun r => !(r.hub == h && r.stream == st)) } }
      let s := (rs.foldl (fun s r => s.abortRec h how r) s).trimBufs
      let n := rs.length
      match how with
      | .fault u =>
        let s := if x.desc.kind = 2 then s else s.latch (some x.tenant) attnTaskFault
        s.event 0x0500 u x.tenant (detailOf [(2, 512 * h + st), (2, n), (1, 1), (3, 0)])
      | .backwater => s.event 0x0500 0xFFFF x.tenant (detailOf [(2, 512 * h + st), (2, n), (1, 2), (3, 0)])
      | .drain => s

/-- Aborts several tasks, given as (hub, stream), once each. -/
def State.abortTasks (s : State) (ts : List (Nat × Nat)) (how : AbortBy) : State := ts.dedup.foldl (fun s t => s.abortTask t.1 t.2 how) s

/-- A run of a record is of the set that a stream serves. -/
def State.ofSet (s : State) (x : StreamSt) (hub ent : Nat) : Bool :=
  match s.ent? hub ent with
  | some e => e.r.tenant == x.tenant && (s.recSet e).setId == x.setId && (s.recSet e).version == x.version
  | none => false

/-- A read of the bundle store failed (R443): the load or spare load that needs the slot fails, and a check counts a failed part hash. -/
def State.bundleFailed (s : State) (addr : Nat) : State :=
  match s.slotAt addr with
  | none => s
  | some (t, i) =>
    let h := s.hwT t
    s.setHwT t { h with slots := setNth h.slots i { nth h.slots i {} with failed := true } }

/-- The read of an element failed its check, or its address was refused (R141, R152, R436, R443); `u` is the unit at fault. A SPILL stream's tree is not
evaluated in this turn of the ring: the tasks that wait for it are aborted, and the window goes on with the next tree (DESIGN CHOICE, log 69). A LOAD
stream's load fails. Any other stream's records end with it. -/
def State.readFault (s : State) (hub addr st u : Nat) : State :=
  match s.stream? hub st with
  | none => s
  | some x =>
    if x.desc.kind = 3 then
      let ids := spillTrees (s.streamSet x) x.replica
      let idx := nth ids x.win.pos 0
      let ts := (s.die.ins.filter (fun t => (s.streamSet x).homeSlot (66 * t.die + t.unit) == x.replica && s.ofSet x t.hub t.ent && t.spills.contains idx)).map
        (fun t => (t.hub, t.stream))
      let r := x.winElems (s.streamSet x)
      let s := (s.dropUses hub st).setStream hub st
        { x with elem := r.1 + r.2, win := { x.win with pos := (x.win.pos + 1) % max 1 ids.length, got := [] } }
      s.abortTasks ts (.fault u)
    else if x.desc.kind = 4 then s.bundleFailed addr
    else s.abortTask hub st (.fault u)

/-- STREAM_ELEMENT_ISSUE (R142, R145, R146): the stream issues record `pick` of its stage, or its next block. A block outside the
address map is refused, and the refusal reaches the stream like a failed read, with the fetch engine as the unit (R436; DESIGN CHOICE, log 100). -/
def execStreamElementIssue (hub stream pick : Nat) (s : State) : Out := s.gated <|
  match s.stream? hub stream with
  | none => .next s
  | some x =>
    if x.state ≠ 1 ∨ x.desc.count ≤ x.elem then .next s
    else if x.desc.kind = 1 then
      match s.ent? hub pick with
      | some e =>
        if e.phase = .stage ∧ e.stage = 0 ∧ x.desc.stage = 0 ∧ (s.recPipe e).cascade = x.desc.cascade ∧ e.r.tenant = x.tenant then
          match s.replicaFor hub e 1 x.desc.cascade 0 (s.recStage e).ensemble with
          | some rep => if rep = x.replica then .next (s.issueStage hub pick e) else .next s
          | none => .next (s.issueStage hub pick e)
        else .next s
      | none => .next s
    else if x.desc.kind = 2 then
      match s.ent? hub pick with
      | some e =>
        match optWaiting e x.ens with
        | some o =>
          if e.vec.isEmpty ∨ e.phase = .feat ∨ e.phase = .featRun ∨ s.replicaFor hub e 2 0 0 o.ens ≠ some x.replica ∨
              s.mandatoryWaits hub = true then .next s else .next (s.issueOpt hub pick e o)
        | none => .next s
      | none => .next s
    else if x.desc.kind = 0 ∨ 512 ≤ s.engineReads hub x.desc.engine ∨ (x.desc.kind = 3 ∧ s.spillNext hub stream x = false) then .next s
    else
      let a := s.elemAddr x
      let s := s.setStream hub stream { x with elem := x.elem + 1, sent := x.sent + 1 }
      .next (if placeOf a = [] then s.readFault hub a stream (0x6000 + 16 * hub + x.desc.engine)
        else s.fetchLine hub x.desc.engine stream x.elem a (x.desc.kind == 3 || x.desc.kind == 4))

/-- ABORT_COMPLETE (R153): the ranges still held are cleared (R287); the stream runs again, with a re-arm that came during the abort (R144). -/
def execAbortComplete (hub stream : Nat) (s : State) : Out := s.gated <|
  match s.stream? hub stream with
  | none => .next s
  | some x =>
    if x.state ≠ 3 then .next s
    else
      let s := ({ s with die := { s.die with ins := s.die.ins.filter (fun t => !(t.hub == hub && t.stream == stream && t.gen != x.gen)) } } : State).trimBufs
      .next (match x.rearm with
        | some (b, c) => if x.rearmHeld then s.applyRearm hub stream x b c else s.setStream hub stream { x with state := 1 }
        | none => s.setStream hub stream { x with state := 1 })

/-- A tenant's freeze. -/
def State.freezeOf (s : State) (t : Nat) : FreezeSt := nth s.weir.freeze t {}
def State.setFreeze (s : State) (t : Nat) (f : FreezeSt) : State := { s with weir := { s.weir with freeze := setNth s.weir.freeze t f } }

/-- Records of a tenant that wait in Weir's queues. -/
def State.tenantQueued (s : State) (t : Nat) : Bool := s.weir.queues.any (fun q => q.2.any (fun x => x.r.tenant == t && !x.ghost && !x.r.replay))
/-- Records of a tenant that Weir or the record table still holds. -/
def State.tenantBusy (s : State) (t : Nat) : Bool :=
  s.weir.hubs.any (fun w => w.recs.any (fun r => r.2.phase != .tail && r.2.r.tenant == t)) || s.tenantQueued t

/-- A stream of a tenant that a drain brings to IDLE: kind RECORD, OPTIONAL or SPILL (R155). -/
def StreamSt.drains (x : StreamSt) (t : Nat) : Bool := x.tenant == t && decide (1 ≤ x.desc.kind) && decide (x.desc.kind ≤ 3)

/-- A tenant is draining: the freeze's epoch has come, no record of it waits for admission, and it replays nothing. -/
def State.draining (s : State) (t : Nat) : Bool := s.frozenAt t s.epoch && !s.tenantQueued t && (s.session t).isNone
/-- A draining tenant has no record left. -/
def State.quiet (s : State) (t : Nat) : Bool := s.draining t && !s.tenantBusy t

/-- A record is still to come to a stage at or after `k`: it has not yet been issued into it. -/
def RecEnt.before (e : RecEnt) (k : Nat) : Bool :=
  match e.phase with
  | .snaps | .feat | .featRun => decide (e.r.cls ≠ clsUpdate)
  | .stage => decide (e.stage ≤ k)
  | .issued => decide (e.stage < k)
  | _ => false
/-- An element waits for a stream, or is still to come (R155): of a RECORD stream a record that has not passed its stage, of an OPTIONAL stream a
granted slot, of a SPILL stream any record that a task of the tenant may yet issue. -/
def State.elemWaits (s : State) (x : StreamSt) (e : RecEnt) : Bool :=
  let m := s.recSet e
  e.r.tenant == x.tenant && m.setId == x.setId && m.version == x.version &&
  (match x.desc.kind with
   | 1 => (s.recPipe e).cascade == x.desc.cascade && e.before x.desc.stage
   | 2 => (e.before 8 || !e.vec.isEmpty) && e.opts.any (fun o => (o.state == 1 || o.state == 5) && o.ens == x.ens)
   | _ => e.before 8 || e.works)

/-- A stream of a draining tenant has no element in flight (R155): a RECORD or OPTIONAL stream no record, a SPILL stream no read and no instruction
that waits for its window. -/
def State.streamQuiet (s : State) (h st : Nat) (x : StreamSt) : Bool :=
  decide (s.inflight h st = 0) && decide (s.readsOf h st = 0) &&
  !(x.desc.kind == 3 && s.die.ins.any (fun t => (s.streamSet x).homeSlot (66 * t.die + t.unit) == x.replica && s.ofSet x t.hub t.ent && !t.spills.isEmpty))
/-- No element of a stream waits on the hub dies that it serves: a SPILL stream's window serves the tasks of both. -/
def State.noneWaits (s : State) (h : Nat) (x : StreamSt) : Bool :=
  (if x.desc.kind = 3 then [0, 1] else [h]).all (fun k => !(s.hub k).recs.any (fun r => s.elemWaits x r.2))

/-- The streams of a draining tenant go to IDLE, each when it has no element in flight and none waiting (R155). -/
def State.idleStreams (s : State) (t : Nat) : State :=
  if s.draining t then
    (List.range 2).foldl (fun s h =>
      let w := s.hub h
      s.setHub h { w with streams := w.streams.map (fun e =>
        (e.1, if e.2.drains t && e.2.state != 3 && s.streamQuiet h e.1 e.2 && s.noneWaits h e.2 then { e.2 with state := 0, elem := 0, win := {} } else e.2)) }) s
  else s

/-- The streams that a drain brought to IDLE run again when admission reopens or a replay session opens. DESIGN CHOICE (log 70): the control cores
start them with the descriptors they hold. -/
def State.startStreams (s : State) (t : Nat) : State :=
  (List.range 2).foldl (fun s h =>
    let w := s.hub h
    let start := fun (x : StreamSt) => if x.drains t && x.state == 0 then { x with state := b2n x.desc.legal } else x
    s.setHub h { w with streams := w.streams.map (fun e => (e.1, start e.2)) }) s

/-- The drain of a tenant is complete: it has no live epoch, and every such stream is IDLE (R155). -/
def State.drainDue (s : State) (t : Nat) : Bool :=
  s.quiet t && s.weir.hubs.all (fun w => w.streams.all (fun e => !e.2.drains t || e.2.state == 0))

/-- DRAIN_DONE (R155). -/
def State.drainDone (s : State) (t : Nat) : State :=
  let s := s.setFreeze t { s.freezeOf t with drained := true }
  s.event 0x0501 t t s.now

/-- The tasks of a tenant on a hub die with records in flight, lowest number first. -/
def State.busyTasks (s : State) (t h : Nat) : List (Nat × Nat) :=
  ((s.hub h).streams.filter (fun x => x.2.tenant == t && decide (0 < s.inflight h x.1))).map (fun x => (h, x.1))

/-- DRAIN_TIMEOUT (R156): WEIR_DRAIN.TIMEOUT ticks after the freeze tick, by each hub die's own copy of the register (R157), every task of the tenant
on that hub die that has records in flight is aborted. DESIGN CHOICE (log 105): with no such task there is nothing for DRAIN_TIMEOUT to name, and no event. -/
def execDrainTimeout (tenant : Nat) (s : State) : Out := s.gated <|
  let f := s.freezeOf tenant
  match f.from_ with
  | none => .next s
  | some n =>
    let hs := (List.range 2).filter (fun h => !f.timedOut.contains h && decide (n * s.epochLen + s.rd .weirDrain h 0 ≤ s.now))
    if f.drained = true ∨ hs.isEmpty = true then .next s
    else
      let ts := hs.flatMap (s.busyTasks tenant)
      let s := s.setFreeze tenant { f with timedOut := f.timedOut ++ hs }
      match ts with
      | [] => .next s
      | (h, st) :: _ =>
        let s := s.abortTasks ts .drain
        .next (s.event 0x0502 tenant tenant (detailOf [(2, 512 * h + st), (2, ts.length), (4, 0)]))

end Sys2Proof.Machine
end

