-- ==== Sys2Proof/Machine/Reset.lean ====
section
/-! DEFINITION. Cold and warm reset (R493, R494, Table 18.4): what each keeps, and what the straps give (R568). What has left the device
(frames, messages, responses) is no state of it and stays listed; so do the commands that wait. -/

namespace Sys2Proof.Machine

/-- A strap value: 0b11 is taken as 0b00 (Table 22.4). -/
def strap2 (v : Nat) : Nat := if v % 4 = 3 then 0 else v % 4

/-- The strap fields take the sampled straps: the arrangements of both hub dies, the image preference, the I3C static address. -/
def State.putStraps (s : State) (v : List Nat) : State :=
  let s := s.wr .tribCfg 0 0 (s.rd .tribCfg 0 0 / 4 * 4 + strap2 (nth v 0 0))
  let s := s.wr .tribCfg 1 0 (s.rd .tribCfg 1 0 / 4 * 4 + strap2 (nth v 1 0))
  let s := s.wr .hwBoot 0 0 (s.rd .hwBoot 0 0 / 4 * 4 + strap2 (nth v 2 0))
  s.wr .mgmtCfg 0 0 (s.rd .mgmtCfg 0 0 % 4 + nth v 3 0 % 128 * 4 + s.rd .mgmtCfg 0 0 / 512 * 512)

/-- The strap fields as they stand. -/
def State.strapFields (s : State) : List Nat :=
  [s.fld .tribCfg 0 0 1 0, s.fld .tribCfg 1 0 1 0, s.fld .hwBoot 0 0 1 0, s.fld .mgmtCfg 0 0 8 2]

/-- What a warm reset leaves of a tenant in Headwater (R186, R426, R429): the bundle store, the commit records, and what the slots of Eddy still hold of
dropped fields. -/
def HwTenant.afterWarm (h : HwTenant) : HwTenant :=
  { slots := h.slots, activeSlot := h.activeSlot, commit0 := h.commit0, commit1 := h.commit1, usedFields := h.usedFields }

/-- A unit after a warm reset: its marks stay; a spare that was loading holds what it was loading once the boot has placed the sets. -/
def UnitSt.afterWarm (u : UnitSt) : UnitSt :=
  match u.loading with
  | some x =>
    if u.state = 3 then { u with loading := none, resetting := false }
    else if u.state = 0 then { u with loading := none, hosted := some x, resetting := false }
    else { u with state := 0, loading := none, held := some x, resetting := false }
  | none => { u with resetting := false }

/-- The security module after a reset: its fuses and the flash state area stay, export keys are lost (R465, R471); a new transport key is drawn
(R459); only a cold reset leaves the error state (R461). -/
def SecSt.afterReset (x : SecSt) (warm : Bool) : SecSt :=
  { owner := x.owner, minVer := x.minVer, minSlots := x.minSlots, area0 := x.area0, area1 := x.area1, kemNo := if warm then x.kemNo else x.kemNo + 1
    transport := x.transport + 1, drbg := if warm then x.drbg else 0, error := warm && x.error, failTest := if warm then x.failTest else 0
    keys := if warm then x.keys else [], sigPolicy := if warm then x.sigPolicy else 0, tenancy := warm && x.tenancy
    pending := if warm then x.pending else none, fallback := warm && x.fallback, lost := warm && x.lost }

/-- A stack after a warm reset: it is trained again at boot step 5 (Table 15.3), unless it is lastingly faulty; its temperature is not yet read (R493). -/
def StackSt.afterWarm (k : StackSt) : StackSt := { k with state := if k.state = 2 then 2 else 1, failEpoch := none, temp := 0, hot := false }

/-- The memory after a warm reset (R445, R449, R452): keys, contents and generation bits stay; scrub-pending tenants are scrubbed again;
an erase that had not ended begins again with new keys. -/
def MemSt.afterWarm (m : MemSt) (erasing : Bool) : MemSt :=
  let m := { m with restarted := erasing || !m.scrubs.isEmpty, rowErrs := [], due := [], stk := m.stk.map StackSt.afterWarm }
  match m.scrubs with
  | t :: _ => { m with keyNo := m.keyNo + 1, keys := setNth m.keys t (m.keyNo + 1, 0) }
  | [] => m

/-- Power after a reset: only the reset cause, a trip and the temperatures outlive it, and over a warm reset the reference selection. -/
def PowerSt.afterReset (p : PowerSt) (warm : Bool) (cause domain unit : Nat) : PowerSt :=
  { ref := if warm then p.ref else {}, trip := p.trip, resetCause := cause, causeDomain := domain, causeUnit := unit, boot9 := p.boot9
    dies := p.dies.map (fun d => { temp := d.temp }) }

/-- The image that a firmware update writes is left invalid (R538): its flash device is erased, and MGMT_FWUP_FAILED gives the cause and the
failed check of R408. -/
def State.fwupFail (s : State) (cause check : Nat) : State :=
  let k := if s.head.bootedB then 0 else 1
  let s := { s with head := { s.head with flash := setNth s.head.flash k [] }, mgmt := { s.mgmt with fwup := { prev := s.mgmt.fwup.state } } }
  s.event 0x1401 0xFFFF 0xFF (detailOf [(1, cause), (1, check), (6, 0)])

/-- A firmware update that a reset interrupts fails (R538): the event is raised at once. -/
def State.fwupReset (old new : State) : State :=
  if old.mgmt.fwup.state = 3 ∨ old.mgmt.fwup.state = 4 then
    let k := if old.head.bootedB then 0 else 1
    let new := { new with head := { new.head with flash := setNth new.head.flash k [] }, mgmt := { new.mgmt with fwup := {} } }
    new.event 0x1401 0xFFFF 0xFF 3
  else new

/-- `b` is the later of two write sequences (R113). -/
def seqLater (a b : Nat) : Bool := decide (0 < sgn 32 (wrapI 32 ((b : Int) - a)))

/-- The module writes its persistent state (R465): to the copy that does not authenticate, else to the one with the lower sequence. -/
def State.saveArea (s : State) : State :=
  let x := s.sec
  let second := if x.area0.intact = false then false else if x.area1.intact = false then true else seqLater x.area1.seq x.area0.seq
  let last := if x.area0.intact = false then x.area1.seq else if x.area1.intact = false then x.area0.seq
    else if seqLater x.area0.seq x.area1.seq then x.area1.seq else x.area0.seq
  let a : StateArea := { seq := (last + 1) % 2 ^ 32, keys := x.keys, sigPolicy := x.sigPolicy, tenancy := x.tenancy, intact := true }
  { s with sec := if second then { x with area1 := a } else { x with area0 := a } }

/-- A warm reset (R493): cause as in Table 19.12. -/
def State.warmReset (s : State) (cause domain : Nat) : State :=
  let n : State :=
    { pending := s.pending, fuse := s.fuse, free := s.free
      cnts := s.cnts.keep (fun k _ => k / 2 ^ 32 == RegName.cntRelCnt.ctorIdx)
      time := { bt := s.time.bt, lastBeat := s.time.bt }
      trib := { arrange := s.trib.arrange, evtLog := s.trib.evtLog, out := s.trib.out }
      eddy := { buckets := s.eddy.buckets, bad := s.eddy.bad, sentOut := s.eddy.sentOut, lost := s.eddy.lost
                stopped := if s.time.state = 0 then s.eddy.stopped else some s.now }
      dist := { sent := s.dist.sent }
      braid := { sentOut := s.braid.sentOut }
      head := { flash := s.head.flash, bootedB := s.head.bootedB, fallback := s.head.fallback, chosen := s.head.chosen
                tenants := s.head.tenants.map HwTenant.afterWarm }
      mem := s.mem.afterWarm (decide (5 ≤ s.head.step) && !s.mem.erased)
      sec := s.sec.afterReset true
      rel := { wins := s.rel.wins, tiles := SMap.mapVals (fun _ u => u.afterWarm) s.rel.tiles
               mus := SMap.mapVals (fun _ u => u.afterWarm) s.rel.mus, engines := SMap.mapVals (fun _ u => u.afterWarm) s.rel.engines
               dieLinks := s.rel.dieLinks, outDies := s.rel.outDies, cores := s.rel.cores }
      power := s.power.afterReset true cause domain 0
      mgmt := { eid := s.mgmt.eid, out := s.mgmt.out, refused := s.mgmt.refused, fwup := { pending := s.mgmt.fwup.pending } }
      pins := s.pins }
  s.fwupReset (n.putStraps s.strapFields)

/-- A cold reset (R493): fused values and flash stay; the straps are sampled again (R568). -/
def State.coldReset (s : State) (cause unit : Nat) : State :=
  let n : State :=
    { pending := s.pending, fuse := s.fuse, free := s.free
      trib := { out := s.trib.out }
      eddy := { sentOut := s.eddy.sentOut }
      dist := { sent := s.dist.sent }
      braid := { sentOut := s.braid.sentOut }
      head := { flash := s.head.flash }
      mem := { delivered := s.mem.delivered, keyNo := s.mem.keyNo, restarted := decide (5 ≤ s.head.step) && !s.mem.erased
               stk := s.mem.stk.map (fun (k : StackSt) => { softRows := k.softRows }) }
      sec := s.sec.afterReset false
      power := s.power.afterReset false cause 0 unit
      mgmt := { out := s.mgmt.out, refused := s.mgmt.refused }
      pins := { s.pins with straps := s.pins.pinStraps } }
  s.fwupReset (n.putStraps s.pins.pinStraps)

end Sys2Proof.Machine
end

