-- ==== Sys2Proof/Machine/Eddy.lean ====
section
/-! DEFINITION. Eddy at its home and at the ingress device (R117, R118, R162, R173 to R184): the order queues, the fence, the application of
requests, and the snapshots that return. -/

namespace Sys2Proof.Machine

/-- The tick a request's or a record's stamp is served at: in a replay session of its tenant, shifted by Δ (R343). -/
def State.servedAt (s : State) (t stamp : Nat) : Nat :=
  match s.session t with
  | some z => ((stamp : Int) + s.replayShift z).toNat
  | none => stamp
def State.fenceAt (s : State) (q : EddyReq) : Nat := s.servedAt q.tenant q.key.stamp + s.fence

/-- The key of a request's bucket in the store. -/
def bucketKey (t cls part bucket : Nat) : Nat := ((t * 8 + cls) * 12 + part) * 2 ^ 28 + bucket
def EddyReq.part (q : EddyReq) : Nat := partitionOf q.hash
def EddyReq.bucket (q : EddyReq) : Nat := bucketKey q.tenant q.cls q.part (bucketOf q.hash q.bucketsLog2)

/-- Sends a snapshot body back to the device its request came from: to this device's own record, or by Braid (R177). -/
def State.sendSnap (s : State) (q : EddyReq) (b : SnapBody) : State :=
  if q.from_ = s.device then { s with eddy := { s.eddy with back := s.eddy.back ++ [b] } }
  else
    match s.routePort (q.part / 6) q.from_ with
    | some p => s.brSend p { type := 4, flags := 1, dst := q.from_, src := s.device, tenant := q.tenant, body := snapBytes b true }
    | none => s.tick .cntBraidDevCnt 0

/-- The reasons of R162 for which a home does not apply a request. -/
def State.homeMismatch (s : State) (q : EddyReq) : Bool :=
  let e := s.rd .eddyHome (q.tenant * 65536 + homeIndex q.hash) 0
  let m := s.setFor q.tenant (s.epochOf q.key.stamp)
  decide (q.homeGen ≠ s.rd .eddyHomeGen q.tenant 0 % 65536) || !bit e 31 ||
  !(bits e 12 0 == s.device || (bit e 15 && bits e 28 16 == s.device)) ||
  (match m.keyClass q.cls with
   | none => true
   | some c => c.slot != q.slot || c.bucketsLog2 != q.bucketsLog2)

/-- Once per epoch: whether the mark is of an earlier epoch. -/
def State.onceAgain (s : State) (mark : Option Nat) : Bool := decide (mark ≠ some s.epoch)

/-- A late request (R118): counted, not applied. DESIGN CHOICE (log 68): the home tells the ingress device so by a body of state 12, a value that
Table 6.8 does not use. -/
def State.lateReq (s : State) (q : EddyReq) : State :=
  let s := s.tick .cntFenceLateCnt 0
  let s := if s.onceAgain s.eddy.lateEpoch then
      let s := { s with eddy := { s.eddy with lateEpoch := some s.epoch } }
      s.event 0x0406 q.from_ q.tenant q.key.stamp
    else s
  s.sendSnap q (snapEmpty q 12)

/-- A request that is answered with state 4 for a home mismatch (R162). -/
def State.mismatchReq (s : State) (q : EddyReq) : State :=
  let s := s.tick .cntEddyPartCnt (q.part * 8 + 6)
  let s := if s.onceAgain s.eddy.mismEpoch then
      let s := { s with eddy := { s.eddy with mismEpoch := some s.epoch } }
      s.event 0x0601 q.from_ q.tenant (detailOf [(2, q.homeGen), (2, homeIndex q.hash), (4, 0)])
    else s
  s.sendSnap q (snapEmpty q 4)

/-- A request enters its hub die's order queue (R173, R183). DESIGN CHOICE (log 106): a full stretch counts at the partition of the request that fills the
queue. -/
def State.orderReq (s : State) (q : EddyReq) (port : Option Nat) : State :=
  let g := q.part / 6
  let l := nth s.eddy.queues g []
  let full := decide (l.length + 1 = 65536)
  let s := { s with eddy := { s.eddy with queues := setNth s.eddy.queues g (l ++ [{ q := q, port := port }]) } }
  if full then
    let s := s.tick .cntEddyPartCnt (q.part * 8 + 7)
    if s.onceAgain (s.eddy.fullEpoch.find? g) then
      let s := { s with eddy := { s.eddy with fullEpoch := s.eddy.fullEpoch.put g s.epoch } }
      s.event 0x0605 g 0xFF s.now
    else s
  else s

/-- A request that arrives at its home (R118, R162, R173, R184). A full order queue takes none. -/
def State.arriveReq (s : State) (q : EddyReq) (port : Option Nat) : State :=
  if s.fenceAt q ≤ s.now then s.lateReq q
  else if s.homeMismatch q then s.mismatchReq q
  else if q.part ∈ s.eddy.lost then s.sendSnap q (snapEmpty q 4)
  else s.orderReq q port

/-- EDDY_REQ (R173): a request of this device's own record, or one that came by a Braid port that is up. -/
def execEddyReq (port : Option Nat) (q : EddyReq) (s : State) : Out := s.gated <|
  if 65536 ≤ (nth s.eddy.queues (q.part / 6) []).length then .next s
  else
    match port with
    | none =>
      match s.eddy.handed.find? (fun x => x.2 = q) with
      | none => .next s
      | some x =>
        let s := { s with eddy := { s.eddy with handed := s.eddy.handed.erase x } }
        .next (s.arriveReq q none)
    | some p =>
      if (s.brPort p).step ≠ 6 ∨ s.time.state = 0 then .next s
      else .next (s.arriveReq q (some p))

/-- Requests in the order in which they are applied (R117, R175): order key, then KEY_INDEX. -/
def reqLt (a b : EddyReq) : Bool := a.key.lt b.key || (decide (a.key = b.key) && decide (a.keyIndex < b.keyIndex))

/-- The first request of an order queue in that order. -/
def firstReq : List OrderEnt → Option OrderEnt
  | [] => none
  | x :: xs =>
    match firstReq xs with
    | none => some x
    | some y => if reqLt y.q x.q then some y else some x

/-- The application of one released request (R174): its bucket, counters, and the body that answers it. -/
def State.applyReq (s : State) (q : EddyReq) : State :=
  if q.part ∈ s.eddy.lost ∨ q.bucket ∈ s.eddy.bad then s.sendSnap q (snapEmpty q 4)
  else
    let m := s.setFor q.tenant (s.epochOf q.key.stamp)
    let fields := match m.keyClass q.cls with | some c => c.fields | none => []
    let b := SMap.getD (fun _ => EBucket.empty q.slot) s.eddy.buckets q.bucket
    let r := applyRequest b fields q
    let k := q.part * 8
    let s := { s with eddy := { s.eddy with buckets := SMap.setD (fun _ => EBucket.empty q.slot) s.eddy.buckets q.bucket r.bucket } }
    let s := { s with eddy := { s.eddy with applied := if q.part ∈ s.eddy.applied then s.eddy.applied else s.eddy.applied ++ [q.part] } }
    let s := s.tick .cntEddyPartCnt k
    let s := if r.state = 1 then s.tick .cntEddyPartCnt (k + 1) else s
    let s := if r.evicted then s.tick .cntEddyPartCnt (k + 2) else s
    let s := if r.state = 2 then s.tick .cntEddyPartCnt (k + 3) else s
    let s := s.count .cntEddyPartCnt (k + 4) r.sats
    let s := match s.eddy.stopped with
      | some t =>
        let s := { s with eddy := { s.eddy with stopped := none } }
        s.event 0x0602 0xFFFF 0xFF (detailOf [(4, t), (4, q.key.stamp)])
      | none => s
    s.sendSnap q (snapOf q r)

/-- EDDY_FENCE_RELEASE (R117, R174, R175): the first request of the hub die's order queue, once BT has reached its stamp plus FENCE. -/
def execEddyFenceRelease (hub : Nat) (s : State) : Out := s.gated <|
  let l := nth s.eddy.queues hub []
  match firstReq l with
  | none => .next s
  | some x =>
    if s.now < s.fenceAt x.q then .next s
    else
      let s := { s with eddy := { s.eddy with queues := setNth s.eddy.queues hub (l.erase x) } }
      .next (s.applyReq x.q)

/-- The bodies that a record holds for a key. -/
def bodiesOf (e : RecEnt) (idx : Nat) : List SnapBody := e.snaps.filter (fun b => b.keyIndex == idx)

/-- The homes of a record's key. -/
def homesOf (e : RecEnt) (idx : Nat) : List (Nat × Bool) := ((e.keys.find? (fun k => k.idx == idx)).map KeyRef.homes).getD []

/-- Joins a body to its record (R177, R179, R180): a key is settled by its primary's body, or by its mirror's where the primary's has state 4 or the
key has no primary; an UPDATE's key only when the bodies of all its homes have come. -/
def joinBody (e : RecEnt) (b : SnapBody) : RecEnt :=
  let asksPrim := (homesOf e b.keyIndex).any (fun h => !h.2)
  let asksMirr := (homesOf e b.keyIndex).any (fun h => h.2)
  let have_ := b :: bodiesOf e b.keyIndex
  let rest := e.snaps.filter (fun x => x.keyIndex != b.keyIndex)
  let prim := have_.find? (fun x => !x.mirror)
  let mirr := have_.find? (fun x => x.mirror)
  let all := (prim.isSome || !asksPrim) && (mirr.isSome || !asksMirr)
  let pick := match prim, mirr with
    | some p, some m => if p.state = 4 then some m else some p
    | some p, none => if p.state = 4 ∧ asksMirr = true then none else some p
    | none, some m => if asksPrim then none else some m
    | none, none => none
  match pick with
  | some x => if e.r.cls = clsUpdate ∧ all = false then { e with snaps := rest ++ have_ } else { e with snaps := rest ++ [x], want := e.want.filter (· ≠ b.keyIndex) }
  | none => { e with snaps := rest ++ have_ }

/-- A record one of whose requests was late (R118): it ends with FAULT_RETRY, CAUSE 0xC, wherever it stands before its reply is formed; in Lockstep mode
the request of one that still waits for snapshots is first handed over once more (R87), and the record waits for it. A settlement that has taken the
record's choices goes on with them, and the reply carries FAULT_RETRY. -/
def State.lateRec (s : State) (h i : Nat) (e : RecEnt) (b : SnapBody) : State :=
  match e.phase with
  | .reply => s
  | .settle => s.setEnt h i { e with late := true }
  | .snaps =>
    if e.lock ∧ e.again = false then
      let want := if b.keyIndex ∈ e.want then e.want else e.want ++ [b.keyIndex]
      let s := s.setEnt h i { e with late := true, again := true, want := want }
      s.handRequests h e.at_ ((s.requestsOf e.r e.keys (s.recSet e)).filter (fun q => q.2.keyIndex == b.keyIndex && q.2.mirror == b.mirror))
    else s.endRec h i rcFaultRetry 0xC
  | _ => s.endRec h i rcFaultRetry 0xC

/-- A snapshot body reaches the ingress device (R177 to R180): it is joined to its record; one that comes after its wait is discarded and counted. The
word that a request was late ends its record (R118). -/
def State.arriveSnap (s : State) (b : SnapBody) : State :=
  let mine := fun (a : AskedSnap) => decide (a.key = b.key) && a.idx == b.keyIndex && a.mirror == b.mirror
  let ask := s.eddy.asked.find? mine
  let s := { s with eddy := { s.eddy with asked := s.eddy.asked.filter (fun a => !mine a) } }
  let late := match ask with
    | some a => if a.until_ ≤ s.now then s.tick .cntEddyPartCnt (a.part * 8 + 5) else s
    | none => s
  match (List.range 2).findSome? (fun h =>
      (List.find? (fun (r : Nat × RecEnt) => decide (r.2.r.key = b.key)) (s.hub h).recs).map (fun r => (h, r.1, r.2))), ask with
  | some (h, i, e), some a =>
    if b.state = 12 then s.lateRec h i e b
    else if e.phase = .snaps ∧ b.keyIndex ∈ e.want ∧ s.now ≤ a.until_ then (s.setEnt h i (joinBody e b)).snapsReady h i
    else late
  | _, _ => if b.state = 12 then s else late

/-- EDDY_SNAP (R177): a body of this device's own Eddy, or one that came by a Braid port that is up. -/
def execEddySnap (port : Option Nat) (b : SnapBody) (s : State) : Out := s.gated <|
  match port with
  | none =>
    if b ∈ s.eddy.back then
      let s := { s with eddy := { s.eddy with back := s.eddy.back.erase b } }
      .next (s.arriveSnap b)
    else .next s
  | some p => if (s.brPort p).step ≠ 6 then .next s else .next (s.arriveSnap b)

/-- The bodies that a record goes on with when its wait is over (R178, R180): of a key's bodies its primary's, or the mirror's where that has state 4
or has not come. -/
def givenUp (e : RecEnt) : List SnapBody :=
  e.keys.filterMap (fun k =>
    let bs := bodiesOf e k.idx
    match bs.find? (fun x => !x.mirror && x.state != 4), bs.find? (fun x => x.mirror) with
    | some p, _ => some p
    | none, some m => some m
    | none, none => bs.head?)

/-- SNAPSHOT_WAIT_EXPIRY (R178): keys whose snapshot has not come by S + FENCE + SNAP_WAIT take state 4, or the mirror's body that came. A record that was
executed again for a late request is late again (R118). -/
def execSnapshotWaitExpiry (hub ent : Nat) (s : State) : Out := s.gated <|
  match s.ent? hub ent with
  | none => .next s
  | some e =>
    if e.phase ≠ .snaps ∨ s.now < e.at_ + s.fence + s.fld .eddyCfg 0 0 15 0 then .next s
    else if e.late then .next (s.endRec hub ent rcFaultRetry 0xC)
    else .next ((s.setEnt hub ent { e with want := [], snaps := givenUp e }).snapsReady hub ent)

/-- The header of an export chunk (Table 6.13). DESIGN CHOICE (log 106): the four fields of NONCE take 4, 2, 2 and 4 bytes. -/
def chunkHead (tenant part cls exportId chunk freezeEn device homeGen keyChk slot blog entries last total keyId : Nat) : List Byte :=
  leBytes 4 0x58454445 ++ leBytes 1 1 ++ leBytes 1 tenant ++ leBytes 1 part ++ leBytes 1 cls ++ leBytes 4 exportId ++ leBytes 4 chunk ++
  leBytes 4 freezeEn ++ leBytes 2 (device % 8192) ++ leBytes 2 homeGen ++ leBytes 4 keyChk ++ leBytes 1 slot ++ leBytes 1 blog ++
  leBytes 1 entries ++ leBytes 1 last ++ leBytes 4 total ++ leBytes 4 keyId ++
  (leBytes 4 exportId ++ leBytes 2 part ++ leBytes 2 cls ++ leBytes 4 chunk) ++ leBytes 12 0

/-- The buckets of a class and partition with a VALID bit, in index order (R188). -/
def State.bucketsOf (s : State) (t cls part : Nat) : List (Nat × EBucket) :=
  let lo := bucketKey t cls part 0
  (s.eddy.buckets.filter (fun e => decide (lo ≤ e.1) && decide (e.1 < lo + 2 ^ 28) && e.2.tags.any TagEntry.valid)).map (fun e => (e.1 - lo, e.2))

/-- Splits a list into groups of at most `n`. -/
def groupsOf {α : Type} (n : Nat) : Nat → List α → List (List α)
  | 0, _ => []
  | _, [] => []
  | f + 1, l => l.take n :: groupsOf n f (l.drop n)

/-- The chunks of one class and partition (R188, R189): whole bucket entries, as many as fit 8,192 bytes, sealed with the export key. A class and
partition with no bucket gives one last chunk with no entry, so that an import can complete (R190). -/
def State.exportPart (s : State) (t exportId freezeEn keyNo keyId part : Nat) (c : KeyClass) : List (List Byte) :=
  let ents := (s.bucketsOf t c.cls part).map (fun b => leBytes 4 b.1 ++ leBytes 4 0 ++ bucketBytes b.2)
  let per := (8192 - 80) / (8 + 64 + 8 * slotBytes c.slot)
  let gs := if ents.isEmpty then [[]] else groupsOf per ents.length ents
  (gs.zipIdx).map (fun g =>
    let last := decide (g.2 + 1 = gs.length)
    let head := chunkHead t part c.cls exportId g.2 freezeEn s.device (s.rd .eddyHomeGen t 0 % 65536) (keyCheck (s.domKey t)) c.slot
      c.bucketsLog2 g.1.length (b2n last) (if last then gs.length else 0) keyId
    head ++ Config.sealChunk keyNo head g.1.flatten)

/-- All chunks of a tenant's export: partitions, classes in class order (R188). DESIGN CHOICE (log 106): a partition that is unavailable is exported as it
stands. -/
def State.exportChunks (s : State) (t exportId freezeEn keyNo keyId : Nat) (m : ModelSet) : List (List Byte) :=
  let cs := match m.schema with | some x => (List.range 8).filterMap (fun k => x.classes.find? (fun (c : KeyClass) => c.cls == k)) | none => []
  (List.range 12).flatMap (fun p => cs.flatMap (s.exportPart t exportId freezeEn keyNo keyId p))

/-- Clears every bucket of a tenant (R190), or of one class (R187). -/
def State.clearStore (s : State) (t : Nat) (cls : Option Nat) : State :=
  let keep := fun (k : Nat) => decide (k / 2 ^ 28 / 12 / 8 ≠ t) || (match cls with | some c => decide (k / 2 ^ 28 / 12 % 8 ≠ c) | none => false)
  { s with eddy := { s.eddy with buckets := s.eddy.buckets.keep (fun k _ => keep k), bad := s.eddy.bad.filter keep } }

end Sys2Proof.Machine
end

