-- ==== Sys2Proof/Machine/Vector.lean ====
section
/-! DEFINITION. The vector engines' runs (chapter 7): batches, the lanes at the start of a run, one meaning per instruction, and the end
of a run (R193 to R210, R215, R219). -/

namespace Sys2Proof.Machine

/-- The key info block and data of a key (R201, R202, Table 7.3): `none` for absent bytes. A key of no body has state 4. -/
def keySeg (e : RecEnt) (m : ModelSet) (k : KeyRef) : Seg :=
  let b := (e.snaps.find? (fun b => b.keyIndex = k.idx)).getD { key := e.r.key, keyIndex := k.idx, state := 4 }
  let some' := fun (l : List Byte) => l.map some
  let age := min ((e.r.key.stamp - b.lastStamp) / 1024) (2 ^ 32 - 1)
  let info := some' (leBytes 1 b.state ++ leBytes 1 (b2n b.pre.isSome + 2 * b2n b.post.isSome + 4 * b2n b.mirror) ++ leBytes 2 0 ++
    leBytes 4 b.satmap ++ leBytes 4 b.livePre ++ leBytes 4 b.livePost ++ leBytes 8 b.lastStamp) ++
    (if b.state = 0 then some' (leBytes 4 age) else List.replicate 4 none) ++ some' (leBytes 4 0)
  let part := fun (n : Nat) (d : Option (List Byte)) => match d with | some x => some' x | none => List.replicate n none
  match m.accessFor e.r.pipe k.cls with
  | none => info
  | some a =>
    if a.snap = 0 then info
    else info ++ part a.snapLen b.pre ++ (if 2 ≤ a.snap then part a.snapLen b.post else [])

/-- The META segment (Table 7.4). -/
def State.metaSeg (s : State) (e : RecEnt) (finish : Bool) : Seg :=
  let st := (List.range 4).map (fun i => match e.keys.find? (fun k => k.idx = i) with | some k => keyState e k | none => 0xFF)
  (leBytes 8 e.r.key.stamp ++ leBytes 4 (s.epochOf e.r.key.stamp % 2 ^ 32) ++ leBytes 2 e.r.key.seq ++ leBytes 2 e.r.key.dev ++
   leBytes 1 e.r.key.port ++ leBytes 1 e.r.pipe ++ leBytes 1 e.r.cls ++ leBytes 1 e.r.tenant ++ leBytes 1 e.keys.length ++
   st.flatMap (leBytes 1) ++ leBytes 1 (if finish then e.stage % 8 + b2n e.early * 128 else 0) ++
   leBytes 1 (if finish then hitMap e else 0) ++ leBytes 5 0).map some

/-- The RULE segment: 16 bytes per rule table slot. -/
def ruleSeg (e : RecEnt) : Seg :=
  ((List.range 4).flatMap (fun i =>
    match e.searches.find? (fun x => x.slot = i) with
    | some x => leBytes 4 x.value ++ leBytes 4 x.addr ++ leBytes 1 (b2n x.hit) ++ leBytes 7 0
    | none => leBytes 4 0 ++ leBytes 4 (2 ^ 32 - 1) ++ leBytes 8 0)).map some

/-- The sixteen carry words of a record, with their tags: 0, untagged, where no feature program has stored one (R198, R201). -/
def carryWords (e : RecEnt) : List VReg := (List.range 16).map (fun i => nth e.carry i (0, false))

/-- The segments of a lane for a program's kind (Table 7.2), by code. -/
def State.laneSegs (s : State) (e : RecEnt) (p : VProg) (finish : Bool) : List Seg :=
  let m := s.recSet e
  let some' := fun (l : List Byte) => l.map some
  let meta' := s.metaSeg e finish
  let const := some' p.const
  if finish then
    let fused := (s.recStage e).ensemble
    let has := match m.ensemble fused with | some x => x.fused | none => false
    [[], [], [], [], [], meta', const, some' (e.outs.flatMap (leBytes 4)), some' (e.wides.flatMap (leBytes 8)),
     if has then some' (e.fused.flatMap (leBytes 4)) else List.replicate 8 none, ruleSeg e,
     some' (carryWords e |>.flatMap (fun c => leBytes 4 c.1.toNat))]
  else
    let rec_ := if e.keys.isEmpty then e.r.payload
      else match parseKeySection e.r.payload 0xFF with | .ok (_, f) => f | .error _ => []
    let keySegs := (List.range 4).map (fun i => match e.keys.find? (fun k => k.idx = i) with
      | some k => keySeg e m k
      | none => List.replicate 32 none)
    some' rec_ :: (keySegs ++ [meta', const])

/-- The output vector at the start of a feature run (R198). -/
def startFeats (ft : FTable) (p : VProg) (e : RecEnt) : List (Nat × Bool) :=
  if bit p.flags 0 && e.keys.isEmpty then
    (List.range ft.length).map (fun f =>
      (leAt e.r.payload (featOffset ft f) (featWidth (nth ft f 0)), bit (leAt e.r.payload (featBytes ft + f / 8) 1) (f % 8)))
  else List.replicate ft.length (0, true)

/-- The feature vector that a run leaves (R34, R203): values, then the missing mask. -/
def featVector (ft : FTable) (l : Lane) : List Byte :=
  ((l.feats.zipIdx).flatMap (fun f => leBytes (featWidth (nth ft f.2 0)) f.1.1)) ++
  leBytes (ceilDiv ft.length 8) (bitmap (l.feats.map (fun f => f.2)))

/-- The lane of a record at the start of a run (R198); a finish program reads the carry words and their tags. -/
def State.startLane (s : State) (e : RecEnt) (p : VProg) (finish : Bool) : Lane :=
  let ft := (s.recSet e).ftable
  let l := Lane.start (ft.map featWidth) (if finish then [] else startFeats ft p e) (s.laneSegs e p finish)
  if finish then { l with carry := carryWords e } else l

/-- VE_BATCH_WAIT_EXPIRY (R196): BATCH_WAIT hub cycles after its first record became ready, a batch is due. -/
def execVeBatchWaitExpiry (hub batch : Nat) (s : State) : Out := s.gated <|
  let v := s.veHub hub
  match v.batches[batch]? with
  | none => .next s
  | some b =>
    if s.hubCycles hub < b.opened + s.fld .veCfg hub 0 7 0 then .next s
    else .next (s.setVe hub { v with batches := setNth v.batches batch { b with due := true } })

/-- The due batch that a free engine takes (R196): finish batches first when FIN_FIRST is 1, else the one ready earliest. -/
def State.nextBatch (s : State) (hub : Nat) (b : VeBatch) : Bool :=
  let due := (s.veHub hub).batches.filter VeBatch.due
  let fin := s.fld .veCfg hub 0 8 8 == 1 && due.any (fun x => x.kind == 2)
  let pool := if fin then due.filter (fun x => x.kind == 2) else due
  b.due && (!fin || b.kind == 2) && pool.all (fun x => decide (b.opened ≤ x.opened))

/-- A record of the batch has had its run on an engine end in a fault, and runs again on another (R218). -/
def State.avoided (s : State) (hub engine : Nat) (b : VeBatch) : Bool :=
  (b.recs.take 32).any (fun i => match s.ent? hub i with | some e => e.avoid == some engine | none => false)

/-- VE_BATCH_LAUNCH (R196, R198): a free engine takes a due batch of up to 32 records and starts its run, at a cost of 4 cycles. -/
def execVeBatchLaunch (hub engine batch : Nat) (s : State) : Out := s.gated <|
  let v := s.veHub hub
  match v.batches[batch]? with
  | none => .next s
  | some b =>
    if (s.engine hub engine).state ≠ 0 ∨ (v.runs.find? engine).isSome = true ∨ s.nextBatch hub b = false ∨
        s.avoided hub engine b = true then .next s
    else
      let es := (b.recs.take 32).filterMap (fun i => (s.ent? hub i).map (fun e => (i, e)))
      match es with
      | [] => .next (s.setVe hub { v with batches := v.batches.eraseIdx batch })
      | (_, e0) :: _ =>
        let m := s.recSet e0
        let p := (if b.kind = 1 then m.featProg b.prog else m.finProg b.prog).getD {}
        let run : VeRun :=
          { tenant := b.tenant, kind := b.kind, prog := p, recs := es.map (fun x => x.1)
            lanes := es.map (fun x => s.startLane x.2 p (b.kind == 2)), cycles := 4
            half := b.half }
        let s := s.setVe hub { v with batches := v.batches.eraseIdx batch, runs := v.runs.put engine run }
        .next (es.foldl (fun s x => s.setEnt hub x.1 { x.2 with phase := if b.kind = 1 then .featRun else .finRun }) s)

/-- Counts the lanes that end a run with each flag set (R215), the run and its records (R220). -/
def State.countRun (s : State) (hub engine : Nat) (r : VeRun) : State :=
  let k := (34 * hub + engine) * 7
  let s := (s.tick .cntVeCnt k).count .cntVeCnt (k + 1) r.recs.length
  (List.range 5).foldl (fun s f => s.count .cntVeCnt (k + 2 + f) ((r.lanes.filter (fun l => bit l.flags f)).length)) s

/-- Delivers one record of an ended run (R204, R210): its vector and carry words, or its result words. -/
def State.deliver (s : State) (hub i : Nat) (r : VeRun) (l : Lane) : State :=
  match s.ent? hub i with
  | none => s
  | some e =>
    if r.kind = 1 then
      if e.phase = .featRun then s.vectorReady hub i (featVector (s.recSet e).ftable l) l.carry else s
    else if e.phase = .finRun then (s.setEnt hub i { e with results := l.res.take r.prog.nres }).resultsReady hub i
    else s

/-- VE_BATCH_COMPLETE (R210): every instruction has run; the records of the batch take what the run leaves. -/
def execVeBatchComplete (hub engine : Nat) (s : State) : Out := s.gated <|
  let v := s.veHub hub
  match v.runs.find? engine with
  | none => .next s
  | some r =>
    if r.pc < r.prog.code.length then .next s
    else
      let s := (s.setVe hub { v with runs := v.runs.del engine }).countRun hub engine r
      .next ((r.recs.zip r.lanes).foldl (fun s x => s.deliver hub x.1 r x.2) s)

/-- The instruction an engine is at. -/
def VeRun.ins (r : VeRun) : VIns := vIns (nth r.prog.code r.pc 0)
def VeRun.frame (r : VeRun) : LoopFrame := r.loops.headD {}

/-- One instruction in every lane (R193, R200): a lane whose guard is false does nothing; the cycles are the batch's. -/
def State.veExec (s : State) (hub engine op : Nat) (f : LoopFrame → VIns → Lane → Lane) : Out :=
  let v := s.veHub hub
  match v.runs.find? engine with
  | none => .next s
  | some r =>
    let i := r.ins
    if r.prog.code.length ≤ r.pc ∨ i.op ≠ op then .next s
    else
      let r' := { r with pc := r.pc + 1, cycles := r.cycles + vCycles i, lanes := r.lanes.map (fun l => if l.guard i then f r.frame i l else l) }
      .next (s.setVe hub { v with runs := v.runs.put engine r' })

/-- LOOP (R209): opens a loop at the next instruction. -/
def execVeLoop (hub engine : Nat) (s : State) : Out := s.gated <|
  let v := s.veHub hub
  match v.runs.find? engine with
  | none => .next s
  | some r =>
    let i := r.ins
    if r.prog.code.length ≤ r.pc ∨ i.op ≠ 0x02 then .next s
    else
      let fr : LoopFrame := { start := r.pc + 1, count := bits i.imm 11 0 + 1, bstride := bits i.imm 21 12, istride := bits i.imm 29 22 }
      let r' := { r with pc := r.pc + 1, cycles := r.cycles + 1, loops := fr :: r.loops }
      .next (s.setVe hub { v with runs := v.runs.put engine r' })

/-- ENDL (R209): the next iteration of the innermost loop, or the end of it. -/
def execVeEndl (hub engine : Nat) (s : State) : Out := s.gated <|
  let v := s.veHub hub
  match v.runs.find? engine with
  | none => .next s
  | some r =>
    if r.prog.code.length ≤ r.pc ∨ r.ins.op ≠ 0x03 then .next s
    else
      let r' := match r.loops with
        | [] => { r with pc := r.pc + 1 }
        | fr :: rest =>
          if fr.i + 1 < fr.count then { r with pc := fr.start, loops := { fr with i := fr.i + 1 } :: rest }
          else { r with pc := r.pc + 1, loops := rest }
      .next (s.setVe hub { v with runs := v.runs.put engine r' })

/-- The constant area as a lane sees it (segment code 6). -/
def Lane.const (l : Lane) : List Byte := (nth l.segs 6 []).map (fun b => b.getD 0)

/-- NOP (R206). -/
def execVeNop (hub engine : Nat) (s : State) : Out := s.gated <| s.veExec hub engine 0x00 (fun _ _ l => l)

/-- ADD (R206). -/
def execVeAdd (hub engine : Nat) (s : State) : Out := s.gated <| s.veExec hub engine 0x10 (fun _ i l => laneBin opAdd i l)

/-- SUB (R206). -/
def execVeSub (hub engine : Nat) (s : State) : Out := s.gated <| s.veExec hub engine 0x11 (fun _ i l => laneBin opSub i l)

/-- ADDS (R206). -/
def execVeAdds (hub engine : Nat) (s : State) : Out := s.gated <| s.veExec hub engine 0x12 (fun _ i l => laneBin opAdds i l)

/-- SUBS (R206). -/
def execVeSubs (hub engine : Nat) (s : State) : Out := s.gated <| s.veExec hub engine 0x13 (fun _ i l => laneBin opSubs i l)

/-- ADDUS (R206). -/
def execVeAddus (hub engine : Nat) (s : State) : Out := s.gated <| s.veExec hub engine 0x14 (fun _ i l => laneBin opAddus i l)

/-- SUBUS (R206). -/
def execVeSubus (hub engine : Nat) (s : State) : Out := s.gated <| s.veExec hub engine 0x15 (fun _ i l => laneBin opSubus i l)

/-- MUL (R206). -/
def execVeMul (hub engine : Nat) (s : State) : Out := s.gated <| s.veExec hub engine 0x16 (fun _ i l => laneBin opMul i l)

/-- MULHU (R206). -/
def execVeMulhu (hub engine : Nat) (s : State) : Out := s.gated <| s.veExec hub engine 0x17 (fun _ i l => laneBin opMulhu i l)

/-- MULHS (R206). -/
def execVeMulhs (hub engine : Nat) (s : State) : Out := s.gated <| s.veExec hub engine 0x18 (fun _ i l => laneBin opMulhs i l)

/-- MINS (R206). -/
def execVeMins (hub engine : Nat) (s : State) : Out := s.gated <| s.veExec hub engine 0x19 (fun _ i l => laneBin opMins i l)

/-- MAXS (R206). -/
def execVeMaxs (hub engine : Nat) (s : State) : Out := s.gated <| s.veExec hub engine 0x1A (fun _ i l => laneBin opMaxs i l)

/-- MINU (R206). -/
def execVeMinu (hub engine : Nat) (s : State) : Out := s.gated <| s.veExec hub engine 0x1B (fun _ i l => laneBin opMinu i l)

/-- MAXU (R206). -/
def execVeMaxu (hub engine : Nat) (s : State) : Out := s.gated <| s.veExec hub engine 0x1C (fun _ i l => laneBin opMaxu i l)

/-- ABS (R206). -/
def execVeAbs (hub engine : Nat) (s : State) : Out := s.gated <| s.veExec hub engine 0x1D (fun _ i l => laneUn opAbs i l)

/-- DIVU (R206). -/
def execVeDivu (hub engine : Nat) (s : State) : Out := s.gated <| s.veExec hub engine 0x1E (fun _ i l => laneBin opDivu i l)

/-- DIVS (R206). -/
def execVeDivs (hub engine : Nat) (s : State) : Out := s.gated <| s.veExec hub engine 0x1F (fun _ i l => laneBin opDivs i l)

/-- AND (R206). -/
def execVeAnd (hub engine : Nat) (s : State) : Out := s.gated <| s.veExec hub engine 0x20 (fun _ i l => laneBin opAnd i l)

/-- OR (R206). -/
def execVeOr (hub engine : Nat) (s : State) : Out := s.gated <| s.veExec hub engine 0x21 (fun _ i l => laneBin opOr i l)

/-- XOR (R206). -/
def execVeXor (hub engine : Nat) (s : State) : Out := s.gated <| s.veExec hub engine 0x22 (fun _ i l => laneBin opXor i l)

/-- ANDN (R206). -/
def execVeAndn (hub engine : Nat) (s : State) : Out := s.gated <| s.veExec hub engine 0x23 (fun _ i l => laneBin opAndn i l)

/-- SHL (R206). -/
def execVeShl (hub engine : Nat) (s : State) : Out := s.gated <| s.veExec hub engine 0x24 (fun _ i l => laneBin opShl i l)

/-- SHR (R206). -/
def execVeShr (hub engine : Nat) (s : State) : Out := s.gated <| s.veExec hub engine 0x25 (fun _ i l => laneBin opShr i l)

/-- SAR (R206). -/
def execVeSar (hub engine : Nat) (s : State) : Out := s.gated <| s.veExec hub engine 0x26 (fun _ i l => laneBin opSar i l)

/-- BFX (R206). -/
def execVeBfx (hub engine : Nat) (s : State) : Out := s.gated <| s.veExec hub engine 0x27 (fun _ i l => laneUn (opBfx i) i l)

/-- BFI (R206). -/
def execVeBfi (hub engine : Nat) (s : State) : Out := s.gated <| s.veExec hub engine 0x28 (fun _ i l => laneBfi i l)

/-- POPC (R206). -/
def execVePopc (hub engine : Nat) (s : State) : Out := s.gated <| s.veExec hub engine 0x29 (fun _ i l => laneUn opPopc i l)

/-- CLZ (R206). -/
def execVeClz (hub engine : Nat) (s : State) : Out := s.gated <| s.veExec hub engine 0x2A (fun _ i l => laneUn opClz i l)

/-- MOVI (R206). -/
def execVeMovi (hub engine : Nat) (s : State) : Out := s.gated <| s.veExec hub engine 0x2B (fun _ i l => laneMovi i l)

/-- MOV (R206). -/
def execVeMov (hub engine : Nat) (s : State) : Out := s.gated <| s.veExec hub engine 0x2C (fun _ i l => laneMov i l)

/-- CLRM (R206). -/
def execVeClrm (hub engine : Nat) (s : State) : Out := s.gated <| s.veExec hub engine 0x2D (fun _ i l => laneClrm i l)

/-- SETM (R206). -/
def execVeSetm (hub engine : Nat) (s : State) : Out := s.gated <| s.veExec hub engine 0x2E (fun _ i l => laneSetm i l)

/-- SEL (R206). -/
def execVeSel (hub engine : Nat) (s : State) : Out := s.gated <| s.veExec hub engine 0x2F (fun _ i l => laneSel i l)

/-- FADD (R207). -/
def execVeFadd (hub engine : Nat) (s : State) : Out := s.gated <| s.veExec hub engine 0x30 (fun _ i l => laneBin fAdd i l)

/-- FSUB (R207). -/
def execVeFsub (hub engine : Nat) (s : State) : Out := s.gated <| s.veExec hub engine 0x31 (fun _ i l => laneBin fSub i l)

/-- FMUL (R207). -/
def execVeFmul (hub engine : Nat) (s : State) : Out := s.gated <| s.veExec hub engine 0x32 (fun _ i l => laneBin fMul i l)

/-- FMIN (R206). -/
def execVeFmin (hub engine : Nat) (s : State) : Out := s.gated <| s.veExec hub engine 0x33 (fun _ i l => laneBin (fun a b => (fMin a b, 0)) i l)

/-- FMAX (R206). -/
def execVeFmax (hub engine : Nat) (s : State) : Out := s.gated <| s.veExec hub engine 0x34 (fun _ i l => laneBin (fun a b => (fMax a b, 0)) i l)

/-- FABS (R206). -/
def execVeFabs (hub engine : Nat) (s : State) : Out := s.gated <| s.veExec hub engine 0x35 (fun _ i l => laneUn (fun a => (fAbs a, 0)) i l)

/-- FNEG (R206). -/
def execVeFneg (hub engine : Nat) (s : State) : Out := s.gated <| s.veExec hub engine 0x36 (fun _ i l => laneUn (fun a => (fNegate a, 0)) i l)

/-- FDIV (R207). -/
def execVeFdiv (hub engine : Nat) (s : State) : Out := s.gated <| s.veExec hub engine 0x37 (fun _ i l => laneBin fDiv i l)

/-- FSQRT (R207). -/
def execVeFsqrt (hub engine : Nat) (s : State) : Out := s.gated <| s.veExec hub engine 0x38 (fun _ i l => laneUn fSqrt i l)

/-- FRCP (R207). -/
def execVeFrcp (hub engine : Nat) (s : State) : Out := s.gated <| s.veExec hub engine 0x39 (fun _ i l => laneUn fRcp i l)

/-- FEXP2 (R207). -/
def execVeFexp2 (hub engine : Nat) (s : State) : Out := s.gated <| s.veExec hub engine 0x3A (fun _ i l => laneUn fExp2 i l)

/-- FLOG2 (R207). -/
def execVeFlog2 (hub engine : Nat) (s : State) : Out := s.gated <| s.veExec hub engine 0x3B (fun _ i l => laneUn fLog2 i l)

/-- CVTIF (R206). -/
def execVeCvtif (hub engine : Nat) (s : State) : Out := s.gated <| s.veExec hub engine 0x3C (fun _ i l => laneUn (fun a => (cvtIF i.m a, 0)) i l)

/-- CVTFI (R206). -/
def execVeCvtfi (hub engine : Nat) (s : State) : Out := s.gated <| s.veExec hub engine 0x3D (fun _ i l => laneUn (cvtFI i.m) i l)

/-- CMP (R206). -/
def execVeCmp (hub engine : Nat) (s : State) : Out := s.gated <| s.veExec hub engine 0x40 (fun _ i l => laneCmp i l)

/-- PLOG (R206). -/
def execVePlog (hub engine : Nat) (s : State) : Out := s.gated <| s.veExec hub engine 0x41 (fun _ i l => lanePlog i l)

/-- PWL (R212). -/
def execVePwl (hub engine : Nat) (s : State) : Out := s.gated <| s.veExec hub engine 0x48 (fun _ i l => laneUn (opPwl l.const i.imm) i l)

/-- BKT (R213). -/
def execVeBkt (hub engine : Nat) (s : State) : Out := s.gated <| s.veExec hub engine 0x49 (fun _ i l => laneUn (opBkt l.const i.imm (i.m % 4)) i l)

/-- LD (R208). -/
def execVeLd (hub engine : Nat) (s : State) : Out := s.gated <| s.veExec hub engine 0x50 (fun fr i l => laneLd fr i l)

/-- STF (R203). -/
def execVeStf (hub engine : Nat) (s : State) : Out := s.gated <| s.veExec hub engine 0x58 (fun fr i l => laneStf fr i l)

/-- STF2 (R203). -/
def execVeStf2 (hub engine : Nat) (s : State) : Out := s.gated <| s.veExec hub engine 0x59 (fun fr i l => laneStf2 fr i l)

/-- MISSF (R203). -/
def execVeMissf (hub engine : Nat) (s : State) : Out := s.gated <| s.veExec hub engine 0x5A (fun fr i l => laneMissf fr i l)

/-- STC (R203). -/
def execVeStc (hub engine : Nat) (s : State) : Out := s.gated <| s.veExec hub engine 0x5B (fun fr i l => laneStc fr i l)

/-- STR (R203). -/
def execVeStr (hub engine : Nat) (s : State) : Out := s.gated <| s.veExec hub engine 0x5C (fun fr i l => laneStr fr i l)

/-- RDF (R206). -/
def execVeRdf (hub engine : Nat) (s : State) : Out := s.gated <| s.veExec hub engine 0x5D (fun _ i l => laneRdf i l)

end Sys2Proof.Machine
end

