-- ==== Sys2Proof/Machine/BraidPort.lean ====
section
/-! DEFINITION. Braid ports and routes (chapter 14): the checks of an envelope, sending by route, a port that goes down or comes up. -/

namespace Sys2Proof.Machine

/-- The virtual channel of a message type (Table 14.7). -/
def brChannel (t : Nat) : Nat :=
  if t = 2 ∨ t = 4 then 1 else if t = 6 ∨ t = 7 then 2 else if t = 8 ∨ t = 9 then 3 else 0

/-- An endpoint address holds no reserved value (Table 14.5). -/
def endpointOk (a : Nat) : Bool :=
  decide (a < 2 ^ 26) && (if bit a 13 then decide (bits a 17 14 ≤ 11) else bits a 25 14 == 0)

/-- An envelope holds no reserved value (R387): a multicast goes to a group on MC, a repair copy of a chunk to an endpoint on BULK (R401), any
other message to an endpoint on the channel of its type. -/
def BrMsg.ok (m : BrMsg) : Bool :=
  decide (1 ≤ m.type) && decide (m.type ≤ 9) && decide (m.flags < 16) && decide (m.tenant < 4) && m.reserved == 0 && m.wait.isNone && m.que.isNone &&
  decide (m.body.length ≤ 8256) && endpointOk m.src &&
  (if bit m.flags 2 then m.type == 6 && m.flags % 4 == 2 && decide (m.dst < 65536)
   else endpointOk m.dst && (if m.type = 6 then m.flags % 4 == 3 else m.flags % 4 == brChannel m.type))

/-- The pair of a port is the same direction's port on the other hub die. -/
def portPair (b : Nat) : Nat := (b + 6) % 12
/-- The peer port of a torus link (R379). -/
def portPeer (b : Nat) : Nat := if b % 2 = 0 then b + 1 else b - 1

/-- The neighbour of this device by a port (Table 14.1). -/
def State.neighbour (s : State) (b : Nat) : Nat :=
  let k := portDim b
  let n := s.torusLen k
  let c := coordOf s.device k
  let c' := if portPos b then (c + 1) % n else (c + n - 1) % n
  let w := nth [1, 32, 512] k 1
  s.device - c * w + c' * w

/-- The dateline class of a message that leaves by a port (R391): class 0 as it enters a dimension, kept within one. -/
def State.dateline (s : State) (b : Nat) (inPort : Option Nat) (m : BrMsg) : BrMsg :=
  let was := match inPort with
    | some p => s.torusRole p && portDim p == portDim b && bit m.flags 3
    | none => false
  { m with flags := setBit m.flags 3 was }

/-- Sends a message to an attached endpoint of this device (R403, R404); answers whether it was taken. A reply waits for its port. -/
def State.sendAttached (s : State) (m : BrMsg) : State × Bool :=
  let b := bits m.dst 17 14
  let x := s.brPort b
  if s.fld .braidPortCfg b 0 2 1 = 1 ∧ (x.step = 6 ∨ m.type = 2) ∧ x.serves m.dst = true then (s.brSend b m, true)
  else (s.attDrop b, false)

/-- Sends a message towards another member, or to an endpoint attached to this one, from hub die `h` (R386, R389, R393). Answers whether it
was taken: with no route it is discarded and counted. -/
def State.brRoute (s : State) (h : Nat) (inPort : Option Nat) (m : BrMsg) : State × Bool :=
  if m.dst % 8192 = s.device then (if bit m.dst 13 then s.sendAttached m else (s, false))
  else if s.inDomain (m.dst % 8192) = false then (s.tick .cntBraidDevCnt 0, false)
  else
    match s.routeFrom h inPort (m.src % 8192) (m.dst % 8192) with
    | some b => (s.brSend b (s.dateline b inPort m), true)
    | none => (s.tick .cntBraidDevCnt 0, false)

/-- Both ports of a port's direction are down; a detour is possible by the other way of a ring of more than two (R393). -/
def State.dirDown (s : State) (b : Nat) : Bool := (s.brPort b).step != 6 && (s.brPort (portPair b)).step != 6
def State.canDetour (s : State) (b : Nat) : Bool := decide (2 < s.torusLen (portDim b)) && !s.dirDown (portPeer b)

/-- Sets the DETOUR bits of every torus direction as its ports and the way back stand. -/
def State.setDetours (s : State) : State :=
  (List.range 12).foldl (fun s b =>
    let d := s.torusRole b && s.dirDown b && s.canDetour b
    if (s.brPort b).detour = d then s else s.setBrPort b { s.brPort b with detour := d }) s

/-- A command list that cannot be delivered (R323): counted, and raised once per epoch of the list and destination. -/
def State.listUndeliv (s : State) (tenant dest en : Nat) : State :=
  let s := s.tick .cntDistCnt ((tenant * 2 + dest % 2) * 10 + 9)
  let key := tenant * 65536 + dest
  let ens := SMap.getD (fun _ => []) s.dist.undeliv key
  if en ∈ ens then s
  else
    let s := { s with dist := { s.dist with undeliv := s.dist.undeliv.put key (ens ++ [en]) } }
    s.event 0x0B03 0xFFFF tenant (detailOf [(2, dest), (4, en), (2, 0)])
/-- A part of a command list of this device that is lost on its way is undeliverable (R323). -/
def State.lostList (s : State) (m : BrMsg) : State :=
  if m.type = 9 ∧ m.src = s.device then s.listUndeliv m.tenant (leAt m.body 8 2) (leAt m.body 4 4) else s

/-- An accepted message goes again by the other port of its direction, under the number it bears (R383). -/
def State.brAgain (s : State) (b : Nat) (m : BrMsg) : State :=
  let x := s.brPort b
  let s := s.setBrPort b { x with unacked := x.unacked ++ [m] }
  let s := { s with braid := { s.braid with sentOut := s.braid.sentOut ++ [(b, m)] } }
  s.count .cntBraidPortCnt (b * 9) (brFlits m)

/-- A port goes down (R383, R393): unacknowledged messages go again by the pair, or are lost; it returns to step 1, or stays down when it
is lastingly faulty. Cause 9 is a port that is disabled, which raises nothing. -/
def State.brDown (s : State) (b cause : Nat) : State :=
  let x := s.brPort b
  let was := decide (x.step = 6)
  let dead := (SMap.getD (fun _ => {}) s.rel.wins (0xB000 + b)).lasting
  let again := match x.lastDown with | none => true | some t => decide (2 ^ 24 ≤ s.now - t)
  let torus := s.torusRole b
  let tell := again && cause != 9
  let s := s.setBrPort b { x with step := if dead then 0 else 1, stepAt := s.now, replays := 0, unacked := [], failedStep := if cause ≤ 5 then cause else 0
                                  fell := x.fell || was, lastDown := if tell then some s.now else x.lastDown }
  let s := if tell then s.event 0x0E01 b 0xFF cause else s
  if was = false then s
  else
    let pair := portPair b
    let s := if torus = false then x.unacked.foldl (fun s m => let r := s.sendAttached m; if r.2 then r.1 else r.1.lostList m) s
      else if (s.brPort pair).step = 6 then x.unacked.foldl (fun s m => s.brAgain pair m) s
      else x.unacked.foldl (fun s m => (s.tick .cntBraidDevCnt 0).lostList m) s
    let s := s.setDetours
    let s := if torus && s.dirDown b then s.event 0x0E03 b 0xFF (b2n (!s.canDetour b)) else s
    s.noteDegraded

/-- A port comes up (Table 14.2, step 6): waiting messages leave. Step 5 has initialised the link's sequence, unless the other port of its direction
carries it on (R383). -/
def State.brUp (s : State) (b : Nat) : State :=
  let x := s.brPort b
  let k := s.linkOf b
  let s := if k < 6 ∧ (s.brPort (portPair b)).step = 6 then s
    else { s with braid := { s.braid with txSeq := s.braid.txSeq.del k, rxSeq := s.braid.rxSeq.del k } }
  let s := (s.setBrPort b { x with step := 6, stepAt := s.now, replays := 0, failedStep := 0, fell := false, unacked := [] }).brPump b false
  let s := s.event 0x0E00 b 0xFF (detailOf [(2, x.peerDevice), (1, x.peerPort), (1, b2n (!x.peerMember)), (4, 0)])
  s.setDetours.noteDegraded

end Sys2Proof.Machine
end

