-- ==== Sys2Proof/Machine/Faults.lean ====
section
/-! DEFINITION. Fault windows, lasting faults and what they set going, spares and hosts, single-tile resets, and management's actions on a
unit (R247 to R249, R274, R275, R481 to R492). -/

namespace Sys2Proof.Machine

/-- A unit address names a unit (Table 18.1). -/
def unitNamed (u : Nat) : Bool :=
  let n := u % 4096
  match u / 4096 with
  | 1 => decide (n < 528)
  | 2 => decide (n < 72)
  | 3 => decide (n < 8)
  | 4 => decide (n < 17)
  | 5 => decide (n < 68)
  | 6 => decide (n < 32)
  | 7 => decide (n < 12)
  | 8 => decide (n < 2)
  | 9 => decide (n < 8)
  | 10 => decide (n < 2)
  | 11 => decide (n < 12)
  | 13 => decide (n < 10)
  | _ => false

/-- The window of a unit. -/
def State.win (s : State) (u : Nat) : FaultWin := SMap.getD (fun _ => {}) s.rel.wins u
def State.setWin (s : State) (u : Nat) (w : FaultWin) : State := { s with rel := { s.rel with wins := s.rel.wins.put u w } }

/-- The tenant that owns a scoring die (R475). -/
def State.dieOwner (s : State) (d : Nat) : Nat := if s.tenancy then d / 2 else 0

/-- A unit that the fuses left: a fused tile counts no error and refuses every operation (R222). -/
def State.unitThere (s : State) (u : Nat) : Bool :=
  let n := u % 4096
  unitNamed u && !(u / 4096 == 1 && s.tileFused (n / 66) (n % 66)) && !(u / 4096 == 2 && s.fuse.musOff.contains n)

/-- The half of a die's unit that the owner's active set does not use is free (R249, R275): that set is not in the full layout, nothing is being
placed, and neither an old set nor a shadow holds an image there. `holds` says whether a set has an image for the unit. -/
def State.halfFree (s : State) (d : Nat) (holds : ModelSet → Bool) : Bool :=
  let h := s.hwT (s.dieOwner d)
  !h.old.any (fun i => holds i.set) && !h.shadow.any (fun i => holds i.set) && h.loadState != 3 && !h.placing &&
  (match h.active with | some a => !a.full | none => true)
/-- An active tile whose shadow half is free can host a slot: it holds a slot, hosts and loads none. The same of a match unit. -/
def State.tileCanHost (s : State) (d t : Nat) : Bool :=
  let u := s.tile d t
  u.state == 0 && u.hosted.isNone && !u.resetting && (match u.held with | some sl => s.halfFree d (fun m => (m.slots.find? (66 * d + sl)).isSome) | none => false)
def State.muCanHost (s : State) (d m : Nat) : Bool :=
  let u := s.mu d m
  u.state == 0 && u.hosted.isNone && !u.resetting && (match u.held with | some l => s.halfFree d (fun m => (m.units.find? (9 * d + l)).isSome) | none => false)

/-- The physical units that serve a logical unit of a die, tiles t and match units 66 + m: an instruction goes to the first; of a pair both hold the
vector (R272). -/
def State.physAll (s : State) (m : ModelSet) (die unit : Nat) : List Nat :=
  if unit < 66 then (s.servingTile m (66 * die + unit)).toList else (s.servingUnits m (9 * die + (unit - 66))).map (66 + ·)
/-- An instruction works on a physical unit: its own, or the other one of its pair (R272). -/
def State.worksOn (s : State) (d x : Nat) (t : TileIns) : Bool :=
  t.die == d && (t.phys == x || (decide (66 ≤ t.unit) && (match s.ent? t.hub t.ent with | some e => (s.physAll (s.recSet e) d t.unit).contains x | none => false)))
/-- Tasks with work on a physical tile, a match unit (66 + m), or anywhere on a die. -/
def State.tasksOnUnit (s : State) (d x : Nat) : List (Nat × Nat) :=
  (s.die.ins.filter (s.worksOn d x)).map (fun t => (t.hub, t.stream))
def State.tasksOnDie (s : State) (d : Nat) (p : Nat → Bool) : List (Nat × Nat) :=
  (s.die.recs.filter (fun r => r.die == d && p r.hub)).map (fun r => (r.hub, r.stream)) ++
  (s.die.ins.filter (fun t => t.die == d && p t.hub)).map (fun t => (t.hub, t.stream)) ++
  (s.die.parts.filter (fun t => t.die == d && p t.hub)).map (fun t => (t.hub, t.stream))

/-- Removes what a unit holds of its instructions: its lanes, record buffer and accumulators are cleared (R485). -/
def State.clearUnit (s : State) (d x : Nat) : State :=
  { s with die := { s.die with ins := s.die.ins.filter (fun t => !(t.die == d && t.phys == x))
                               bufs := s.die.bufs.filter (fun b => !(b.die == d && b.phys == x)) } }

/-- A record's issued rule table searches in the units that a fault hits, given as the hub die and the logical unit 9 d + m. -/
def State.searchHit (s : State) (h : Nat) (e : RecEnt) (hit : Nat → Nat → Bool) : Bool :=
  let m := s.recSet e
  e.searches.any (fun x => x.issued && !x.done && (m.tableUnits x.table x.replica).any (fun u => hit h u || (m.pairFirst u && hit h (u + 1))))
/-- Ends the issued rule table searches in the units that a fault hits (R273, R495): a Fast-mode record ends with FAULT_RETRY and the class of the unit;
in Lockstep mode its search is issued again once, and the record's other searches and stages are kept. -/
def State.endSearches (s : State) (cause : Nat) (hit : Nat → Nat → Bool) : State :=
  let rs := (List.range 2).flatMap (fun h => ((s.hub h).recs.filter (fun r => s.searchHit h r.2 hit)).map (fun r => (h, r.1)))
  rs.foldl (fun s r =>
    match s.ent? r.1 r.2 with
    | none => s
    | some e =>
      let s := s.latch (some e.r.tenant) attnTaskFault
      if e.lock ∧ e.again = false then s.setEnt r.1 r.2 { e with again := true } else s.endRec r.1 r.2 rcFaultRetry cause) s
/-- The logical units of a physical match unit. -/
def State.logicalOf (s : State) (d m : Nat) : List Nat := ((s.mu d m).held.toList ++ (s.mu d m).hosted.toList).map (9 * d + ·)

/-- The tasks with records mapped to a replica that includes a slot or a logical unit that stays unavailable (R487). -/
def State.tasksOfReplica (s : State) (d : Nat) (hit : ModelSet → Nat → Nat → Bool) : List (Nat × Nat) :=
  (List.range 2).flatMap (fun h => ((s.hub h).streams.filter (fun x =>
    decide (0 < s.inflight h x.1) && (x.2.desc.kind == 1 || x.2.desc.kind == 2) && (groupDies x.2.desc.group).contains d && hit (s.streamSet x.2) x.2.ens x.2.replica)).map
      (fun x => (h, x.1)))

/-- Replicas of the owner's active set that a slot or a logical unit withdraws. -/
def State.withdrawn (s : State) (d : Nat) (hit : ModelSet → Nat → Nat → Bool) : Nat :=
  match s.active (s.dieOwner d) with
  | none => 0
  | some i => (i.set.ensembles.map (fun e => ((List.range (i.set.replicas e.index)).filter (hit i.set e.index)).length)).sum

/-- The lowest spare of a die's tiles, else the lowest active tile that can host (R248, R249, R486). -/
def State.spareTile (s : State) (d : Nat) : Option Nat := (List.range 66).find? (fun t => decide ((s.tile d t).state = 1))
def State.hostTile (s : State) (d : Nat) : Option Nat :=
  (List.range 66).find? (fun t => s.tileCanHost d t && (s.tile d t).loading.isNone)

/-- A slot that a failed tile held finds a spare or a host, which begins to load it; else it stays unavailable, and the records mapped to the replicas
that include it end (R487). -/
def State.seatSlot (s : State) (d t sl : Nat) : State :=
  match s.spareTile d with
  | some k => s.setTile d k { s.tile d k with state := 2, loading := some sl, failed := t, since := s.now }
  | none =>
    match s.hostTile d with
    | some k => s.setTile d k { s.tile d k with loading := some sl, failed := t, since := s.now }
    | none => s.abortTasks (s.tasksOfReplica d (fun m e r => (m.replicaSlots e r).contains (66 * d + sl))) (.fault (0x1000 + 66 * d + t))

/-- A slot that a failed tile held becomes unavailable (R248), and is seated anew. -/
def State.replaceSlot (s : State) (d t sl : Nat) : State :=
  (s.event 0x0800 (66 * d + t) (s.dieOwner d)
    (detailOf [(2, 66 * d + sl), (2, s.withdrawn d (fun m e r => (m.replicaSlots e r).contains (66 * d + sl))), (4, s.epoch)])).seatSlot d t sl

/-- A tile is lastingly faulty (R248, R486). -/
def State.tileFail (s : State) (d t : Nat) : State :=
  let u := s.tile d t
  let tasks := s.tasksOnUnit d t
  let s := s.setTile d t { state := 3, failed := u.failed, scrub := u.scrub }
  let s := (s.abortTasks tasks (.fault (0x1000 + 66 * d + t))).clearUnit d t
  let lost := (if u.state = 2 then u.loading.toList else u.held.toList ++ u.hosted.toList ++ u.loading.toList)
  lost.foldl (fun s sl => s.replaceSlot d t sl) s

/-- The same of match units (R274, R275). -/
def State.spareMu (s : State) (d : Nat) : Option Nat := (List.range 9).find? (fun m => decide ((s.mu d m).state = 1))
def State.hostMu (s : State) (d : Nat) : Option Nat :=
  (List.range 9).find? (fun m => s.muCanHost d m && (s.mu d m).loading.isNone)
def State.replaceMu (s : State) (d m l : Nat) : State :=
  match s.spareMu d with
  | some k => s.setMu d k { s.mu d k with state := 2, loading := some l, failed := m, since := s.now }
  | none =>
    match s.hostMu d with
    | some k => s.setMu d k { s.mu d k with loading := some l, failed := m, since := s.now }
    | none =>
      s.abortTasks (s.tasksOfReplica d (fun m e r => (m.replicaUnits e r).any (fun x => m.inPair x (9 * d + l) && s.muLost m x))) (.fault (0x2000 + 9 * d + m))
def State.muFail (s : State) (d m : Nat) : State :=
  let u := s.mu d m
  let tasks := s.tasksOnUnit d (66 + m)
  let us := s.logicalOf d m
  let s := (s.setMu d m { state := 3, failed := u.failed, scrub := u.scrub }).endSearches 2 (fun _ x => us.contains x)
  let s := (s.abortTasks tasks (.fault (0x2000 + 9 * d + m))).clearUnit d (66 + m)
  let lost := (if u.state = 2 then u.loading.toList else u.held.toList ++ u.hosted.toList ++ u.loading.toList)
  lost.foldl (fun s l => s.replaceMu d m l) s

/-- Ends the batch that an engine runs (R218, R495): its records end, or in Lockstep mode run once more, on another engine, from the inputs still
held. DESIGN CHOICE (log 107): KIND in VE_BATCH_FAULT is that of Table 7.10, 1 or 2. -/
def State.batchFault (s : State) (h v : Nat) : State :=
  let x := s.veHub h
  match x.runs.find? v with
  | none => s
  | some r =>
    let s := s.setVe h { x with runs := x.runs.del v }
    let again := r.recs.any (fun i => match s.ent? h i with | some e => e.lock && !e.again | none => false)
    let s := s.event 0x0700 (34 * h + v) r.tenant
      (detailOf [(1, r.kind), (1, r.prog.index), (1, r.recs.length), (1, b2n again), (4, s.epoch)])
    let s := s.latch (some r.tenant) attnTaskFault
    r.recs.foldl (fun s i =>
      match s.ent? h i with
      | none => s
      | some e =>
        if e.lock ∧ e.again = false then
          let e := { e with again := true, avoid := some v }
          if r.kind = 1 then (s.setEnt h i { e with phase := .snaps }).featReady h i
          else (s.setEnt h i { e with phase := .finish }).finishReady h i
        else s.endRec h i rcFaultRetry 5) s

/-- A vector engine is lastingly faulty (R219, R486): the lowest spare begins to load the code of both halves. -/
def State.engineFail (s : State) (h v : Nat) : State :=
  let s := s.batchFault h v
  let was := s.engine h v
  let s := s.setEngine h v { state := 3 }
  let orig := if was.state = 2 then was.loading else if was.state = 0 then some v else none
  match (List.range 34).find? (fun k => decide ((s.engine h k).state = 1)), orig with
  | some k, some f => s.setEngine h k { state := 2, loading := some f, failed := v, since := s.now }
  | _, _ => s

/-- A partition of the Eddy store becomes unavailable (R184). -/
def State.losePartition (s : State) (p : Nat) : State :=
  if p ∈ s.eddy.lost then s
  else
    let s := { s with eddy := { s.eddy with lost := s.eddy.lost ++ [p] } }
    s.event 0x0600 p 0xFF s.now

/-- A stack is lastingly faulty (R456): a rotation for which only its pages were left is complete. -/
def State.stackFail (s : State) (p : Nat) : State :=
  let k := nth s.mem.stk p {}
  let q := (p + 6) % 12
  let s := { s with mem := { s.mem with stk := setNth s.mem.stk p { k with state := 2 } } }
  let s := { s with mem := { s.mem with stk := setNth s.mem.stk q { nth s.mem.stk q {} with unmirrored := true } } }
  let s := (s.losePartition p).event 0x1006 q 0xFF p
  s.endSweep

/-- The hub dies whose traffic to a die a die link carries (R489). -/
def State.linkHubs (s : State) (link h : Nat) : Bool :=
  let d := link / 2
  h == link % 2 || s.rel.dieLinks.contains (2 * d + (1 - link % 2))

/-- Tasks that use a die link; of the hub-to-hub link, those of a hub die whose own link to their die is down. -/
def State.tasksOnLink (s : State) (link : Nat) : List (Nat × Nat) :=
  if link < 16 then s.tasksOnDie (link / 2) (s.linkHubs link)
  else (List.range 8).flatMap (fun d => s.tasksOnDie d (fun h => s.rel.dieLinks.contains (2 * d + h)))

/-- The rule table searches that use a die link end. -/
def State.linkSearches (s : State) (link : Nat) : State :=
  s.endSearches 4 (fun h x => if link < 16 then x / 9 == link / 2 && s.linkHubs link h else s.rel.dieLinks.contains (2 * (x / 9) + h))

/-- A fetch engine is lastingly faulty (R492): its streams, and the reads they wait for, move to the lowest working engine of the hub die; their
records in flight end. -/
def State.fetchFail (s : State) (h e : Nat) : State :=
  let w := s.hub h
  let mine := (w.streams.filter (fun x => x.2.desc.engine == e)).map (fun x => (h, x.1))
  let busy := mine.filter (fun x => decide (0 < s.inflight h x.2))
  let s := s.abortTasks busy (.fault (0x6000 + 16 * h + e))
  match (List.range 16).find? (fun k => !(s.win (0x6000 + 16 * h + k)).lasting) with
  | some k =>
    let w := s.hub h
    s.setHub h { w with streams := w.streams.mapVals (fun _ x => if x.desc.engine = e then { x with desc := { x.desc with engine := k } } else x)
                        reads := w.reads.map (fun r => if r.engine = e then { r with engine := k } else r) }
  | none => s

/-- The tasks of a die that is withdrawn: every slot and logical unit on it is unavailable (R489). -/
def State.tasksWithdrawn (s : State) (d : Nat) : List (Nat × Nat) :=
  s.tasksOfReplica d (fun m e r => (m.replicaSlots e r).any (fun x => x / 66 == d) || (m.replicaUnits e r).any (fun x => x / 9 == d))

/-- What a lasting fault sets going, by class (R484, R486, R489 to R492). -/
def State.lastingEffect (s : State) (u : Nat) : State :=
  let n := u % 4096
  match u / 4096 with
  | 1 => s.tileFail (n / 66) (n % 66)
  | 2 => s.muFail (n / 9) (n % 9)
  | 3 => (s.abortTasks (s.tasksOnDie n (fun _ => true) ++ s.tasksWithdrawn n) (.fault u)).endSearches 3 (fun _ x => x / 9 == n)
  | 4 =>
    let tasks := s.tasksOnLink n
    let s := s.linkSearches n
    let s := { s with rel := { s.rel with dieLinks := if n ∈ s.rel.dieLinks then s.rel.dieLinks else s.rel.dieLinks ++ [n] } }
    let both := s.rel.dieLinks.contains (2 * (n / 2)) && s.rel.dieLinks.contains (2 * (n / 2) + 1)
    let s := if n < 16 ∧ both = true ∧ n / 2 ∉ s.rel.outDies then { s with rel := { s.rel with outDies := s.rel.outDies ++ [n / 2] } } else s
    if n = 16 then s.warmReset 9 0
    else s.abortTasks (tasks ++ (if s.dieWithdrawn (n / 2) then s.tasksWithdrawn (n / 2) else [])) (.fault u)
  | 5 => s.engineFail (n / 34) (n % 34)
  | 6 => s.fetchFail (n / 16) (n % 16)
  | 7 => s.stackFail n
  | 9 =>
    let s := { s with rel := { s.rel with cores := s.rel.cores.put n { state := 3 } } }
    if (List.range 4).all (fun c => (SMap.getD (fun _ => {}) s.rel.cores (n / 4 * 4 + c)).state == 3) then s.warmReset 10 0 else s
  | 10 => (List.range 6).foldl (fun s p => s.losePartition (6 * n + p)) s
  | 11 => if (s.brPort n).step = 0 then s else s.brDown n (if (s.brPort n).step ≤ 5 then (s.brPort n).step else 8)
  | _ => s

/-- Marks a unit lastingly faulty (R484): why is 1 limit reached, 2 self-test failed, 3 retired by management. -/
def State.markLasting (s : State) (u why : Nat) : State :=
  let w := s.win u
  if w.lasting then s
  else
    let s := s.setWin u { w with lasting := true }
    let s := s.latch none attnLasting
    let s := s.event 0x1200 u 0xFF (detailOf [(1, w.c), (1, w.x), (1, why), (1, 0), (4, s.epoch)])
    (s.lastingEffect u).noteDegraded

/-- Counts an event in a unit's fault window (R483): a window keeps the limits it opened under. -/
def State.countErr (s : State) (u : Nat) (corr : Bool) : State :=
  let w := s.win u
  if w.lasting then s
  else
    let s := s.tick .cntRelCnt (u * 2 + b2n (!corr))
    let fresh := !w.opened || decide (w.start + w.len ≤ s.now)
    let w : FaultWin := if fresh then
        { opened := true, start := s.now, len := 2 ^ s.fld .relCfg 0 0 5 0
          limC := if u / 4096 = 7 then s.fld .relCfg 0 0 21 14 else s.fld .relCfg 0 0 9 6, limX := s.fld .relCfg 0 0 13 10 }
      else w
    let w := if corr then { w with c := w.c + 1 } else { w with x := w.x + 1 }
    let s := s.setWin u w
    if w.limC ≤ w.c ∨ w.limX ≤ w.x then s.markLasting u 1 else s

/-- The tasks with work on a tile or a match unit are aborted, and the rule searches issued to it end (R152, R247, R273). -/
def State.endWork (s : State) (u : Nat) : State :=
  let n := u % 4096
  let tasks := if u / 4096 = 1 then s.tasksOnUnit (n / 66) (n % 66) else s.tasksOnUnit (n / 9) (66 + n % 9)
  let us := if u / 4096 = 2 then s.logicalOf (n / 9) (n % 9) else []
  (s.abortTasks tasks (.fault u)).endSearches 2 (fun _ x => us.contains x)

/-- Begins a single-tile reset (R485): the unit's contents are cleared, so the work on it ends, as where its slot becomes unavailable (R248). -/
def State.beginReset (s : State) (u : Nat) : State :=
  let n := u % 4096
  let s := s.endWork u
  if u / 4096 = 1 then
    let x := s.tile (n / 66) (n % 66)
    if x.state = 3 then s else (s.setTile (n / 66) (n % 66) { x with resetting := true, since := s.now }).clearUnit (n / 66) (n % 66)
  else
    let x := s.mu (n / 9) (n % 9)
    if x.state = 3 then s else (s.setMu (n / 9) (n % 9) { x with resetting := true, since := s.now }).clearUnit (n / 9) (66 + n % 9)

/-- An uncorrectable error in a tile or a match unit (R247, R273, R485): tasks with work on it are aborted, it is counted, and it is reset
unless that marks it lastingly faulty. -/
def State.unitError (s : State) (u : Nat) : State :=
  let s := (s.endWork u).countErr u false
  if (s.win u).lasting then s else s.beginReset u

/-- After its reset, the images of every loaded half are written into a unit again; a match unit counts the entries (R485, R277). -/
def State.imagesAgain (s : State) (u : Nat) : State :=
  let n := u % 4096
  if u / 4096 ≠ 2 then s
  else
    let h := s.hwT (s.dieOwner (n / 9))
    let x := s.mu (n / 9) (n % 9)
    let s := x.held.toList.foldl (fun s l =>
      (h.active.toList ++ h.old.toList ++ h.shadow.toList).foldl (fun s i => s.countWrites (n / 9) (n % 9) l i.units) s) s
    x.hosted.toList.foldl (fun s l => h.active.toList.foldl (fun s i => s.countWrites (n / 9) (n % 9) l i.units) s) s

/-- REL_UNIT_RESET (R485): a single-tile reset ends. -/
def execRelUnitReset (unit : Nat) (pass : Bool) (s : State) : Out := s.gated <|
  let n := unit % 4096
  let u := if unit / 4096 = 1 then s.tile (n / 66) (n % 66) else s.mu (n / 9) (n % 9)
  if (unit / 4096 ≠ 1 ∧ unit / 4096 ≠ 2) ∨ unitNamed unit = false ∨ u.resetting = false then .next s
  else
    let v := { u with resetting := false }
    let s := if unit / 4096 = 1 then s.setTile (n / 66) (n % 66) v else s.setMu (n / 9) (n % 9) v
    let s := if pass then s.imagesAgain unit else s
    let s := s.event 0x1201 unit 0xFF (detailOf [(1, if pass then 1 else 2), (3, 0), (4, sat32 (s.now - u.since))])
    .next (if pass then s else s.markLasting unit 2)

/-- A sector of the bundle that a spare loads from failed its check, so its load fails (R443, R486). -/
def State.bundleBad (s : State) (t : Nat) : Bool := (nth (s.hwT t).slots (s.hwT t).activeSlot {}).failed

/-- TILE_SPARE_LOADED (R248): the spare takes the slot; a spare that fails its load is marked lastingly faulty. -/
def execTileSpareLoaded (die tile : Nat) (s : State) : Out := s.gated <|
  let u := s.tile die tile
  match u.loading with
  | none => .next s
  | some sl =>
    if u.state ≠ 2 then .next s
    else if s.bundleBad (s.dieOwner die) then .next (s.markLasting (0x1000 + 66 * die + tile) 2)
    else
      let s := s.setTile die tile { u with state := 0, held := some sl, loading := none }
      .next (s.event 0x0801 (66 * die + tile) (s.dieOwner die)
        (detailOf [(2, 66 * die + sl), (2, 66 * die + u.failed), (4, sat32 (s.now - u.since))])).noteDegraded

/-- TILE_SLOT_REMAPPED (R249): the host holds the slot in its shadow half, unless a set has come to hold that. -/
def execTileSlotRemapped (die tile : Nat) (s : State) : Out := s.gated <|
  let u := s.tile die tile
  match u.loading with
  | none => .next s
  | some sl =>
    if u.state ≠ 0 then .next s
    else if s.tileCanHost die tile = false then .next ((s.setTile die tile { u with loading := none }).seatSlot die u.failed sl)
    else
      let s := s.setTile die tile { u with hosted := some sl, loading := none }
      .next (s.event 0x0802 (66 * die + tile) (s.dieOwner die)
        (detailOf [(2, 66 * die + sl), (2, 66 * die + u.failed), (4, sat32 (s.now - u.since))])).noteDegraded

/-- MU_SPARE_LOADED (R274): the spare takes the logical unit. -/
def execMuSpareLoaded (die unit : Nat) (s : State) : Out := s.gated <|
  let u := s.mu die unit
  match u.loading with
  | none => .next s
  | some l =>
    if u.state ≠ 2 then .next s
    else if s.bundleBad (s.dieOwner die) then .next (s.markLasting (0x2000 + 9 * die + unit) 2)
    else
      let h := s.hwT (s.dieOwner die)
      let s := s.setMu die unit { u with state := 0, held := some l, loading := none }
      let s := (h.active.toList ++ h.old.toList ++ h.shadow.toList).foldl (fun s i => s.countWrites die unit l i.units) s
      .next (s.event 0x0903 (9 * die + unit) (s.dieOwner die)
        (detailOf [(2, 9 * die + u.failed), (1, l), (1, 0), (4, sat32 (s.now - u.since))])).noteDegraded

/-- MU_REMAPPED (R275): the host holds the logical unit's image in its shadow half. -/
def execMuRemapped (die unit : Nat) (s : State) : Out := s.gated <|
  let u := s.mu die unit
  match u.loading with
  | none => .next s
  | some l =>
    if u.state ≠ 0 then .next s
    else if s.muCanHost die unit = false then .next ((s.setMu die unit { u with loading := none }).replaceMu die u.failed l)
    else
      let s := s.setMu die unit { u with hosted := some l, loading := none }
      let t := s.dieOwner die
      let s := (s.active t).toList.foldl (fun s i =>
        let host := { i with rate := { i.rate with hosts := i.rate.hosts ++ u.held.toList.map (fun k => (9 * die + l, 9 * die + k)) } }
        (s.setHwT t { s.hwT t with active := some host }).countWrites die unit l i.units) s
      .next (s.event 0x0904 (9 * die + unit) (s.dieOwner die)
        (detailOf [(2, 9 * die + u.failed), (1, l), (1, 0), (4, sat32 (s.now - u.since))])).noteDegraded

/-- VE_SPARE_IN (R219, R486): a spare that has loaded the code of both halves joins the pool; one that fails its load is marked lastingly faulty, and the
next is tried. -/
def execVeSpareIn (hub engine : Nat) (s : State) : Out := s.gated <|
  let u := s.engine hub engine
  match u.loading with
  | none => .next s
  | some v =>
    if (List.range 4).any s.bundleBad then .next (s.markLasting (0x5000 + 34 * hub + engine) 2) else
    let s := s.setEngine hub engine { u with state := 0, loading := none, held := some v }
    .next (s.event 0x0701 (34 * hub + engine) 0xFF (detailOf [(2, 34 * hub + v), (6, 0)])).noteDegraded

/-- The state register of a unit allows a reinstate (R488): lastingly faulty, of a class that can return, not fused off. -/
def State.canReinstate (s : State) (u : Nat) : Bool :=
  let n := u % 4096
  s.unitThere u && (match u / 4096 with
    | 1 => (s.tile (n / 66) (n % 66)).state == 3
    | 2 => (s.mu (n / 9) (n % 9)).state == 3
    | 5 => (s.engine (n / 34) (n % 34)).state == 3
    | 4 => s.rel.dieLinks.contains n
    | 11 => (s.win u).lasting
    | _ => false)
/-- It allows a retirement: not yet lastingly faulty. -/
def State.canRetire (s : State) (u : Nat) : Bool :=
  s.unitThere u && !(s.win u).lasting
/-- It allows a single-tile reset: a tile or match unit that is active or a spare, not in one. -/
def State.canReset (s : State) (u : Nat) : Bool :=
  let n := u % 4096
  unitNamed u && (match u / 4096 with
    | 1 => (s.tile (n / 66) (n % 66)).state < 2 && !(s.tile (n / 66) (n % 66)).resetting
    | 2 => (s.mu (n / 9) (n % 9)).state < 2 && !(s.mu (n / 9) (n % 9)).resetting
    | _ => false)

/-- A reinstate is accepted: a link or a Braid port begins to train, a unit its self-test. -/
def State.beginReinstate (s : State) (u : Nat) : State :=
  let s := { s with rel := { s.rel with testing := if u ∈ s.rel.testing then s.rel.testing else s.rel.testing ++ [u] } }
  if u / 4096 = 11 then s.setBrPort (u % 4096) { s.brPort (u % 4096) with step := if s.fld .braidPortCfg (u % 4096) 0 0 0 = 1 then 1 else 0 } else s

/-- A unit has returned to service: its window is closed and REL_REINSTATED raised. -/
def State.reinstated (s : State) (u v : Nat) : State :=
  let s := { s with rel := { s.rel with testing := s.rel.testing.filter (· ≠ u), wins := s.rel.wins.del u } }
  (s.event 0x1202 u 0xFF v).noteDegraded

/-- UNIT_RETIRE (R488). -/
def execUnitRetire (unit : Nat) (s : State) : Out := s.gated <| .next (if s.canRetire unit then s.markLasting unit 3 else s)

/-- UNIT_REINSTATE (R488): a tile, match unit or engine whose self-test passes is a spare; a link or a Braid port trains again. -/
def execUnitReinstate (unit : Nat) (pass : Bool) (s : State) : Out := s.gated <|
  let n := unit % 4096
  if s.canReinstate unit = false then .next s
  else
    match unit / 4096 with
    | 1 => .next (if pass then (s.setTile (n / 66) (n % 66) { state := 1 }).reinstated unit 1
        else { s with rel := { s.rel with testing := s.rel.testing.filter (· ≠ unit) } })
    | 2 => .next (if pass then (s.setMu (n / 9) (n % 9) { state := 1 }).reinstated unit 1
        else { s with rel := { s.rel with testing := s.rel.testing.filter (· ≠ unit) } })
    | 5 => .next (if pass then (s.setEngine (n / 34) (n % 34) { state := 1 }).reinstated unit 1
        else { s with rel := { s.rel with testing := s.rel.testing.filter (· ≠ unit) } })
    | _ => .next (s.beginReinstate unit)

/-- UNIT_RESET (R485, R488). -/
def execUnitReset (unit : Nat) (s : State) : Out := s.gated <| .next (if s.canReset unit then s.beginReset unit else s)

/-- DIE_LINK_TRAINING_COMPLETE (R488): a reinstated die link returns to service. -/
def execDieLinkTrainingComplete (link : Nat) (s : State) : Out := s.gated <|
  let u := 0x4000 + link
  if u ∉ s.rel.testing ∨ 17 ≤ link then .next s
  else
    let s := { s with rel := { s.rel with dieLinks := s.rel.dieLinks.filter (· ≠ link) } }
    .next (s.reinstated u 0)

/-- WATCHDOG_EXPIRY (R493): a warm reset. -/
def execWatchdogExpiry (s : State) : Out := s.gated <| .next (s.warmReset 8 0)

end Sys2Proof.Machine
end

