-- ==== Sys2Proof/Machine/Search.lean ====
section
/-! DEFINITION. One search in the unit or the pair of units that serves a logical match unit, with its readback and its pair comparison
(R259, R271, R272). Rows that a soft error has changed come with the command. -/

namespace Sys2Proof.Machine

/-- Rows that an upset has changed: physical unit 9 d + m, entry address, the row as it stands in the array. -/
abbrev Upsets := List (Nat × Nat × MuEntry)

/-- The upset rows of one physical unit. -/
def upsetsOf (ups : Upsets) (pu : Nat) : SMap MuEntry :=
  (ups.filter (fun u => u.1 == pu)).foldl (fun m u => m.put u.2.1 u.2.2) []

/-- What a search of a logical unit gives: the match, the rows rewritten as (physical unit, address), the unit an uncorrectable
disagreement is counted against. -/
structure Found where
  hit : Option (Nat × MuEntry) := none
  fixed : List (Nat × Nat) := []
  bad : Option Nat := none
deriving DecidableEq, Repr

/-- The rows of two results that differ from their copy in a unit's array. -/
def wrongRows (copy ups : SMap MuEntry) (as : List Nat) : List Nat :=
  as.filter (fun a => match ups.find? a with | some r => decide (r ≠ (copy.find? a).getD {}) | none => false)

/-- A search in one unit (R271): the rows rewritten count although a second disagreement ends it. -/
def searchOne (copy : SMap MuEntry) (ups : Upsets) (key g pu : Nat) : Found :=
  let r := searchUnit copy (upsetsOf ups pu) key g
  { hit := r.1.getD none, fixed := r.2.map (fun a => (pu, a)), bad := if r.1.isNone then some pu else none }

/-- A search in both units of a pair (R272): on a disagreement the rows of both results are checked and the search runs again. -/
def searchPair (copy : SMap MuEntry) (ups : Upsets) (key g p1 p2 : Nat) : Found :=
  let a := searchOne copy ups key g p1
  let b := searchOne copy ups key g p2
  match a.bad, b.bad with
  | some u, _ => { fixed := a.fixed ++ b.fixed, bad := some u }
  | _, some u => { fixed := a.fixed ++ b.fixed, bad := some u }
  | none, none =>
    if a.hit = b.hit then { a with fixed := a.fixed ++ b.fixed }
    else
      let rows := a.hit.toList.map Prod.fst ++ b.hit.toList.map Prod.fst
      let w1 := (wrongRows copy (upsetsOf ups p1) rows).filter (fun r => !a.fixed.contains (p1, r))
      let w2 := (wrongRows copy (upsetsOf ups p2) rows).filter (fun r => !b.fixed.contains (p2, r))
      let done := a.fixed ++ b.fixed ++ w1.map (fun r => (p1, r)) ++ w2.map (fun r => (p2, r))
      let ups' := ups.filter (fun u => !done.contains (u.1, u.2.1))
      let a' := searchOne copy ups' key g p1
      let b' := searchOne copy ups' key g p2
      if w1.isEmpty ∧ w2.isEmpty then { fixed := done, bad := some p1 }
      else if a'.bad.isSome = true ∨ b'.bad.isSome = true ∨ a'.hit ≠ b'.hit then { fixed := done, bad := some p1 }
      else { hit := a'.hit, fixed := done ++ a'.fixed ++ b'.fixed }

/-- Searches a logical unit 9 d + m of a set, counts the searches and the rows rewritten, and handles an uncorrectable disagreement
(R271 to R273). `none` while no unit serves it, or where the disagreement ends it. -/
def State.searchLogical (s : State) (m : ModelSet) (img : MuImage) (x key g : Nat) (ups : Upsets) : State × Option (Option (Nat × MuEntry)) :=
  let d := x / 9
  let us := (s.servingUnits m x).map (fun u => 9 * d + u)
  match us with
  | [] => (s, none)
  | p1 :: rest =>
    let r := match rest with
      | p2 :: _ => searchPair img.entries ups key g p1 p2
      | [] => searchOne img.entries ups key g p1
    let s := us.foldl (fun s u => s.tick .cntMuCnt (u * 5)) s
    let s := r.fixed.foldl (fun s f => (s.tick .cntMuCnt (f.1 * 5 + 3)).countErr (0x2000 + f.1) true) s
    match r.bad with
    | some u => (s.unitError (0x2000 + u), none)
    | none => (s, some r.hit)

/-- A tree search that finds no match (R262): counted, and raised at most once per epoch and unit. -/
def State.treeNoMatch (s : State) (m : ModelSet) (x sel ens t : Nat) : State :=
  let d := x / 9
  match s.servingUnits m x with
  | [] => s
  | u :: _ =>
    let s := s.tick .cntMuCnt ((9 * d + u) * 5 + 2)
    let v := s.mu d u
    if v.noMatchAt = some s.epoch then s
    else
      let s := s.setMu d u { v with noMatchAt := some s.epoch }
      s.event 0x0900 (9 * d + u) t (detailOf [(2, sel), (1, ens), (1, 0), (4, s.epoch)])

end Sys2Proof.Machine
end

