-- ==== Sys2Proof/Machine/Die.lean ====
section
/-! DEFINITION. The scoring dies: tile instructions, pooling, spill windows, the Watersmeet, and the reduction at the hub (R227 to R236,
R243, R262, R280 to R295). -/

namespace Sys2Proof.Machine

/-- An instruction serves a unit of a die for a record's run. -/
def TileIns.is (t : TileIns) (die unit hub ent : Nat) (opt : Option Nat) : Bool :=
  t.die == die && t.unit == unit && t.hub == hub && t.ent == ent && t.opt == opt

/-- The entry of a record's run on a die. -/
def State.dieRec? (s : State) (die hub ent : Nat) (opt : Option Nat) : Option DieRec := s.die.recs.find? (fun r => r.is die hub ent opt)

/-- The run of a record, mandatory or of an optional slot, whose work goes on although it comes too late (R139). -/
def RecEnt.runOf (e : RecEnt) (opt : Option Nat) : Option StageRun :=
  match opt with
  | none => some e.run
  | some sl => (e.opts.find? (fun o => o.slot == sl && o.run.issued)).map OptSt.run

/-- The lowest range of n places below `cap` that overlaps none in use, each given by its first place and its length. DESIGN CHOICE (log 71): the
issue logic takes the lowest. -/
def lowestFit (cap n : Nat) (used : List (Nat × Nat)) : Option Nat :=
  ((0 :: used.map (fun u => u.1 + u.2)).filter (fun c =>
    decide (c + n ≤ cap) && used.all (fun u => decide (c + n ≤ u.1) || decide (u.1 + u.2 ≤ c)))).min?

/-- The accumulator entries of one output (R229); the ranges held on a physical unit, of 4,096 entries on a tile and 1,024 on a match unit (Tables 8.1,
9.1). -/
def accWidth (p : SumPath) : Nat := if p = .fx then 2 else 1
def State.accRanges (s : State) (die phys : Nat) : List (Nat × Nat) :=
  (s.die.ins.filter (fun t => t.die == die && t.phys == phys)).map (fun t => (t.accBase, t.acc.length * accWidth t.path))
def State.accFit (s : State) (die phys n : Nat) : Option Nat := lowestFit (if phys < 66 then 4096 else 1024) n (s.accRanges die phys)

/-- The first block of a record's vector in the record buffer of a physical unit: where it stands already, else in the lowest free blocks of the
128 (R227, R263). -/
def State.bufFit (s : State) (die phys hub ent n : Nat) : Option Nat :=
  let here := s.die.bufs.filter (fun b => b.die == die && b.phys == phys)
  match here.find? (fun b => b.hub == hub && b.ent == ent) with
  | some b => some b.first
  | none => lowestFit 128 n (here.map (fun b => (b.first, b.blocks)))

/-- The bank entries held on a die (R289, R290). -/
def State.bankUsed (s : State) (die bank : Nat) : Nat :=
  ((s.die.recs.filter (fun r => r.die == die && r.bank == bank && r.held)).map (fun r => r.sums.length)).sum

/-- Takes a record's bank entries where it holds none yet (R290): `none` while the bank lacks them. -/
def State.takeBank (s : State) (x : DieRec) : Option DieRec :=
  if x.held then some x
  else if s.bankUsed x.die x.bank + x.sums.length ≤ 4096 then some { x with held := true }
  else none

/-- Adds leaf elements to accumulator entries from an output base (R282, R284, R285); answers the entries and whether one was clamped. -/
def addLeaf (p : SumPath) (scale : Int) (base : Nat) (acc vals : List Int) : List Int × Bool :=
  (vals.zipIdx).foldl (fun a v =>
    let q := sumElement p scale v.1
    (setNth a.1 (base + v.2) (holdSum p (addSum p (nth a.1 (base + v.2) 0) q.1)), a.2 || q.2)) (acc, false)

/-- What evaluation needs of a record's run. -/
structure EvalCtx where
  m : ModelSet := {}
  leaves : SMap (List Nat) := []
  units : SMap MuImage := []
  en : Ensemble := {}
  vec : List Byte := []
  lock : Bool := false
  tenant : Nat := 0
deriving DecidableEq, Repr

/-- The context of a record's run of an ensemble. -/
def State.evalCtx (s : State) (e : RecEnt) (ens : Nat) : EvalCtx :=
  let m := s.recSet e
  let i := (s.recInst e).getD {}
  { m := m, leaves := i.leaves, units := i.units, en := (m.ensemble ens).getD {}, vec := e.vec, lock := e.lock, tenant := e.r.tenant }

/-- Marks a mandatory record SAT (R294). -/
def State.markSat (s : State) (h i : Nat) (opt : Option Nat) (b : Bool) : State :=
  if b = false ∨ opt.isSome = true then s
  else match s.ent? h i with
    | some e => s.setEnt h i { e with sat := true }
    | none => s

/-- Counts lane cycles that start a stage R on a tile; on a pooled unit also in TILE_POOL_CNT (R250). -/
def State.countLanes (s : State) (tile n : Nat) (pool : Bool) : State :=
  let s := { s with die := { s.die with lanes := SMap.setD (fun _ => 0) s.die.lanes tile (SMap.getD (fun _ => 0) s.die.lanes tile + n) } }
  let s := s.count .cntTileCnt (tile * 8) n
  if pool then s.count .cntTileCnt (tile * 8 + 1) n else s

/-- Evaluates one directory entry on a tile: its leaf's elements, the lane cycles counted at the evaluating tile (R231 to R233, R250). -/
def State.evalTree (s : State) (c : EvalCtx) (t : TileIns) (idx : Nat) : State × TileIns :=
  let x := 66 * t.die + t.unit
  let d := dirAt (c.m.slotImg x) idx
  let v := evalEntry c.m.ftable (c.m.slotImg x) (SMap.getD (fun _ => []) c.leaves (c.m.homeSlot x)) c.m.spill c.vec (c.en.leafType == 1) d
  let a := addLeaf t.path c.en.scale d.outBase t.acc v.vals
  let s := s.countLanes (66 * t.die + t.phys) (max 1 v.cycles) t.pool
  (s.markSat t.hub t.ent t.opt (v.clamped || a.2), { t with acc := a.1 })

/-- One tree search of a match unit (R262): `none` where the search ends in an uncorrectable disagreement, or no unit serves it now. -/
def State.evalSel (s : State) (c : EvalCtx) (t : TileIns) (ups : Upsets) (sel : Nat) : State × Option TileIns :=
  let x := 9 * t.die + (t.unit - 66)
  let img := SMap.getD (fun _ => {}) c.units x
  let d := nth img.selectors sel {}
  match s.searchLogical c.m img x (searchKey img c.m.ftable c.vec sel) 0 ups with
  | (s, none) => (s, none)
  | (s, some none) => (s.treeNoMatch c.m x sel t.ens c.tenant, some t)
  | (s, some (some (_, e))) =>
    let a := addLeaf t.path c.en.scale d.outBase t.acc (muLeafVals img (c.en.leafType == 1) e.result)
    (s.markSat t.hub t.ent t.opt a.2, some { t with acc := a.1 })

/-- Evaluates entries in order on a tile. -/
def State.evalTrees (s : State) (c : EvalCtx) (t : TileIns) (l : List Nat) : State × TileIns :=
  l.foldl (fun r i => r.1.evalTree c r.2 i) (s, t)
/-- Evaluates selectors in order on a match unit. -/
def State.evalSels (s : State) (c : EvalCtx) (ups : Upsets) : TileIns → List Nat → State × Option TileIns
  | t, [] => (s, some t)
  | t, i :: l =>
    match s.evalSel c t ups i with
    | (s, some t) => State.evalSels s c ups t l
    | (s, none) => (s, none)

/-- Puts an instruction in place of itself: the one instruction of the unit's own run. -/
def State.putIns (s : State) (t : TileIns) : State :=
  { s with die := { s.die with ins := s.die.ins.map (fun x => if x.is t.die t.unit t.hub t.ent t.opt && !x.pool && x.gen == t.gen then t else x) } }

/-- The physical unit that takes an instruction: the first of those that serve its logical unit. -/
def State.physOf (s : State) (m : ModelSet) (die unit : Nat) : Option Nat := (s.physAll m die unit).head?

/-- The run of directory entries or selectors of a unit for an ensemble. -/
def EvalCtx.runIn (c : EvalCtx) (die unit ens : Nat) : SlotRun :=
  if unit < 66 then (c.m.runAt (66 * die + unit) ens).getD {} else muRun (SMap.getD (fun _ => {}) c.units (9 * die + (unit - 66))) ens
def SlotRun.indices (r : SlotRun) : List Nat := (List.range r.count).map (r.first + ·)

/-- The units of a die that take a record's vector as its run reaches their bus (R227, R263): every unit of the run's replica, and the match units where
its rule table searches wait. -/
def busUnits (c : EvalCtx) (e : RecEnt) (die ens rep : Nat) : List (Nat × Bool) :=
  ((c.m.replicaSlots ens rep).filter (fun x => x / 66 == die)).map (fun x => (x % 66, false)) ++
  ((c.m.replicaUnits ens rep).filter (fun x => x / 9 == die)).map (fun x => (66 + x % 9, false)) ++
  ((e.searches.filter (fun y => y.issued && !y.done)).flatMap (fun y => (c.m.tableUnits y.table y.replica).filter (fun x => x / 9 == die))).map
    (fun x => (66 + x % 9, true))

/-- The record bus writes a run's vector (R227): every unit takes it at once, or, while one of them lacks the blocks, none does. A unit without an
instruction for the record keeps no block of it. -/
def State.takeVector (s : State) (x : DieRec) (m : ModelSet) (n : Nat) : List (Nat × Bool) → Option State
  | [] => some s
  | u :: us =>
    let phys := s.physAll m x.die u.1
    let fits := phys.map (fun p => (p, s.bufFit x.die p x.hub x.ent n))
    if fits.any (fun f => f.2.isNone) then none
    else
      let bs := fits.filterMap (fun f => f.2.map (fun b =>
        ({ die := x.die, unit := u.1, phys := f.1, hub := x.hub, ent := x.ent, opt := x.opt, gen := x.gen, rule := u.2, first := b, blocks := n } : BufSt)))
      let s' : State := { s with die := { s.die with bufs := s.die.bufs ++ bs.filter s.bufLive } }
      s'.takeVector x m n us

/-- The vector of a run stands in the record buffer of a unit, or is written there now. -/
def State.vectorIn (s : State) (x : DieRec) (c : EvalCtx) (e : RecEnt) (rep unit phys : Nat) : Option State :=
  if s.die.bufs.any (fun b => b.die == x.die && b.unit == unit && b.phys == phys && b.hub == x.hub && b.ent == x.ent && b.opt == x.opt && b.gen == x.gen && !b.rule)
  then some s
  else s.takeVector x c.m (ceilDiv e.vec.length 256) (busUnits c e x.die x.ens rep)

/-- The lane groups of a tile, its lanes and the contexts of each (Table 8.1). -/
def laneGroups : Nat := 16
def groupContexts : Nat := 8 * 8
/-- The pairs of a tile's earlier instructions that have not ended, as entry positions in their runs, in arrival and entry order (R235, R236): those
of the instructions before the first that `mine` picks. -/
def State.pairsAhead (s : State) (die phys : Nat) (mine : TileIns → Bool) : List Nat :=
  ((s.die.ins.filter (fun x => x.die == die && x.phys == phys && !x.pool)).takeWhile (fun x => !mine x)).flatMap
    (fun x => x.todo.map (· - x.dirFirst))
/-- A context is free for the first pending pair of an instruction behind the given pairs (R230, R235, R236): in Fast mode of all the lane groups
together, which take pairs in one order; in Lockstep mode of each lane group j mod 16 that evaluates an entry j of it. -/
def contextFree (lock : Bool) (ahead mine : List Nat) : Bool :=
  if lock then
    (List.range laneGroups).all (fun g => !mine.any (fun j => j % laneGroups == g) ||
      decide ((ahead.filter (fun j => j % laneGroups == g)).length < groupContexts))
  else decide (ahead.length < laneGroups * groupContexts)

/-- The trees of an instruction that reach the leaf path, in their order, behind the pairs of the instructions before it (R230, R234 to R236): a pair
ends only when it has a context, so when all but 1,023 of those before it have ended; with no context free none ends. In Lockstep mode no order can be
told from another (R27). -/
def laneOrder (lock : Bool) (ahead : List Nat) (first : Nat) (chip order : List Nat) : List Nat :=
  let got := (order.filter (fun i => chip.contains i)).dedup
  if contextFree lock ahead (chip.map (· - first)) = false then []
  else if lock ∨ got.isEmpty = true ∨
      (got.zipIdx).all (fun x => decide (ahead.length + chip.idxOf x.1 < x.2 + laneGroups * groupContexts)) = false then chip
  else got

/-- A SPILL stream that serves the slot of an instruction. -/
def StreamSt.spillsFor (x : StreamSt) (m : ModelSet) (t : TileIns) (tenant : Nat) : Bool :=
  x.desc.kind == 3 && x.tenant == tenant && x.setId == m.setId && x.version == m.version && x.replica == m.homeSlot (66 * t.die + t.unit)
/-- The spilled tree that stands in the other buffer of an instruction's window, if it waits for it (R243). -/
def State.windowTree (s : State) (c : EvalCtx) (t : TileIns) : Option Nat :=
  ((List.range 2).findSome? (fun h => List.find? (fun x => StreamSt.spillsFor x.2 c.m t c.tenant) (s.hub h).streams)).bind
    (fun x => x.2.win.cur.bind (fun i => if t.spills.contains i then some i else none))

/-- EVAL (R228 to R236, R262): one instruction for a record's run to a unit, sent when its replica is served, its vector stands in the unit's record
buffer, and its bank and accumulator entries are free. The on-chip trees are evaluated in the order in which they reach the leaf path, as far as it
is given; a spilled one is evaluated at once where it stands in the window, and else waits for its turn. -/
def execEval (die unit hub ent : Nat) (opt : Option Nat) (order : List Nat) (upsets : List (Nat × Nat × MuEntry)) (s : State) : Out := s.gated <|
  match s.dieRec? die hub ent opt, s.ent? hub ent with
  | some x, some e =>
    let c := s.evalCtx e x.ens
    match e.runOf opt, s.physOf c.m die unit with
    | some run, some phys =>
      if unit ∉ x.todo ∨ s.replicaOk c.m x.ens run.replica = false then .next s
      else
        match s.takeBank x, s.accFit die phys (x.sums.length * accWidth x.path), s.vectorIn x c e run.replica unit phys with
        | some x, some acc, some s =>
          let r := c.runIn die unit x.ens
          let img := c.m.slotImg (66 * die + unit)
          let sp := fun (i : Nat) => decide (unit < 66) && (dirAt img i).spill
          let chip := r.indices.filter (fun i => !sp i)
          let ahead := if unit < 66 then s.pairsAhead die phys (fun _ => false) else []
          let now_ := laneOrder c.lock ahead r.first chip order
          let i := (s.recInst e).getD {}
          let hosted := if unit < 66 then (s.tile die phys).hosted == some unit else (s.mu die (phys - 66)).hosted == some (unit - 66)
          let t : TileIns :=
            { die := die, unit := unit, phys := phys, hub := hub, ent := ent, stream := x.stream, gen := x.gen, opt := opt, ens := x.ens, path := x.path
              half := if i.full then 0 else if hosted then 1 - i.half else i.half
              rbuf := (s.bufFit die phys hub ent 0).getD 0, accBase := acc, acc := List.replicate x.sums.length 0, dirFirst := r.first, dirCount := r.count
              todo := chip.filter (fun i => !now_.contains i), spills := r.indices.filter sp }
          let s := s.setDieRec { x with todo := x.todo.filter (· ≠ unit), expected := x.expected + 1, taken := true }
          let s := { s with die := { s.die with ins := s.die.ins ++ [t] } }
          if unit < 66 then
            let r := s.evalTrees c t now_
            match r.1.windowTree c r.2 with
            | some i =>
              let q := r.1.evalTree c r.2 i
              .next (q.1.putIns { q.2 with spills := q.2.spills.filter (· ≠ i) })
            | none => .next (r.1.putIns r.2)
          else
            match s.evalSels c upsets t now_ with
            | (s, some t) => .next (s.putIns t).trimBufs
            | (s, none) => .next s
        | _, _, _ => .next s
    | _, _ => .next s
  | _, _ => .next s

/-- An instruction is of its stream's current generation (R153, R228). -/
def State.genNow (s : State) (t : TileIns) : Bool := match s.stream? t.hub t.stream with | some x => x.gen == t.gen | none => false
/-- An instruction of an old generation is discarded: it works no more, and its range waits to be cleared (R228, R287). -/
def TileIns.dropped (t : TileIns) : TileIns := { t with todo := [], spills := [], pooled := 0, done := true }

/-- EVAL_COMPLETE (R234, R290): the trees still pending end, once the instructions before it leave them contexts; every spilled tree has been met, and
every pooled unit has been drained. The record buffer blocks go back with the unit's last instruction for the record (R227). -/
def execEvalComplete (die unit hub ent : Nat) (opt : Option Nat) (s : State) : Out := s.gated <|
  match s.die.ins.find? (fun t => t.is die unit hub ent opt && !t.pool && !t.done), s.ent? hub ent with
  | some t, some e =>
    if s.genNow t = false then .next (s.putIns t.dropped).trimBufs
    else if !t.spills.isEmpty ∨ t.pooled ≠ 0 then .next s
    else
      let c := s.evalCtx e t.ens
      if unit < 66 then
        if contextFree c.lock (s.pairsAhead die t.phys (fun x => x == t)) (t.todo.map (· - t.dirFirst)) = false then .next s
        else
          let r := s.evalTrees c t t.todo
          .next (r.1.putIns { r.2 with todo := [], done := true }).trimBufs
      else
        match s.evalSels c [] t t.todo with
        | (s, some t) => .next (s.putIns { t with todo := [], done := true }).trimBufs
        | (s, none) => .next s
  | _, _ => .next s

/-- The pending pairs of a physical tile of the same tenant and set half as an instruction's (R235). -/
def State.pendingPairs (s : State) (die phys : Nat) (t : TileIns) : Nat :=
  ((s.die.ins.filter (fun x => x.die == die && x.phys == phys && !x.pool && (match s.ent? x.hub x.ent, s.ent? t.hub t.ent with
    | some a, some b => s.recHalf a == s.recHalf b && a.r.tenant == b.r.tenant
    | _, _ => false))).map (fun x => x.todo.length)).sum

/-- POOL_UNIT_TAKE (R235): an idle tile takes up to 32 consecutive pending entries of one instruction of the tile of its die with the
most pending pairs, in Fast mode. -/
def execPoolUnitTake (die tile owner hub ent : Nat) (opt : Option Nat) (first count : Nat) (s : State) : Out := s.gated <|
  match s.die.ins.find? (fun t => t.die == die && t.phys == owner && t.hub == hub && t.ent == ent && t.opt == opt && !t.pool && !t.todo.isEmpty),
      s.ent? hub ent with
  | some t, some e =>
    let c := s.evalCtx e t.ens
    let u := s.tile die tile
    let holds := u.state == 0 && !u.resetting && (match u.held with | some sl => (c.m.slots.find? (66 * die + sl)).isSome | none => false)
    let idle := !s.die.ins.any (fun x => x.die == die && x.phys == tile && !(x.todo.isEmpty && x.spills.isEmpty))
    let most := (List.range 66).all (fun p =>
      decide (s.pendingPairs die p t < s.pendingPairs die owner t) || (decide (s.pendingPairs die p t = s.pendingPairs die owner t) && decide (owner ≤ p)))
    let take := (t.todo.drop first).take (min count 32)
    match s.dieRec? die hub ent opt, s.accFit die tile (t.acc.length * accWidth t.path) with
    | some x, some acc =>
      if e.lock = true ∨ s.fld .tileDieCfg die 0 0 0 = 0 ∨ holds = false ∨ idle = false ∨ most = false ∨ take.isEmpty = true ∨ tile = owner ∨
          66 ≤ t.unit ∨ x.gen ≠ t.gen ∨ s.genNow t = false then .next s
      else
        let s := s.putIns { t with todo := t.todo.filter (fun i => !take.contains i), pooled := t.pooled + 1 }
        let p : TileIns := { t with phys := tile, accBase := acc, acc := List.replicate t.acc.length 0, todo := [], spills := [], pool := true, pooled := 0, done := true }
        let r := s.evalTrees c p take
        let s := r.1.setDieRec { x with expected := x.expected + 1 }
        .next { s with die := { s.die with ins := s.die.ins ++ [r.2] } }
    | _, _ => .next s
  | _, _ => .next s

/-- Every given instruction meets spilled tree `idx` (R243); one of an old generation is discarded instead (R228). -/
def State.meetSpill (s : State) (idx : Nat) : List TileIns → State
  | [] => s
  | t :: l =>
    match s.ent? t.hub t.ent with
    | none => s.meetSpill idx l
    | some e =>
      if s.genNow t = false then (s.putIns t.dropped).meetSpill idx l
      else
        let r := s.evalTree (s.evalCtx e t.ens) t idx
        (r.1.putIns { r.2 with spills := t.spills.filter (· ≠ idx) }).meetSpill idx l

/-- The SPILL stream whose window, of slot `unit` of a die, has filled a buffer with tree `idx`: the tree's turn has come and all its blocks stand
there (R243). -/
def State.filledWindow (s : State) (die unit idx : Nat) : Option (Nat × Nat × StreamSt) :=
  (List.range 2).findSome? (fun h => ((s.hub h).streams.filter (fun x =>
    let m := s.streamSet x.2
    let r := x.2.winElems m
    x.2.desc.kind == 3 && x.2.state == 1 && x.2.replica == 66 * die + unit && (spillTrees m x.2.replica)[x.2.win.pos]? == some idx &&
    (List.range r.2).all (fun i => x.2.win.got.contains (r.1 + i)))).head?.map (fun x => (h, x.1, x.2)))

/-- SPILL_WINDOW_FILLED (R243): a spilled tree stands in a buffer of its slot's window. The tile evaluates it for every resident instruction that has
not met it, and the other buffer begins to fill with the next tree, after the last with the first. -/
def execSpillWindowFilled (die unit idx : Nat) (s : State) : Out := s.gated <|
  match s.filledWindow die unit idx with
  | none => .next s
  | some (h, st, x) =>
    let m := s.streamSet x
    let s := s.setStream h st { x with win := { pos := (x.win.pos + 1) % max 1 (spillTrees m x.replica).length, got := [], cur := some idx } }
    .next ((s.meetSpill idx (s.die.ins.filter (fun t =>
      m.homeSlot (66 * t.die + t.unit) == x.replica && !t.pool && t.spills.contains idx && s.ofSet x t.hub t.ent))).trimBufs)

/-- PRELOAD (R288, R290): the Watersmeet of the first die takes the record's preload. -/
def execPreload (die hub ent : Nat) (opt : Option Nat) (s : State) : Out := s.gated <|
  match s.dieRec? die hub ent opt, s.ent? hub ent with
  | some x, some e =>
    match e.runOf opt with
    | none => .next s
    | some run =>
      if x.needPre = false then .next s
      else
        match s.takeBank x with
        | none => .next s
        | some x => .next (s.sendPartial { x with needPre := false, sums := run.pre })
  | _, _ => .next s

/-- Removes the first instruction that a test picks. -/
def dropFirst (p : TileIns → Bool) : List TileIns → List TileIns
  | [] => []
  | t :: l => if p t then l else t :: dropFirst p l

/-- DRAIN (R286, R290, R291, R301): the entries of a completed instruction pass to the Watersmeet; those of an old generation are
discarded. -/
def execDrain (die unit hub ent : Nat) (opt : Option Nat) (s : State) : Out := s.gated <|
  let pick := fun (t : TileIns) => t.is die unit hub ent opt && t.done
  match s.die.ins.find? pick with
  | none => .next s
  | some t =>
    let gone := { s with die := { s.die with ins := dropFirst pick s.die.ins } }
    match s.dieRec? die hub ent opt with
    | none => .next (gone.count .cntWsmCnt (die * 2) (t.acc.length * accWidth t.path))
    | some x =>
      if x.gen ≠ t.gen then .next (gone.count .cntWsmCnt (die * 2) (t.acc.length * accWidth t.path))
      else if x.needPre = true then .next s
      else
        let s := gone.count .cntWsmCnt (die * 2) (t.acc.length * accWidth t.path)
        let s := if t.pool then
            { s with die := { s.die with ins := s.die.ins.map (fun y => if y.is die unit hub ent opt && !y.pool && y.gen == t.gen then { y with pooled := y.pooled - 1 } else y) } }
          else s
        .next (s.sendPartial { x with expected := x.expected - 1, sums := List.zipWith (fun a b => addSum t.path a b) x.sums t.acc })

/-- CLEAR (R287): the range of an aborted task's instruction is written to zero and freed. -/
def execClear (die unit hub ent : Nat) (opt : Option Nat) (s : State) : Out := s.gated <|
  let old := fun (t : TileIns) => t.is die unit hub ent opt && (match s.stream? hub t.stream with | some x => x.gen != t.gen | none => true)
  .next ({ s with die := { s.die with ins := dropFirst old s.die.ins } } : State).trimBufs

/-- What the reduction path forms of a run's hub sums (R292 to R297): readouts, WIDE values, fused values, whether a readout saturated; the
counters of the hub die. -/
structure Readouts where
  outs : List Nat := []
  wides : List Nat := []
  fused : List Nat := []
  sats : Nat := 0
  clamps : Nat := 0
deriving DecidableEq, Repr
def readouts (en : Ensemble) (p : SumPath) (sums : List Int) : Readouts :=
  let rs := sums.map (readout p en.scale)
  let ws := sums.map (wideValue p)
  let outs := rs.map Prod.fst
  { outs := outs, wides := ws.map Prod.fst, fused := if en.fused then [fusedMax p outs, fusedSum p outs] else []
    sats := (rs.filter Prod.snd).length, clamps := (ws.filter Prod.snd).length }

/-- A mandatory stage is reduced (R148, R150, R52): to the finish program, to the next stage's buffer, or waiting for an entry of it. Without a
finish program, optional readouts that are not formed as the last mandatory stage is read out come too late (R139). -/
def State.stageDone (s : State) (h i : Nat) (e : RecEnt) (en : Ensemble) (o : Readouts) : State :=
  let c := s.recCascade e
  let st := s.recStage e
  let pass := exitTest (en.leafType == 1) st.exitTest st.lo st.hi (nth o.outs st.exitOut 0)
  let last := decide (c.nstages ≤ e.stage + 1)
  let e := if (s.recPipe e).finProg = 0xFF && (pass || last) then e.cutOpts else e
  let e := { e with outs := o.outs, wides := o.wides, fused := o.fused, sat := e.sat || decide (0 < o.sats), ready := s.now }
  if pass ∨ last then
    let s := s.setEnt h i { e with phase := .finish, early := pass && !last, reserved := false, buffered := false, run := {} }
    let s := s.freeVector h i
    let s := if e.reserved then s.takeBuffer h e.r.tenant c.index (e.stage + 1) else s
    s.finishReady h i
  else if e.reserved ∨ s.bufRoom h e (e.stage + 1) then s.enterBuffer h i e
  else s.setEnt h i e

/-- DIE_PARTIAL_RETURN (R292): the first partial of a die in a hub die's return queue is added into the hub sums; the last of them forms the
readouts; those of an optional slot that was cut are discarded. Partials of an old generation are discarded. A complete partial that waited for room
in the return queue then follows. -/
def execDiePartialReturn (die hub : Nat) (s : State) : Out := s.gated <|
  match s.die.parts.find? (fun p => p.die == die && p.hub == hub) with
  | none => .next s
  | some p =>
    let s := { s with die := { s.die with parts := s.die.parts.erase p } }
    match s.ent? hub p.ent, s.stream? hub p.stream with
    | some e, some x =>
      match e.runOf p.opt with
      | none => .next s.pumpPartials
      | some run =>
        if x.gen ≠ p.gen ∨ run.gen ≠ p.gen ∨ run.stream ≠ p.stream ∨ run.issued = false ∨ die ∉ run.left then .next s.pumpPartials
        else
          let run := { run with left := run.left.erase die, sums := List.zipWith (fun a b => addSum run.path a b) run.sums p.sums }
          let put := fun (e : RecEnt) => match p.opt with
            | none => { e with run := run }
            | some sl => { e with opts := e.opts.map (fun o => if o.slot = sl then { o with run := run } else o) }
          if run.left.isEmpty = false then .next (s.setEnt hub p.ent (put e)).pumpPartials
          else
            let en := ((s.recSet e).ensemble run.ens).getD {}
            let o := readouts en run.path run.sums
            let s := (s.count .cntAccCnt (hub * 2) o.sats).count .cntAccCnt (hub * 2 + 1) o.clamps
            match p.opt with
            | none => .next (s.stageDone hub p.ent (put e) en o).pumpPartials
            | some sl =>
              let new := { e with opts := e.opts.map (fun y => if y.slot ≠ sl then y else if y.state = 2 then { y with state := 3, run := {}, outs := o.outs } else { y with run := {} }) }
              let s := s.setEnt hub p.ent new
              .next (if e.lock ∧ e.phase = .reply then s.patchHeld hub p.ent e new else s).pumpPartials
    | _, _ => .next s.pumpPartials

end Sys2Proof.Machine
end

