-- ==== Sys2Proof/Machine/Rules.lean ====
section
/-! DEFINITION. Rule tables: searches of records, scrub, edits of a table and their settling (R264 to R273). -/

namespace Sys2Proof.Machine

/-- The pending edit of a table of a set, and the edit count in effect for an epoch (R268, R269). -/
def SetInst.openEdit (x : SetInst) (table : Nat) : Option SetChange :=
  x.changes.find? (fun c => c.kind == 5 && c.table == table && !c.done)
def SetInst.editCount (x : SetInst) (table : Nat) : Nat := SMap.getD (fun _ => 0) x.editCounts table
def SetInst.editCountAt (x : SetInst) (table epoch : Nat) : Nat :=
  match x.openEdit table with
  | some c => if c.target ≤ epoch then c.count else x.editCount table
  | none => x.editCount table

/-- The replica a search goes to (R266): its own while that is served; in Fast mode else the lowest that is; in Lockstep mode, once its own
has been removed since the record was admitted, by the order key among those that remain. -/
def State.searchReplica (s : State) (e : RecEnt) (m : ModelSet) (x : SearchSt) : Option Nat :=
  let all := List.range (m.tableReplicas x.table)
  let left := all.filter (fun r => !s.tableLost m x.table r)
  if e.lock then
    let r := if s.tableLost m x.table x.replica then left[(e.r.key.seq + e.r.key.port) % max 1 left.length]? else some x.replica
    r.bind (fun r => if s.tableOk m x.table r then some r else none)
  else if s.tableOk m x.table x.replica then some x.replica
  else left.find? (fun r => s.tableOk m x.table r)

/-- Searches the parts of a replica in order (R264): `none` where an uncorrectable disagreement ends the search. -/
def State.searchParts (s : State) (e : RecEnt) (m : ModelSet) (units : SMap MuImage) (table g : Nat) (ups : Upsets) :
    List Nat → List (Nat × Nat × MuEntry) → State × Option (List (Nat × Nat × MuEntry))
  | [], got => (s, some got)
  | u :: us, got =>
    let img := SMap.getD (fun _ => {}) units u
    let sel := (img.selectors.takeWhile (fun d => !(d.kind == 1 && d.index == table))).length
    match s.searchLogical m img u (searchKey img m.ftable e.vec sel) g ups with
    | (s, none) => (s, none)
    | (s, some none) => State.searchParts s e m units table g ups us got
    | (s, some (some (a, w))) => State.searchParts s e m units table g ups us (got ++ [((nth img.selectors sel {}).outBase, a, w)])

/-- Every unit of a replica of a table has the blocks for a record's vector: the die's record bus writes it for them alone where they do not hold it
yet (R263). -/
def State.ruleRoom (s : State) (m : ModelSet) (hub ent n : Nat) (units : List Nat) : Bool :=
  units.all (fun u => (s.physAll m (u / 9) (66 + u % 9)).all (fun p => (s.bufFit (u / 9) p hub ent n).isSome))

/-- RULE_SEARCH (R264, R266, R273): one rule table search of a record, which stands in the queues of its replica's units. An uncorrectable error ends
it with the other searches in the unit. -/
def execRuleSearch (hub ent slot : Nat) (upsets : List (Nat × Nat × MuEntry)) (s : State) : Out := s.gated <|
  match s.ent? hub ent with
  | none => .next s
  | some e =>
    match e.searches.find? (fun x => x.slot == slot && x.issued && !x.done) with
    | none => .next s
    | some x =>
      let m := s.recSet e
      let inst := (s.recInst e).getD {}
      if (List.range (m.tableReplicas x.table)).all (fun r => s.tableLost m x.table r) then .next (s.endRec hub ent rcFaultRetry 2)
      else
        match s.searchReplica e m x with
        | none => .next s
        | some r =>
          let us := m.tableUnits x.table r
          if s.ruleRoom m hub ent (ceilDiv e.vec.length 256) us = false then .next s
          else
            let put := fun (e : RecEnt) (y : SearchSt) => { e with searches := e.searches.map (fun q => if q.slot = slot then y else q) }
            let s := s.setEnt hub ent (put e { x with replica := r })
            let g := inst.editCountAt x.table (s.epochOf e.r.key.stamp) % 2
            match s.searchParts e m inst.units x.table g upsets us [] with
            | (s, none) => .next s
            | (s, some parts) =>
              match s.ent? hub ent with
              | none => .next s
              | some e =>
                let y := match combineParts parts with
                  | some (a, w) => { x with done := true, hit := true, value := w.result % 2 ^ 32, addr := a, replica := r }
                  | none => { x with done := true, hit := false, value := ((m.ruleTable x.table).getD {}).dflt, addr := 2 ^ 32 - 1, replica := r }
                .next (((s.setEnt hub ent (put e y)).trimBufs).finishReady hub ent)

/-- The copy of the row at an absolute address of a physical unit (R253, R271, R275): of the half's set, the logical unit it holds; in a host's shadow
half, the active set's unit that it hosts. -/
def State.copyRow (s : State) (d m a : Nat) : MuEntry :=
  let h := s.hwT (s.dieOwner d)
  let row := fun (i : SetInst) (l : Nat) => (((SMap.getD (fun _ => {}) i.units (9 * d + l)).entries).find? (if i.full then a else a % 4096)).getD {}
  let host := match h.active, (s.mu d m).hosted with
    | some i, some l => if !i.full && i.half != a / 4096 then some (i, l) else none
    | _, _ => none
  match host, (h.active.toList ++ h.old.toList ++ h.shadow.toList).find? (fun i => i.full || i.half == a / 4096), (s.mu d m).held with
  | some (i, l), _, _ => row i l
  | none, some i, some l => row i l
  | none, _, _ => {}

/-- MU_SCRUB_COMPARE (R271): a unit, the spare included, compares its next row, in address order, with its copy, and rewrites it on a disagreement. -/
def execMuScrubCompare (die unit : Nat) (upset : Option MuEntry) (s : State) : Out := s.gated <|
  let u := s.mu die unit
  if u.state = 3 ∨ u.resetting = true ∨ 9 ≤ unit then .next s
  else
    let a := u.scrub
    let s := s.setMu die unit { u with scrub := (a + 1) % 8192 }
    match upset with
    | none => .next s
    | some r =>
      if r = s.copyRow die unit a then .next s
      else
        let s := s.tick .cntMuCnt ((9 * die + unit) * 5 + 3)
        let s := s.event 0x0901 (9 * die + unit) (s.dieOwner die) (detailOf [(2, a), (6, s.now)])
        .next (s.countErr (0x2000 + 9 * die + unit) true)

/-- The logical units that part `k` of a table lies in, in every replica; of a pair, both (R264, R272). -/
def ModelSet.partUnits (m : ModelSet) (table k : Nat) : List Nat :=
  (List.range (m.tableReplicas table)).flatMap (fun r =>
    match (m.tableUnits table r)[k]? with
    | some u => if m.pairFirst u then [u, u + 1] else [u]
    | none => [])

/-- Changes the entries of a part in every replica, and counts a row write at each unit (R269, R276). -/
def State.writePart (s : State) (i : SetInst) (table k : Nat) (f : SMap MuEntry → SMap MuEntry) : State × SetInst :=
  (i.set.partUnits table k).foldl (fun a u =>
    let img := SMap.getD (fun _ => {}) a.2.units u
    let s := match a.1.muUnit (u / 9) (u % 9) with
      | some p => a.1.tick .cntMuCnt ((9 * (u / 9) + p) * 5 + 1)
      | none => a.1
    (s, { a.2 with units := a.2.units.put u { img with entries := f img.entries } })) (s, i)

/-- No live epoch before `n` is left, and `n` has come (R114). -/
def State.passed (s : State) (n : Nat) : Bool := decide (n ≤ s.epoch) && s.weir.live.all (fun e => decide (n ≤ e))

/-- Stores a tenant's active instance. -/
def State.setActive (s : State) (t : Nat) (i : SetInst) : State := s.setHwT t { s.hwT t with active := some i }

/-- Marks an entry of the active slot's journal as applied (R428). -/
def State.journalApplied (s : State) (t : Nat) (body : List Byte) : State :=
  let h := s.hwT t
  let x := nth h.slots h.activeSlot {}
  let x := { x with journal := x.journal.map (fun (e : JournalEnt) => if e.body = body then { e with applied := true } else e) }
  s.setHwT t { h with slots := setNth h.slots h.activeSlot x }

/-- RULE_EDIT_SETTLE (R269): when the last live epoch before the target has ended, each edited entry's other presence bit takes the value of
the new one; the edit completes. -/
def execRuleEditSettle (tenant table : Nat) (s : State) : Out := s.gated <|
  match s.active tenant with
  | none => .next s
  | some i =>
    match i.openEdit table with
    | none => .next s
    | some c =>
      if s.passed c.due = false then .next s
      else
        let r := c.entries.foldl (fun a e => a.1.writePart a.2 table e.part (fun m => settleEntry m e.addr (c.count % 2))) (s, i)
        let i := { r.2 with editCounts := r.2.editCounts.put table c.count
                            changes := r.2.changes.map (fun d => if d = c then { c with done := true } else d) }
        let l := (i.set.partUnits table 0).headD 0
        let u := match s.servingUnits i.set l with | p :: _ => 9 * (l / 9) + p | [] => l
        let s := r.1.setActive tenant i
        let s := s.journalApplied tenant c.body
        .next (s.event 0x0902 u tenant (detailOf [(1, table), (3, 0), (4, c.count)]))

end Sys2Proof.Machine
end

