-- ==== Sys2Proof/Machine/Dist.lean ====
section
/-! DEFINITION. Distributary: the settlement of an epoch, late records, command lists, and its faults (R309 to R324). -/

namespace Sys2Proof.Machine

/-- The commit count in effect for an epoch (R319). -/
def SetInst.commitAt (x : SetInst) (epoch : Nat) : Nat :=
  (x.changes.filter (fun c => c.kind = 6 && (c.done || decide (c.target ≤ epoch)))).foldl (fun _ c => c.count) 0

/-- SETTLEMENT_OPEN (R310, R317): the bank is zeroed, the capacities are fixed, and the ordered procedure runs on the lists that are ready. -/
def execSettlementOpen (tenant epoch : Nat) (s : State) : Out := s.gated <|
  if s.now < s.settleOpenAt epoch ∨ s.settleCloseAt epoch ≤ s.now ∨ (s.settlement? tenant epoch).isSome = true ∨ 4 ≤ tenant then .next s
  else
    let mine := fun (x : SetlRec) => x.tenant == tenant && x.epoch == epoch
    let xs := s.dist.waiting.filter (fun x => mine x && !x.late)
    let late := s.dist.waiting.filter (fun x => mine x && x.late)
    let st := s.ordered { tenant := tenant, epoch := epoch, late := late, lateCount := late.length } (s.orderRecs tenant epoch xs)
    .next { s with dist := { s.dist with waiting := s.dist.waiting.filter (fun x => !mine x), open_ := s.dist.open_ ++ [st] } }

/-- Weights as they are reported (R314). -/
def reportedChoices (x : SetlRec) : List Choice := if x.policy.renorm then (renormChoices Choice.dispatched x.choices).1 else x.choices

/-- Sends one part of a command list (R322, R323). -/
def State.sendPart (s : State) (p : CmdPart) : State :=
  let hub := p.dest % 2
  let body := cmdPartBytes s.device p
  let m : BrMsg := { type := 9, flags := 3, dst := p.target, src := s.device, tenant := p.tenant, body := body }
  let r := s.brRoute hub none m
  if r.2 then
    let s := r.1.count .cntDistCnt ((p.tenant * 2 + hub) * 10 + 8) p.entries.length
    { s with dist := { s.dist with sent := s.dist.sent ++ [(p.target, body)] } }
  else r.1.listUndeliv p.tenant p.dest p.epoch

/-- The head that the parts of an epoch's lists share. -/
def State.partBase (s : State) (t epoch : Nat) : CmdPart :=
  let i := s.settleInst t epoch
  { epoch := s.origEpoch t epoch % 2 ^ 32, tenant := t, setId := i.set.setId, commit := i.commitAt (s.origEpoch t epoch) }
/-- The key of the next part number of a list. -/
def partKey (t epoch dest policy : Nat) : Nat := ((t * 2 + epoch % 2) * 65536 + dest) * 16 + policy

/-- The choices that an overrun refuses are counted and raised (R317). -/
def State.countOverrun (s : State) (st : Settlement) : State :=
  if st.overrun = 0 then s
  else
    let s := s.count .cntDistCnt (st.tenant * 20 + 6) (st.overrun - st.overrun1)
    let s := s.count .cntDistCnt (st.tenant * 20 + 16) st.overrun1
    s.event 0x0B01 0xFFFF st.tenant (detailOf [(4, st.epoch), (4, sat32 st.overrun)])

/-- The ordered procedure has ended (R317, R322): an overrun is counted, replies are formed and the ordered lists leave. -/
def State.endOrdered (s : State) (st : Settlement) : State :=
  let i := s.settleInst st.tenant st.epoch
  let s := s.countOverrun st
  let s := s.setSettlement { st with ended := true, recs := [] }
  let s := st.recs.foldl (fun s x => s.replyRoute x x.choices) s
  let recs := st.recs.map (fun x => { x with choices := reportedChoices x })
  let parts := i.set.policies.flatMap (fun p => cmdLists (s.partBase st.tenant st.epoch) recs i.set.dests p)
  let en := s.origEpoch st.tenant st.epoch
  let s := { s with dist := { s.dist with partNo := s.dist.partNo.keep (fun k _ => !decide (k / 16 / 65536 = st.tenant * 2 + en % 2)) } }
  parts.foldl (fun s p =>
    let s := s.sendPart p
    { s with dist := { s.dist with partNo := s.dist.partNo.put (partKey st.tenant en p.dest p.policy) (p.part + 1) } }) s

/-- ORDERED_PROCEDURE_END (R310, R317): past the tick of the opening, since a list that becomes ready in that very tick is ready. -/
def execOrderedProcedureEnd (tenant epoch : Nat) (s : State) : Out := s.gated <|
  match s.settlement? tenant epoch with
  | none => .next s
  | some st => if st.ended = true ∨ s.now ≤ s.settleOpenAt epoch ∨ s.hubCycles 0 < nth st.endAt 0 0 ∨ s.hubCycles 1 < nth st.endAt 1 0 then .next s else .next (s.endOrdered st)

/-- The late parts of a record's dispatched choices (R322). -/
def lateParts (base : CmdPart) (dests : SMap DestEntry) (x : SetlRec) : List CmdPart :=
  if x.policy.cmdlist = 0 then []
  else (x.choices.filter Choice.dispatched).filterMap (fun c =>
    match dests.find? c.dest with
    | some d => if d.targetEn then some { base with flags := 2, dest := c.dest, policy := x.policy.index, target := d.target, entries := [cmdEntry x c] } else none
    | none => none)

/-- One late record is settled against the counters that remain (R316). -/
def State.settleOneLate (s : State) (st : Settlement) (x : SetlRec) : State :=
  let i := s.settleInst st.tenant st.epoch
  let r := settleLate (i.capAt (s.origEpoch st.tenant st.epoch)) st.bank x
  let s := s.setSettlement { st with bank := r.1, late := st.late.drop 1 }
  let s := s.replyRoute r.2 r.2.choices
  let ps := lateParts (s.partBase st.tenant st.epoch) i.set.dests { r.2 with choices := reportedChoices r.2 }
  { s with dist := { s.dist with lateParts := s.dist.lateParts ++ ps } }

/-- LATE_RECORD_SETTLE (R316): the late record that became ready first. -/
def execLateRecordSettle (tenant epoch : Nat) (s : State) : Out := s.gated <|
  match s.settlement? tenant epoch with
  | none => .next s
  | some st =>
    match st.ended, st.late with
    | true, x :: _ => .next (s.settleOneLate st x)
    | _, _ => .next s

/-- Inserts an entry by its SLOT field (bytes 12 to 15). -/
def insEntry (e : List Byte) : List (List Byte) → List (List Byte)
  | [] => [e]
  | f :: l => if leAt e 12 4 < leAt f 12 4 then e :: f :: l else f :: insEntry e l

/-- LATE_CMDLIST_PART (R322): the waiting late choices of one list to a destination leave as one part, at most one in 256 hub cycles. -/
def execLateCmdlistPart (tenant dest : Nat) (s : State) : Out := s.gated <|
  match s.dist.lateParts.find? (fun p => p.tenant == tenant && p.dest == dest) with
  | none => .next s
  | some p =>
    let key := tenant * 65536 + dest
    let wait := match s.dist.lateSent.find? key with
      | some t => decide (s.hubCycles (dest % 2) - t < 256)
      | none => false
    if wait then .next s
    else
      let same := fun (q : CmdPart) => q.tenant == tenant && q.dest == dest && q.policy == p.policy && q.epoch == p.epoch
      let mine := (s.dist.lateParts.filter same).take 255
      let es := (mine.flatMap CmdPart.entries).foldl (fun l e => insEntry e l) []
      let rest := s.dist.lateParts.filter (fun q => !same q) ++ (s.dist.lateParts.filter same).drop 255
      let pk := partKey tenant p.epoch dest p.policy
      let n := SMap.getD (fun _ => 0) s.dist.partNo pk
      let s := { s with dist := { s.dist with lateParts := rest, lateSent := s.dist.lateSent.put key (s.hubCycles (dest % 2)), partNo := s.dist.partNo.put pk (n + 1) } }
      .next (s.sendPart { p with part := n, entries := es })

/-- Settles every late record that is left. -/
def State.settleLates (s : State) (t epoch : Nat) : Nat → State
  | 0 => s
  | n + 1 =>
    match s.settlement? t epoch with
    | some st => match st.late with
      | x :: _ => State.settleLates (s.settleOneLate st x) t epoch n
      | [] => s
    | none => s

/-- SETTLEMENT_CLOSE (R310, R316, R322): at its close tick, the late records that were ready are settled, and no further late part is sent. -/
def execSettlementClose (tenant epoch : Nat) (s : State) : Out := s.gated <|
  match s.settlement? tenant epoch with
  | none => .next s
  | some st =>
    if s.now < s.settleCloseAt epoch then .next s
    else
      let s := if st.ended then s else s.endOrdered st
      let s := s.settleLates tenant epoch st.late.length
      let en := s.origEpoch tenant epoch % 2 ^ 32
      let d := { s.dist with open_ := s.dist.open_.filter (fun x => !(x.tenant == tenant && x.epoch == epoch))
                             lateParts := s.dist.lateParts.filter (fun p => !(p.tenant == tenant && p.epoch == en)) }
      let s := { s with dist := d }
      .next (if st.lateCount = 0 then s else s.event 0x0B00 0xFFFF tenant (detailOf [(4, epoch), (4, sat32 st.lateCount)]))

/-- An uncorrectable error in a bank or table ends the ordered procedure of a settlement (R324, R495): in Lockstep mode it runs once more on
the records not yet executed again; the others end, and at a second fault all of them. -/
def State.settleFault (s : State) (st : Settlement) : State :=
  if st.ended then s
  else
    let s := s.latch (some st.tenant) attnTaskFault
    let keep := fun (x : SetlRec) => !st.faulted && (match s.ent? x.hub x.ent with
      | some e => e.lock && !e.again
      | none => false)
    let all := st.recs ++ st.late
    let stay := st.recs.filter keep
    let o := s.orderRecs st.tenant st.epoch (stay.map (fun x => { x with choices := [] }))
    let s := s.setSettlement { s.ordered st o with late := st.late.filter keep, faulted := true }
    all.foldl (fun s x =>
      if keep x then
        match s.ent? x.hub x.ent with
        | some e => s.setEnt x.hub x.ent { e with again := true }
        | none => s
      else s.endRec x.hub x.ent rcFaultRetry 8) s

end Sys2Proof.Machine
end

