-- ==== Sys2Proof/Machine/Sluice.lean ====
section
/-! DEFINITION. Sluice and Backwater: queue commands, semaphores, barriers, domain barriers, peers, and the end of a deadlock (R353 to R377). -/

namespace Sys2Proof.Machine

/-- A semaphore, a queue, a barrier. -/
def State.sem (s : State) (i : Nat) : Sem := SMap.getD (fun _ => {}) s.slu.sems i
def State.setSem (s : State) (i : Nat) (x : Sem) : State := { s with slu := { s.slu with sems := s.slu.sems.put i x } }
def State.que (s : State) (q : Nat) : SlQueue := SMap.getD (fun _ => {}) s.slu.queues q
def State.setQue (s : State) (q : Nat) (x : SlQueue) : State := { s with slu := { s.slu with queues := s.slu.queues.put q x } }
def State.bar (s : State) (b : Nat) : Barrier := SMap.getD (fun _ => {}) s.slu.bars b
def State.setBar (s : State) (b : Nat) (x : Barrier) : State := { s with slu := { s.slu with bars := s.slu.bars.put b x } }
def State.barMask (s : State) (b : Nat) : Nat := SMap.getD (fun _ => 0) s.slu.masks b

/-- The die of a queue and of a semaphore: hub dies 0 and 1, scoring die d as 2 + d (Table 13.1, R354). -/
def queueDie (q : Nat) : Nat := if q < 64 then q / 32 else 2 + (q - 64) / 8
def semDie (i : Nat) : Nat := if i < 1024 then i / 512 else 2 + (i - 1024) / 256

/-- The barrier that a queue's command names, and the queue's port in it (R360, Table 13.1). -/
def barKey (q id : Nat) : Nat := if id < 16 then 16 * queueDie q + id else 160 + (id - 16)
def barPort (q b : Nat) : Nat := if 160 ≤ b then q else if q < 64 then q % 32 else (q - 64) % 8
/-- The queue of a barrier's port. -/
def portQueue (b p : Nat) : Nat :=
  if 160 ≤ b then p else if b / 16 < 2 then 32 * (b / 16) + p else 64 + 8 * (b / 16 - 2) + p
/-- A queue is enabled, and held (Table 13.10). -/
def State.queEn (s : State) (q : Nat) : Bool := s.fld .sluQcfg q 0 0 0 == 1
def State.queHeld (s : State) (q : Nat) : Bool := s.fld .sluQctl q 0 0 0 == 1
def State.queGroup (s : State) (q : Nat) : Nat := s.fld .sluQcfg q 0 6 1

/-- A domain barrier, its member count and its group (Table 13.9). -/
def State.barDomain (s : State) (b : Nat) : Bool := decide (160 ≤ b) && s.fld .sluDbarcfg (b - 160) 0 0 0 == 1

/-- The devices of a multicast group (R397). -/
def State.groupDevs (s : State) (g : Nat) : List Nat :=
  let c := s.rd .braidCfg 0 0
  let v := if g = 0 then bits c 4 0 * 2 ^ 5 + bits c 8 5 * 2 ^ 14 + bits c 12 9 * 2 ^ 22 + 2 ^ 28 else s.rd .braidMgroup (g - 1) 0
  let span := fun (lo hi : Nat) => (List.range (hi + 1)).filter (fun x => decide (lo ≤ x))
  if bit v 28 = false then []
  else (span (bits v 21 18) (bits v 25 22)).flatMap (fun z => (span (bits v 13 10) (bits v 17 14)).flatMap (fun y =>
    (span (bits v 4 0) (bits v 9 5)).map (fun x => x + 32 * y + 512 * z)))

/-- A queue command from its 16 bytes, and its bytes (Table 13.2). -/
def qcmdOfBytes (b : List Byte) : QCmd := { op := leAt b 0 1, flags := leAt b 1 1, id := leAt b 2 2, amount := leAt b 4 4, arg := leAt b 8 8 }
def QCmd.bytes (c : QCmd) : List Byte := leBytes 1 c.op ++ leBytes 1 c.flags ++ leBytes 2 c.id ++ leBytes 4 c.amount ++ leBytes 8 c.arg

/-- The operands of a command are ones the table allows (R354, R355). -/
def qcmdOk (q : Nat) (c : QCmd) : Bool :=
  let amt := decide (1 ≤ c.amount) && decide (c.amount < 65536)
  let zero := c.amount == 0 && c.arg == 0
  (if c.op = 9 then decide (c.flags < 2) else c.flags == 0) &&
  (match c.op with
   | 1 => decide (c.id < 3072) && amt && c.arg == 0
   | 2 => decide (c.id < 3072) && semDie c.id == queueDie q && amt && c.arg == 0
   | 3 => decide (c.id < 3072) && amt && c.arg == 0
   | 4 => decide (c.id < 3072) && semDie c.id == queueDie q && decide (c.amount < 65536) && c.arg == 0
   | 5 => decide (c.id < 24) && zero
   | 6 => decide (c.id < 24) && zero
   | 7 => c.id == 0 && c.amount == 0
   | 8 => decide (q < 64) && decide (c.id < 512) && decide (1 ≤ c.amount) && decide (c.arg < 2 ^ 48)
   | 9 => decide (q < 64) && decide (c.id < 1024) && amt && decide (c.arg < 2 ^ 32) && endpointOk c.arg
   | _ => false)

/-- The head command has completed. -/
def State.popQue (s : State) (q : Nat) : State :=
  let x := s.que q
  s.setQue q { x with cmds := x.cmds.drop 1, wait := .none, ended := x.ended + 1 }

/-- Withdraws what the head command of a queue waits for (R374). -/
def State.withdraw (s : State) (q : Nat) : State :=
  let x := s.que q
  let c := x.cmds.headD {}
  let s := s.setQue q { x with wait := .none }
  let b := barKey q c.id
  let p := barPort q b
  match x.wait with
  | .sem => s.setSem c.id { s.sem c.id with waiters := (s.sem c.id).waiters.filter (· ≠ q) }
  | .bar _ => s.setBar b { s.bar b with waiting := (s.bar b).waiting.filter (· ≠ p) }
  | .held _ => s.setBar b { s.bar b with held := (s.bar b).held.filter (· ≠ p) }
  | _ => s

/-- A queue halts at its head command with SLU_CMD_ERR (R355, R360). -/
def State.cmdErr (s : State) (q : Nat) : State :=
  let c := (s.que q).cmds.headD {}
  let s := s.withdraw q
  let s := s.setQue q { s.que q with halted := true }
  s.event 0x0D06 q 0xFF (detailOf [(1, c.op), (2, c.id), (5, 0)])

/-- A decrement (R358): `none` for an underflow, which leaves the count, sets UNF and raises SLU_SEM_UNDERFLOW. -/
def State.semDec (s : State) (i k peer q : Nat) : State × Bool :=
  let x := s.sem i
  if k ≤ x.count then (s.setSem i { x with count := x.count - k }, true)
  else
    let s := s.setSem i { x with unf := true }
    (s.event 0x0D00 i 0xFF (detailOf [(2, x.count), (2, k), (1, peer), (1, q), (2, 0)]), false)

/-- Every participant of the current generation has been counted (R361). -/
def State.allCounted (s : State) (b : Nat) : Bool :=
  let m := s.barMask b
  m != 0 && (List.range 128).all (fun p => !bit m p || (s.bar b).counted.contains p)

/-- The body of a Sluice message (Table 13.6). -/
def sluiceBody (kind flags id value data : Nat) : List Byte :=
  leBytes 1 kind ++ leBytes 1 flags ++ leBytes 2 id ++ leBytes 4 value ++ leBytes 8 data

/-- The arrival message of a domain barrier whose local participants have all been counted is sent to the group, itself included
(R365), once per generation. -/
def State.sendArrival (s : State) (b : Nat) : State :=
  let x := s.bar b
  if s.barDomain b = false ∨ s.allCounted b = false ∨ x.sentAt.isSome = true ∨ x.releasing = true then s
  else
    let k := b - 160
    let own := if x.msgs.any (fun m => m.1 == x.gen && m.2.1 == s.device) then x.msgs else x.msgs ++ [(x.gen, s.device, s.now)]
    let s := s.setBar b { x with sentAt := some s.now, msgs := own }
    ((s.groupDevs (s.fld .sluDbarcfg k 0 30 15)).filter (· ≠ s.device)).foldl (fun s d =>
      (s.brRoute 0 none { type := 5, flags := 0, dst := d, src := s.device, body := sluiceBody 2 0 k x.gen s.now }).1) s

/-- An arrival at a barrier (R361, R362): counted, or held when its participant has been counted in this generation. Answers whether the
command completes at once. -/
def State.arriveBar (s : State) (q b : Nat) (wait : Bool) : State × Bool :=
  let x := s.bar b
  let p := barPort q b
  if x.counted.contains p then
    (((s.setBar b { x with held := x.held ++ [p] }).setQue q { s.que q with wait := .held ((x.gen + 1) % 4) }), false)
  else
    let s := s.setBar b { x with counted := x.counted ++ [p], waiting := if wait then x.waiting ++ [p] else x.waiting }
    let s := if wait then s.setQue q { s.que q with wait := .bar x.gen } else s
    (s.sendArrival b, !wait)

/-- A signal message that cannot be delivered (R369). -/
def State.peerUndeliv (s : State) (q dst : Nat) : State :=
  let s := s.tick .cntSluDevCnt 2
  if (dst, s.epoch) ∈ s.slu.undeliv then s
  else
    let u := s.slu.undeliv.filter (fun x => x.1 != dst) ++ [(dst, s.epoch)]
    let s := { s with slu := { s.slu with undeliv := u } }
    s.event 0x0D05 q 0xFF (detailOf [(4, dst), (4, s.epoch)])

/-- The port that a queue's signal message to an endpoint leaves by: that of the route to its member, or that it is attached to. -/
def State.signalPort (s : State) (q dst : Nat) : Option Nat :=
  if dst % 8192 = s.device then (if bit dst 13 then some (bits dst 17 14) else none) else s.routePort (q / 32) (dst % 8192)
/-- The port that a signal message leaves by finds no credit of the request channel's 512 (R356, R392, Table 5.2). -/
def State.noCredit (s : State) (q dst : Nat) : Bool :=
  match s.signalPort q dst with
  | some b =>
    let x := s.brPort b
    x.step == 6 && decide (512 ≤ x.inUse 0 + (x.egress.filter (fun m => m.flags % 4 == 0)).length)
  | none => false

/-- A signal for a hub semaphore from a peer (R368); refused ones are counted. -/
def State.peerSignal (s : State) (flags id value : Nat) : State :=
  let x := s.sem id
  if 1024 ≤ id ∨ value = 0 ∨ 65535 < value ∨ 2 ≤ flags ∨ x.peerEn = false ∨ (flags = 1 ∧ x.peerDec = false) then s.tick .cntSluDevCnt 1
  else if flags = 1 then (s.semDec id value 1 0xFF).1
  else s.semAdd id value

/-- RSIG (R369): one signal message to the endpoint, which a port takes or which is not delivered. -/
def State.sendSignal (s : State) (q : Nat) (c : QCmd) : State :=
  let dst := c.arg % 2 ^ 32
  if dst = s.device then s.peerSignal c.flags c.id c.amount
  else
    let r := s.brRoute (q / 32) none { type := 5, flags := 0, dst := dst, src := s.device, body := sluiceBody 1 c.flags c.id c.amount 0, que := some q }
    if r.2 then r.1 else r.1.peerUndeliv q dst
/-- A signal message of a queue waits to be accepted by the link layer of its port (R369, R403). -/
def State.signalWaits (s : State) (q : Nat) : Bool := s.braid.ports.any (fun p => p.2.egress.any (fun m => m.que == some q))

/-- Executes the head command of a queue (Table 13.3); answers whether the queue goes on to its next. -/
def State.execHead (s : State) (q : Nat) (c : QCmd) : State × Bool :=
  if qcmdOk q c = false then (s.cmdErr q, false)
  else
    match c.op with
    | 1 => ((s.semAdd c.id c.amount).popQue q, true)
    | 2 =>
      let x := s.sem c.id
      if x.waiters.isEmpty ∧ c.amount ≤ x.count then ((s.setSem c.id { x with count := x.count - c.amount }).popQue q, true)
      else ((s.setSem c.id { x with waiters := x.waiters ++ [q] }).setQue q { s.que q with wait := .sem }, false)
    | 3 =>
      let r := s.semDec c.id c.amount 0 q
      if r.2 then (r.1.popQue q, true) else (r.1.setQue q { r.1.que q with halted := true }, false)
    | 4 => ((s.setSem c.id { s.sem c.id with count := c.amount }).popQue q, true)
    | 7 => if c.arg ≤ s.now then (s.popQue q, true) else (s.setQue q { s.que q with wait := .bt }, false)
    | 8 =>
      match s.stream? (q / 32) c.id with
      | some x =>
        if x.rearm.isSome then (s.setQue q { s.que q with wait := .rearm }, false)
        else (((s.rearm (q / 32) c.id c.arg c.amount).getD s).popQue q, true)
      | none => (s.popQue q, true)
    | 9 =>
      if s.noCredit q (c.arg % 2 ^ 32) then (s.setQue q { s.que q with wait := .credit }, false)
      else
        let n := s.sendSignal q c
        if n.signalWaits q then (n.setQue q { n.que q with wait := .link }, false) else (n.popQue q, true)
    | _ =>
      let b := barKey q c.id
      if bit (s.barMask b) (barPort q b) = false then (s.cmdErr q, false)
      else
        let r := s.arriveBar q b (c.op == 5)
        if r.2 then (r.1.popQue q, true) else (r.1, false)

/-- A queue runs until it stalls, halts, is held or is empty (R356); at most 256 commands stand in it. -/
def State.runQueue (s : State) (q : Nat) : Nat → State
  | 0 => s
  | n + 1 =>
    let x := s.que q
    match x.cmds with
    | [] => s
    | c :: _ =>
      if s.queEn q = false ∨ x.halted = true ∨ s.queHeld q = true ∨ x.wait ≠ .none then s
      else
        let r := s.execHead q c
        if r.2 then State.runQueue r.1 q n else r.1

/-- The head of a queue has been granted or released: it completes, and the queue goes on. -/
def State.goOn (s : State) (q : Nat) : State := (s.popQue q).runQueue q 256

/-- The head command that a queue would execute in this cycle. -/
def State.headNow (s : State) (q : Nat) : Option QCmd :=
  let x := s.que q
  if s.queEn q = false ∨ x.halted = true ∨ s.queHeld q = true ∨ x.wait ≠ .none then none else x.cmds.head?
/-- Queues execute their heads one after another; answers those that go on. -/
def State.execHeads (s : State) (hs : List (Nat × QCmd)) : State × List Nat :=
  hs.foldl (fun a x => let r := a.1.execHead x.1 x.2; (r.1, if r.2 then a.2 ++ [x.1] else a.2)) (s, [])
/-- One cycle of several queues, in ascending endpoint number, hub queues first (R359): every SSET, so that the one of the lowest endpoint stands; every SIG,
summed for each semaphore; every DEC; then the others, waits among them (R357). Answers the queues that go on. -/
def State.runRound (s : State) (qs : List Nat) : State × List Nat :=
  let hs := qs.filterMap (fun q => (s.headNow q).map (fun c => (q, c)))
  let of := fun (op : Nat) => hs.filter (fun x => x.2.op == op && qcmdOk x.1 x.2)
  let a := s.execHeads (of 4).reverse
  let sigs := of 1
  let s := ((sigs.map (fun x => x.2.id)).dedup).foldl (fun s i => s.semAdd i ((sigs.filter (fun x => x.2.id == i)).map (fun x => x.2.amount)).sum) a.1
  let s := sigs.foldl (fun s x => s.popQue x.1) s
  let b := s.execHeads (of 3)
  let c := b.1.execHeads (hs.filter (fun x => !((x.2.op == 1 || x.2.op == 3 || x.2.op == 4) && qcmdOk x.1 x.2)))
  (c.1, qs.filter (fun q => a.2.contains q || sigs.any (fun x => x.1 == q) || b.2.contains q || c.2.contains q))
/-- Several queues run on from one cycle, each by one command in a cycle (R353, R356). -/
def State.runTogether (s : State) (qs : List Nat) : Nat → State
  | 0 => s
  | n + 1 => if qs.isEmpty then s else let r := s.runRound qs; State.runTogether r.1 r.2 n
/-- Queues in ascending endpoint number. -/
def queueOrder (qs : List Nat) : List Nat := (List.range 128).filter (fun q => qs.contains q)
/-- The heads of several queues complete in one cycle, and the queues go on. -/
def State.goOnAll (s : State) (qs : List Nat) : State := (qs.foldl State.popQue s).runTogether (queueOrder qs) 256

/-- A control core gives a queue a command as its 16 bytes (R353, Table 13.2): each queue holds 256. -/
def State.give (s : State) (q : Nat) (b : List Byte) : State :=
  let x := s.que q
  if 128 ≤ q ∨ 256 ≤ x.cmds.length then s else (s.setQue q { x with cmds := x.cmds ++ [qcmdOfBytes b] }).runQueue q 256

/-- SIG (R356, R357). -/
def execQSig (q id amount flags arg : Nat) (s : State) : Out := s.gated <| .next (s.give q (QCmd.bytes { op := 1, flags := flags, id := id, amount := amount, arg := arg }))
/-- WAIT (R357). -/
def execQWait (q id amount flags arg : Nat) (s : State) : Out := s.gated <| .next (s.give q (QCmd.bytes { op := 2, flags := flags, id := id, amount := amount, arg := arg }))
/-- DEC (R358). -/
def execQDec (q id amount flags arg : Nat) (s : State) : Out := s.gated <| .next (s.give q (QCmd.bytes { op := 3, flags := flags, id := id, amount := amount, arg := arg }))
/-- SSET (R359). -/
def execQSset (q id amount flags arg : Nat) (s : State) : Out := s.gated <| .next (s.give q (QCmd.bytes { op := 4, flags := flags, id := id, amount := amount, arg := arg }))
/-- BAR (R360, R361). -/
def execQBar (q id amount flags arg : Nat) (s : State) : Out := s.gated <| .next (s.give q (QCmd.bytes { op := 5, flags := flags, id := id, amount := amount, arg := arg }))
/-- BARNW (R361). -/
def execQBarnw (q id amount flags arg : Nat) (s : State) : Out := s.gated <| .next (s.give q (QCmd.bytes { op := 6, flags := flags, id := id, amount := amount, arg := arg }))
/-- WAITBT (R356). -/
def execQWaitbt (q id amount flags arg : Nat) (s : State) : Out := s.gated <| .next (s.give q (QCmd.bytes { op := 7, flags := flags, id := id, amount := amount, arg := arg }))
/-- REARM (R356, R144). -/
def execQRearm (q id amount flags arg : Nat) (s : State) : Out := s.gated <| .next (s.give q (QCmd.bytes { op := 8, flags := flags, id := id, amount := amount, arg := arg }))
/-- RSIG (R369). -/
def execQRsig (q id amount flags arg : Nat) (s : State) : Out := s.gated <| .next (s.give q (QCmd.bytes { op := 9, flags := flags, id := id, amount := amount, arg := arg }))

/-- WAIT_GRANT (R357): the first waiter of a semaphore is granted once the count suffices; no wait is passed over. -/
def execWaitGrant (sem : Nat) (s : State) : Out := s.gated <|
  let x := s.sem sem
  match x.waiters with
  | [] => .next s
  | q :: ws =>
    let k := ((s.que q).cmds.headD {}).amount
    if x.count < k then .next s else .next ((s.setSem sem { x with count := x.count - k, waiters := ws }).goOn q)

/-- WAITBT_REACHED (R356). -/
def execWaitbtReached (q : Nat) (s : State) : Out := s.gated <|
  let x := s.que q
  if x.wait = .bt ∧ (x.cmds.headD {}).arg ≤ s.now then .next (s.goOn q) else .next s

/-- The release reaches every participant: those waiting in a BAR leave (R361). -/
def State.releaseBar (s : State) (b : Nat) : State :=
  let x := s.bar b
  let s := s.setBar b { x with releasing := true, waiting := [] }
  s.goOnAll (x.waiting.map (portQueue b))

/-- BARRIER_RELEASE (R361): every participant of the generation has been counted. -/
def execBarrierRelease (bar : Nat) (s : State) : Out := s.gated <|
  if s.allCounted bar = false ∨ (s.bar bar).releasing = true ∨ s.barDomain bar = true then .next s else .next (s.releaseBar bar)

/-- The held arrivals of queues are counted in the new generation (R362); those of a BARNW complete. -/
def State.countHeld (s : State) (b : Nat) (qs : List Nat) : State :=
  let r := qs.foldl (fun (a : State × List Nat) q =>
    let n := a.1.setQue q { a.1.que q with wait := .none }
    let r := n.arriveBar q b (((n.que q).cmds.headD {}).op == 5)
    (r.1, if r.2 then a.2 ++ [q] else a.2)) (s, [])
  r.1.goOnAll r.2

/-- BARRIER_FULL_RELEASE (R361, R362): every waiting participant has left; G advances, and the held arrivals are counted. -/
def execBarrierFullRelease (bar : Nat) (s : State) : Out := s.gated <|
  let x := s.bar bar
  if x.releasing = false ∨ !x.waiting.isEmpty then .next s
  else
    let g := (x.gen + 1) % 4
    let s := s.setBar bar { gen := g, msgs := x.msgs.filter (fun m => m.1 == g) }
    .next (s.countHeld bar (queueOrder (x.held.map (portQueue bar))))

/-- SLUICE_SIGNAL (R368): a signal message on a Braid port that is up. -/
def execSluiceSignal (port dev flags id value : Nat) (s : State) : Out := s.gated <|
  let _ := dev
  if (s.brPort port).step ≠ 6 then .next s else .next (s.peerSignal flags id value)

/-- SLUICE_ARRIVAL (R362, R366, R367): an arrival message of generation G is held once per device, one of G + 1 is held for later, any
other is discarded. -/
def execSluiceArrival (dev bar gen a : Nat) (s : State) : Out := s.gated <|
  let b := 160 + bar
  let x := s.bar b
  if 8 ≤ bar ∨ s.barDomain b = false then .next s
  else if gen ≠ x.gen ∧ gen ≠ (x.gen + 1) % 4 then
    let s := s.tick .cntSluBarGenErrCnt 0
    .next (s.event 0x0D02 (16 + bar) 0xFF (detailOf [(2, dev), (1, gen), (1, x.gen), (4, 0)]))
  else if x.msgs.any (fun m => m.1 == gen && m.2.1 == dev) then .next s
  else
    let s := s.setBar b { x with msgs := x.msgs ++ [(gen, dev, a)] }
    if a + s.fence < s.now then
      let s := s.tick .cntSluDevCnt 0
      .next (s.event 0x0D03 (16 + bar) 0xFF (detailOf [(2, dev), (6, a)]))
    else .next s

/-- DOMAIN_BARRIER_RELEASE (R366): messages of G from COUNT devices are held, and BT has reached the greatest A plus FENCE. -/
def execDomainBarrierRelease (k : Nat) (s : State) : Out := s.gated <|
  let b := 160 + k
  let x := s.bar b
  let ms := x.msgs.filter (fun m => m.1 == x.gen)
  let amax := (ms.map (fun m => m.2.2)).foldl max 0
  if s.barDomain b = false ∨ x.releasing = true ∨ ms.length < s.fld .sluDbarcfg k 0 14 1 ∨ s.now < amax + s.fence then
    .next s
  else .next (s.releaseBar b)

/-- SLU_DBAR_STALLED (R367): raised once for a generation, SLU_DBARWARN ticks after the local arrival was sent. -/
def execSluDbarStalled (k : Nat) (s : State) : Out := s.gated <|
  let b := 160 + k
  let x := s.bar b
  match x.sentAt with
  | none => .next s
  | some t =>
    if x.releasing = true ∨ x.stalled = true ∨ s.now < t + s.rd .sluDbarwarn k 0 then .next s
    else
      let s := s.setBar b { x with stalled := true }
      .next (s.event 0x0D04 (16 + k) 0xFF (detailOf [(1, x.gen), (2, (x.msgs.filter (fun m => m.1 == x.gen)).length), (5, 0)]))

/-- The count of a semaphore is written (R359): as by an SSET. -/
def State.writeCount (s : State) (i v : Nat) : State := s.setSem i { s.sem i with count := v % 65536 }

/-- SEM_COUNT_WRITE (R359). -/
def execSemCountWrite (sem value : Nat) (s : State) : Out := s.gated <| if 3072 ≤ sem then .next s else .next (s.writeCount sem value)

/-- A barrier mask takes a new value (R364): `none` where it is refused. Removed participants cease to count, and their commands complete. -/
def State.setMask (s : State) (b v : Nat) : Option State :=
  let old := s.barMask b
  let x := s.bar b
  let adds := (List.range 128).any (fun p => bit v p && !bit old p)
  if (adds = true ∧ !x.counted.isEmpty) ∨ (b < 160 ∧ 2 ≤ b / 16 ∧ 256 ≤ v) then none
  else
    let gone := (List.range 128).filter (fun p => bit old p && !bit v p)
    let out := fun (l : List Nat) => l.filter (fun p => !gone.contains p)
    let free := gone.filter (fun p => x.waiting.contains p || x.held.contains p)
    let s := { s with slu := { s.slu with masks := SMap.setD (fun _ => 0) s.slu.masks b v } }
    let s := s.setBar b { x with counted := out x.counted, waiting := out x.waiting, held := out x.held }
    some ((s.goOnAll (free.map (portQueue b))).sendArrival b)

/-- A word of a barrier mask is written (R364, Table 13.9): a device barrier's mask takes effect on word 3, and its
staging words return to 0 (R552). -/
def State.writeMask (s : State) (b word v : Nat) : Option State :=
  if b < 160 then (if word = 0 then s.setMask b v else none)
  else if 168 ≤ b ∨ 4 ≤ word then none
  else
    let st := s.slu.maskStage.put (4 * b + word) v
    if word = 3 then
      let s := { s with slu := { s.slu with maskStage := st.keep (fun k _ => k / 4 != b) } }
      s.setMask b (leNat ((List.range 4).flatMap (fun w => leBytes 4 (SMap.getD (fun _ => 0) st (4 * b + w)))))
    else some { s with slu := { s.slu with maskStage := st } }

/-- BARRIER_MASK_WRITE (R364). -/
def execBarrierMaskWrite (bar word value : Nat) (s : State) : Out := s.gated <| .next ((s.writeMask bar word value).getD s)

/-- SLU_DBARCFG is written (Table 13.9): refused while a generation is open; G becomes 0. The reserved bit 31 is ignored (R11). -/
def State.writeDbarcfg (s : State) (k v : Nat) : Option State :=
  let x := s.bar (160 + k)
  if !x.counted.isEmpty ∨ x.releasing = true ∨ x.msgs.any (fun m => m.1 == x.gen) ∨ (bit v 0 = true ∧ bits v 14 1 = 0) ∨ 8192 < bits v 14 1 ∨
      64 ≤ bits v 30 15 then none
  else some ((s.setBar (160 + k) {}).wr .sluDbarcfg k 0 (v % 2 ^ 31))

/-- DBARCFG_WRITE (R365, R375). -/
def execDbarcfgWrite (k value : Nat) (s : State) : Out := s.gated <| if 8 ≤ k then .next s else .next ((s.writeDbarcfg k value).getD s)

/-- The HOLD bit of a queue is written: a queue that is let go runs on. -/
def State.holdQueue (s : State) (q : Nat) (on : Bool) : State :=
  let s := s.wr .sluQctl q 0 (b2n on)
  if on then s else s.runQueue q 256
/-- A halted queue restarts at its head command. -/
def State.resumeQueue (s : State) (q : Nat) : State :=
  if (s.que q).halted then (s.setQue q { s.que q with halted := false }).runQueue q 256 else s
/-- A queue is emptied (R374). -/
def State.flushQueue (s : State) (q : Nat) : State :=
  let s := s.withdraw q
  s.setQue q { s.que q with cmds := [] }

/-- QUEUE_HOLD (Table 13.10). -/
def execQueueHold (q : Nat) (on : Bool) (s : State) : Out := s.gated <| if 128 ≤ q then .next s else .next (s.holdQueue q on)
/-- QUEUE_RESUME (Table 13.10). -/
def execQueueResume (q : Nat) (s : State) : Out := s.gated <| if 128 ≤ q then .next s else .next (s.resumeQueue q)
/-- QUEUE_FLUSH (R374). -/
def execQueueFlush (q : Nat) (s : State) : Out := s.gated <| if 128 ≤ q then .next s else .next (s.flushQueue q)

/-- Heads that wait for a pending re-arm or for Braid credit try again (R356); an RSIG whose message a link layer has accepted completes (R369). -/
def State.retryQueues (s : State) : State :=
  let of := fun (f : Nat × SlQueue → Bool) => (s.slu.queues.filter f).map Prod.fst
  let again := of (fun x => x.2.wait == .rearm || x.2.wait == .credit)
  let sent := of (fun x => x.2.wait == .link && !s.signalWaits x.1)
  let s := again.foldl (fun s q => s.setQue q { s.que q with wait := .none }) s
  (sent.foldl State.popQue s).runTogether (queueOrder (again ++ sent)) 256

/-- The streams and queues of a Backwater group (R370). -/
def State.groupTenant (s : State) (g : Nat) : Nat := if s.tenancy then g / 8 else 0
def State.groupStreams (s : State) (h g : Nat) : List (Nat × StreamSt) :=
  (s.hub h).streams.filter (fun x => decide (1 ≤ x.2.desc.kind) && decide (x.2.desc.kind ≤ 3) &&
    (if s.tenancy then 8 * x.2.tenant + x.2.desc.cascade else x.2.desc.cascade) == g)
def State.groupQueues (s : State) (h g : Nat) : List Nat :=
  ((List.range 32).map (32 * h + ·)).filter (fun q => s.queGroup q == g)

/-- Records that a RECORD or OPTIONAL stream could issue next: of its set, and of its replica (R145), where one is left to choose. -/
def State.readyFor (s : State) (h : Nat) (x : StreamSt) : List (Nat × RecEnt) :=
  (s.hub h).recs.filter (fun r =>
    let m := s.recSet r.2
    let takes := match s.replicaFor h r.2 x.desc.kind x.desc.cascade x.desc.stage x.ens with | some k => k == x.replica | none => true
    r.2.r.tenant == x.tenant && m.setId == x.setId && m.version == x.version && takes &&
    (if x.desc.kind = 1 then r.2.phase == .stage && r.2.stage == x.desc.stage && (s.recPipe r.2).cascade == x.desc.cascade
     else x.desc.kind == 2 && (optWaiting r.2 x.ens).isSome && !r.2.vec.isEmpty))
/-- Records of the stage before that wait for an entry of a RECORD stream's stage buffer (R150). -/
def State.waitBuffer (s : State) (h : Nat) (x : StreamSt) : Bool :=
  x.desc.kind == 1 && (s.hub h).recs.any (fun r => r.2.heldRet && r.2.r.tenant == x.tenant &&
    (s.recPipe r.2).cascade == x.desc.cascade && r.2.stage + 1 == x.desc.stage)

/-- The cause, by Table 5.7, for which a stream that runs or waits issues no element. DESIGN CHOICE (log 79): where an element is ready and none of the
others holds, the cause is the link; a stream in ABORTING counts STALL_ABORT; a task whose replica has fewer dies counts
STALL_CREDIT (R248); a record of a reserving cascade that finds no room in the next stage buffer waits for that entry, STALL_STAGEBUF (R150). -/
def State.stallCause (s : State) (h st : Nat) (x : StreamSt) : Nat :=
  let ready := s.readyFor h x
  let task := x.desc.kind == 1 || x.desc.kind == 2
  let blocks := match ready with | r :: _ => ceilDiv r.2.vec.length 256 | [] => 0
  let more := decide (x.elem < x.desc.count)
  let elem := if task then more && !ready.isEmpty else more && (x.desc.kind != 3 || s.spillNext h st x)
  let shut := match ready with | r :: _ => !s.replicaOk (s.recSet r.2) x.ens x.replica | [] => false
  let noRoom := match ready with
    | r :: _ => x.desc.kind == 1 && s.reserving x.tenant x.desc.cascade && !s.bufRoom h r.2 (x.desc.stage + 1)
    | [] => false
  let causes := [
    x.state == 2 && x.rearm.isNone,
    x.state == 3,
    x.desc.kind == 2 && !ready.isEmpty && s.mandatoryWaits h,
    task && decide (x.desc.maxInflight ≤ s.inflight h st),
    task && !ready.isEmpty && (shut || (groupDies x.desc.group).any (fun d => decide (x.desc.dieBlocks < s.shareUsed d h st + blocks))),
    false,
    !task && decide (512 ≤ s.engineReads h x.desc.engine),
    noRoom || s.waitBuffer h x]
  let k := causes.idxOf true
  if k < 8 then k else if elem then 5 else 8

/-- A stream holds work, and is blocked for a cause inside the device (R371, Table 5.7): STALL_REARM, STALL_INFLIGHT, STALL_CREDIT or
STALL_STAGEBUF. -/
def State.streamWork (s : State) (h st : Nat) (x : StreamSt) : Bool :=
  decide (0 < s.inflight h st) || !(s.readyFor h x).isEmpty || (x.desc.kind == 3 && x.state == 1 && s.spillNext h st x)
def State.streamBlocked (s : State) (h st : Nat) (x : StreamSt) : Bool :=
  (x.state == 1 || x.state == 2) && [0, 3, 4, 7].contains (s.stallCause h st x)

/-- A queue holds work, and is blocked (R371): halted and held queues hold none. -/
def State.queueWork (s : State) (q : Nat) : Bool :=
  let x := s.que q
  !x.cmds.isEmpty && !x.halted && !s.queHeld q
def State.queueBlocked (s : State) (q : Nat) : Bool :=
  let x := s.que q
  let c := x.cmds.headD {}
  match x.wait with
  | .sem => !(s.sem c.id).peerEn
  | .bar _ => !s.barDomain (barKey q c.id)
  | .held _ => !s.barDomain (barKey q c.id)
  | .rearm => true
  | _ => false

/-- At least one member holds work, and every one that does is blocked (R372). -/
def State.groupBlocked (s : State) (h g : Nat) : Bool :=
  let ss := (s.groupStreams h g).filter (fun x => s.streamWork h x.1 x.2)
  let qs := (s.groupQueues h g).filter s.queueWork
  !(ss.isEmpty && qs.isEmpty) && ss.all (fun x => s.streamBlocked h x.1 x.2) && qs.all s.queueBlocked
/-- A member is held under HOLD: the counter stands still. -/
def State.groupHeld (s : State) (h g : Nat) : Bool := (s.groupQueues h g).any s.queHeld
/-- The dies whose partials a stream still waits for, of mandatory and optional runs. -/
def State.partialsLeft (s : State) (h st : Nat) : Nat :=
  ((s.hub h).recs.map (fun r => ((r.2.run :: r.2.opts.map OptSt.run).filter (fun u => u.stream == st)).map (fun u => u.left.length))).flatten.sum
/-- Where the members of a group stand: elements issued, partials still to return, commands completed. -/
def State.groupSig (s : State) (h g : Nat) : List Nat :=
  (s.groupStreams h g).flatMap (fun x => [x.1, x.2.elem, s.partialsLeft h x.1]) ++
  (s.groupQueues h g).flatMap (fun q => [q, (s.que q).ended])

/-- One tick of a group's counter (R372): it advances by the hub cycles of the tick while members hold work and every one that does is blocked, starts again
from 0 as any member advances, and else stands still. -/
def State.bwTickGroup (s : State) (h g : Nat) : State :=
  let k := 32 * h + g
  let sig := s.groupSig h g
  if sig.isEmpty then s
  else
    let c := SMap.getD (fun _ => 0) s.slu.bw k
    let moved := decide (s.slu.bwSig.find? k ≠ some sig)
    let c' := if s.groupHeld h g then c else if moved then 0 else if s.groupBlocked h g then c + s.cyclesNow (8 + h) else c
    { s with slu := { s.slu with bw := SMap.setD (fun _ => 0) s.slu.bw k c', bwSig := s.slu.bwSig.put k sig } }
/-- One tick of every group's counter, where Backwater is enabled. -/
def State.bwTick (s : State) : State :=
  (List.range 2).foldl (fun s h =>
    if s.fld .bwCfg h 0 0 0 = 1 then (List.range 32).foldl (fun s g => s.bwTickGroup h g) s else s) s

/-- The youngest member that holds work (R372), as in BW_SNAP: a stream's number, or 512 + q. -/
def State.youngest (s : State) (h g : Nat) : Option Nat :=
  let ss := ((s.groupStreams h g).filter (fun x => s.streamWork h x.1 x.2)).map (fun x => (x.2.armed, x.1))
  let qs := ((s.groupQueues h g).filter s.queueWork).map (fun q => ((s.que q).armed, 512 + q % 32))
  ((ss ++ qs).foldl (fun b x => match b with
    | none => some x
    | some y => if y.1 < x.1 ∨ (y.1 = x.1 ∧ y.2 < x.2) then some x else some y) (none : Option (Nat × Nat))).map Prod.snd

/-- BW_DEADLOCK (R372): a group's counter has reached its threshold; its youngest member that holds work is ended. -/
def execBwDeadlock (hub group : Nat) (s : State) : Out := s.gated <|
  let k := 32 * hub + group
  if s.fld .bwCfg hub 0 0 0 = 0 ∨ SMap.getD (fun _ => 0) s.slu.bw k < 2 ^ s.fld .bwCfg hub 0 5 1 ∨ s.groupBlocked hub group = false then .next s
  else
    match s.youngest hub group with
    | none => .next s
    | some m =>
      let s := { s with slu := { s.slu with bw := SMap.setD (fun _ => 0) s.slu.bw k 0, snaps := s.slu.snaps.put hub (group + 32 * m + 2 ^ 15) } }
      let s := if m < 512 then s.abortTask hub m .backwater
        else
          let q := 32 * hub + (m - 512)
          let s := s.flushQueue q
          s.setQue q { s.que q with halted := true }
      let s := s.tick .cntBwAbortCnt hub
      let s := s.latch (some (s.groupTenant group)) attnDeadlock
      .next (s.event 0x0D07 hub (s.groupTenant group) (detailOf [(1, group), (2, m), (5, 0)]))

/-- An uncorrectable error in the Sluice state of a die (Table 18.2): the count becomes 0 with OVF and UNF set, and every queue that waits
on it is halted. -/
def State.semError (s : State) (i : Nat) : State :=
  let x := s.sem i
  let s := s.setSem i { x with count := 0, ovf := true, unf := true, waiters := [] }
  x.waiters.foldl (fun s q => s.cmdErr q) s

end Sys2Proof.Machine
end

