-- ==== Sys2Proof/Machine/Errors.lean ====
section
/-! DEFINITION. Errors that units detect (R482, Table 18.2): what each does to the work that touched the unit, and its count in the unit's fault
window (R483). -/

namespace Sys2Proof.Machine

/-- The counter beside a unit's fault window that a corrected error also advances (Tables 8.12, 9.12). -/
def State.sideCount (s : State) (u : Nat) : State :=
  match u / 4096 with
  | 1 => s.tick .cntTileCnt (u % 4096 * 8 + 7)
  | 2 => s.tick .cntMuCnt (u % 4096 * 5 + 4)
  | _ => s

/-- CORRECTABLE_ERROR (R482): the error is corrected where it is found and counted; it changes nothing else. A die-link flit that was retried once
counts only in the link's correctable counter (R18, Table 18.2). -/
def execCorrectableError (e : CorrError) (s : State) : Out := s.gated <|
  .next (if s.unitThere e.unit = false then s
    else if e.once ∧ e.unit / 4096 = 4 then s.tick .cntRelCnt (e.unit * 2)
    else (s.sideCount e.unit).countErr e.unit true)

/-- The tasks with a record in the Watersmeet entries of a die that an error hits (R301): of the record that `detail` names as 32,768 times its hub die
plus its entry; past that range the error is in the adders or the rule combiner, and all of the die. -/
def State.tasksInWatersmeet (s : State) (d detail : Nat) : List (Nat × Nat) :=
  if detail < 65536 then
    (s.die.recs.filter (fun r => r.die == d && r.held && r.hub == detail / 32768 && r.ent == detail % 32768)).map (fun r => (r.hub, r.stream))
  else s.tasksOnDie d (fun _ => true)

/-- The eight queues of a control core run again: the core is back, or it is lastingly faulty and the other cores of its hub die take their work
(R491; DESIGN CHOICE, log 86). -/
def State.rearmCore (s : State) (c : Nat) : State := (List.range 8).foldl (fun s i => s.resumeQueue (8 * c + i)) s

/-- An uncorrectable error stops a control core (R491): its eight queues are flushed and halted, and its firmware is reloaded. -/
def State.coreStop (s : State) (c : Nat) : State :=
  if (s.win (0x9000 + c)).lasting then s
  else
    let qs := (List.range 8).map (8 * c + ·)
    let n := (qs.map (fun q => (s.que q).cmds.length)).sum
    let s := qs.foldl (fun s q =>
      let s := s.flushQueue q
      s.setQue q { s.que q with halted := true }) s
    let u := SMap.getD (fun _ => {}) s.rel.cores c
    let s := { s with rel := { s.rel with cores := s.rel.cores.put c { u with resetting := true, failed := n } } }
    let s := s.countErr (0x9000 + c) false
    if (s.win (0x9000 + c)).lasting then s.rearmCore c else s

/-- REL_CORE_RESET (R491): a stopped core has reloaded its firmware, restarts and re-arms its queues. -/
def execRelCoreReset (core : Nat) (s : State) : Out := s.gated <|
  let u := SMap.getD (fun _ => {}) s.rel.cores core
  if u.resetting = false then .next s
  else
    let s := State.rearmCore { s with rel := { s.rel with cores := s.rel.cores.put core { u with resetting := false } } } core
    .next (s.event 0x1205 (0x9000 + core) 0xFF (detailOf [(2, u.failed), (2, 0), (4, s.epoch)]))

/-- A Distributary error hits an open settlement (R324): below 8, `detail` is the counter bank, twice the tenant plus the bank; from 8 on the
destination table of tenant `detail` less 8. -/
def State.settleHit (s : State) (detail : Nat) (x : Settlement) : Bool :=
  if detail < 8 then x.tenant == detail / 2 && s.origEpoch x.tenant x.epoch % 2 == detail % 2 else x.tenant + 8 == detail

/-- The effect and count of an uncorrectable error in a unit (Table 18.2). `detail` names what of the unit held it: the record of a Watersmeet
entry, the stream of a fetch engine, the bank or table of a Distributary, the request of an order queue, the semaphore of a die. -/
def State.uncorrectable (s : State) (u detail : Nat) : State :=
  let n := u % 4096
  match u / 4096 with
  | 1 => s.unitError u
  | 2 => s.unitError u
  | 3 =>
    let s := if detail < 65536 then s else s.endSearches 3 (fun _ x => x / 9 == n)
    (s.abortTasks (s.tasksInWatersmeet n detail) (.fault u)).countErr u false
  | 4 =>
    let tasks := s.tasksOnLink n
    ((s.linkSearches n).abortTasks tasks (.fault u)).countErr u false
  | 5 => (s.batchFault (n / 34) (n % 34)).countErr u false
  | 6 =>
    match s.stream? (n / 16) detail with
    | some x => (if x.desc.engine = n % 16 then s.abortTask (n / 16) detail (.fault u) else s).countErr u false
    | none => s.countErr u false
  | 7 => s.countErr u false
  | 8 => ((s.dist.open_.filter (fun x => !x.ended && s.settleHit detail x)).foldl (fun s x => s.settleFault x) s).countErr u false
  | 9 => s.coreStop n
  | 10 =>
    match (nth s.eddy.queues n [])[detail]? with
    | some x =>
      let s := { s with eddy := { s.eddy with queues := setNth s.eddy.queues n ((nth s.eddy.queues n []).erase x) } }
      (s.sendSnap x.q (snapEmpty x.q 4)).countErr u false
    | none => s.countErr u false
  | 13 => (if semDie detail = n ∧ detail < 3072 then s.semError detail else s).countErr u false
  | _ => s

/-- UNCORRECTABLE_ERROR (R482). A Braid port has none. -/
def execUncorrectableError (unit detail : Nat) (s : State) : Out := s.gated <|
  .next (if s.unitThere unit then s.uncorrectable unit detail else s)

end Sys2Proof.Machine
end

