-- ==== Sys2Proof/Machine/Braid.lean ====
section
/-! DEFINITION. Braid (chapter 14): bring-up and identity, messages that pass through or arrive, and multicast transfers with their credits, prunes
and repairs (R381 to R404). -/

namespace Sys2Proof.Machine

/-- The identity word that this device sends by a port (Table 14.3). -/
def State.identity (s : State) (b : Nat) : IdentWord :=
  let c := s.rd .braidCfg 0 0
  { role := 0, domain := bits c 28 13, device := s.device, port := b, dimX := bits c 4 0, dimY := bits c 8 5, dimZ := bits c 12 9 }

/-- The limit of a bring-up step in ticks (Table 14.2). -/
def bringupLimit (step : Nat) : Nat := nth [0, 2 ^ 20, 2 ^ 24, 2 ^ 20, 2 ^ 20, 2 ^ 16] step 0

/-- BRAID_BRINGUP_STEP_DONE (R381, R382): steps 1 to 3 go on, and with step 4 the port sends its identity word; step 4 is done by IDENTITY_WORD; after step
5 the port is up. A port that had
gone down counts one correctable error as it comes up again (Table 18.2). -/
def execBraidBringupStepDone (port : Nat) (s : State) : Out := s.gated <|
  let x := s.brPort port
  if 12 ≤ port ∨ x.step = 0 ∨ x.step = 4 ∨ 6 ≤ x.step ∨ s.sec.error = true then .next s
  else if x.step < 5 then
    let s := s.setBrPort port { x with step := x.step + 1, stepAt := s.now, failedStep := 0 }
    .next (if x.step = 3 then { s with braid := { s.braid with identOut := s.braid.identOut ++ [(port, s.identity port)] } } else s)
  else
    let s := s.brUp port
    let s := { s with time := { s.time with firstUp := some (s.time.firstUp.getD s.now) } }
    let u := port + 0xB000
    let s := if s.rel.testing.contains u then s.reinstated u 6 else s
    .next (if x.fell then s.countErr u true else s)

/-- BRAID_BRINGUP_TIMEOUT (R381): a step that has not been done within its limit sends the port back to step 1. -/
def execBraidBringupTimeout (port : Nat) (s : State) : Out := s.gated <|
  let x := s.brPort port
  if 12 ≤ port ∨ x.step = 0 ∨ 6 ≤ x.step ∨ s.now < x.stepAt + bringupLimit x.step then .next s else .next (s.brDown port x.step)

/-- An identity is one that the port's role, domain, dimensions and neighbour allow (R382). -/
def State.identityOk (s : State) (b : Nat) (w : IdentWord) : Bool :=
  let c := s.rd .braidCfg 0 0
  w.magic == 0x4249 && w.version == 1 && w.reserved == 0 &&
  (if s.fld .braidPortCfg b 0 2 1 = 0 then
    w.role == 0 && w.domain == bits c 28 13 && w.dimX == bits c 4 0 && w.dimY == bits c 8 5 && w.dimZ == bits c 12 9 &&
    w.device == s.neighbour b && w.port == portPeer b && w.endpoints == 0
  else w.role == 1 && decide (1 ≤ w.endpoints) && decide (w.endpoints ≤ 256))

/-- IDENTITY_WORD (R382): at step 4 the port goes on, or stops in the wiring state. -/
def execIdentityWord (port : Nat) (w : IdentWord) (s : State) : Out := s.gated <|
  let x := s.brPort port
  if 12 ≤ port ∨ x.step ≠ 4 then .next s
  else
    let x := { x with peerMember := w.role == 0, peerDevice := w.device % 8192, peerPort := w.port % 16, endpoints := w.endpoints % 512, failedStep := 0 }
    if s.identityOk port w then .next (s.setBrPort port { x with step := 5, stepAt := s.now })
    else
      let s := s.setBrPort port { x with step := 7, stepAt := s.now }
      .next ((s.event 0x0E02 port 0xFF (detailOf [(2, w.device), (1, w.port), (1, w.role), (2, w.domain), (2, 0)])).noteDegraded)

/-- FLIT_REPLAY (R383): after 8 replays of one flit the port goes down. The FEC codewords that the port has corrected and could not correct since
the last such command are counted with it (R405). -/
def execFlitReplay (e : FlitError) (s : State) : Out := s.gated <|
  let port := e.port
  let x := s.brPort port
  if 12 ≤ port ∨ x.step ≠ 6 then .next s
  else
    let s := ((s.tick .cntBraidPortCnt (port * 9 + 1)).count .cntBraidPortCnt (port * 9 + 2) e.corr).count .cntBraidPortCnt (port * 9 + 3) e.uncorr
    if x.replays + 1 < 8 then .next (s.setBrPort port { x with replays := x.replays + 1 }) else .next (s.brDown port 8)

/-- BRAID_PORT_DOWN (R383): 8 replays without success, or loss of lane lock, which is a failure of step 1. -/
def execBraidPortDown (port cause : Nat) (s : State) : Out := s.gated <|
  let x := s.brPort port
  if 12 ≤ port ∨ x.step = 0 ∨ 7 ≤ x.step then .next s else .next (s.brDown port (if cause = 8 then 8 else 1))

/-- Joins a number to those received: all below `x.1`, and those of `x.2`. -/
def rxJoin (n : Nat) (x : Nat × List Nat) : Nat × List Nat :=
  let l := x.2 ++ [n]
  let k := (List.range (l.length + 1)).takeWhile (fun i => decide (x.1 + i ∈ l))
  (x.1 + k.length, l.filter (fun i => decide (x.1 + k.length ≤ i)))
/-- The link of a port already holds a copy of a message (R383). -/
def State.linkHeld (s : State) (port : Nat) (m : BrMsg) : Bool :=
  let x := SMap.getD (fun _ => ((0, []) : Nat × List Nat)) s.braid.rxSeq (s.linkOf port)
  decide (m.seq < x.1) || x.2.contains m.seq
/-- A message has arrived whole: the flit error it may have ended is over, and its number is held (R383). -/
def State.linkTake (s : State) (port : Nat) (m : BrMsg) : State :=
  let k := s.linkOf port
  let s := s.setBrPort port { s.brPort port with replays := 0 }
  { s with braid := { s.braid with rxSeq := s.braid.rxSeq.put k (rxJoin m.seq (SMap.getD (fun _ => (0, [])) s.braid.rxSeq k)) } }

/-- What arrives whole at a port that is up: a copy of a message already held is discarded (R383); an envelope with a reserved value is discarded and
counted (R387). -/
def State.brTake (s : State) (port : Nat) (m : BrMsg) (f : State → State) : State :=
  if 12 ≤ port ∨ (s.brPort port).step ≠ 6 then s
  else if s.linkHeld port m then s.setBrPort port { s.brPort port with replays := 0 }
  else
    let s := s.linkTake port m
    if m.ok then f s else s.tick .cntBraidPortCnt (port * 9 + 4)

/-- The port number of Braid ingress (Table 4.3), and the tenant an attached port belongs to (R402, R475). -/
def braidNumber (b : Nat) : Nat := if b < 6 then b else b + 2
def State.attTenant (s : State) (b : Nat) : Nat := if s.tenancy then s.fld .braidPortCfg b 0 5 4 else 0

/-- Bytes 0x10 to 0x1F of a record header replaced by its order key (Table 4.4). -/
def keyedRecord (k : OrderKey) (b : List Byte) : List Byte := b.take 16 ++ orderKeyBytes k ++ b.drop 32

/-- A record that another member stamped arrives with its order key (R388). -/
def State.forwardedRecord (s : State) (port : Nat) (m : BrMsg) : State :=
  let base : Rec := { queue := 32 + port, tenant := m.tenant, dest := .braid port (m.src % 8192) m.src }
  let h := parseRecHead m.body
  let base := { base with key := replayKey h }
  match (splitRecords m.body 1).1 with
  | some b :: _ =>
    let h' := if h.cls = clsReplay then h else { h with origStamp := 0, origKey := 0, origPort := 0 }
    let hdr := if h.cls = clsReplay then b.take 32 else b.take 16 ++ List.replicate 16 0
    let r := { base with cls := h.cls, pipe := h.pipe, dig := bit h.flags 0, recId := h.recId, hdr := hdr, payload := b.drop 32 }
    s.takeIntake false (s.intake r h' .process)
  | _ => s.refuseRec base base.key.stamp rcMalformed 5

/-- A RECORD message (R388, R402): from an attached endpoint it is stamped and admitted here or forwarded; from another member it is one that
member stamped. -/
def State.braidRecord (s : State) (port : Nat) (m : BrMsg) (ago : Nat) : State :=
  let bad := s.tick .cntBraidPortCnt (port * 9 + 4)
  let here := decide (m.dst = s.device)
  if s.fld .braidPortCfg port 0 2 1 = 1 then
    if bit m.src 13 = false ∨ m.src % 8192 ≠ s.device ∨ bits m.src 17 14 ≠ port then bad
    else
      let t := s.attTenant port
      let base : Rec := { queue := 32 + port, tenant := t, dest := .braid port s.device m.src
                          key := { stamp := s.now - ago, dev := s.device, port := braidNumber port } }
      let b := match (splitRecords m.body 1).1 with | some b :: _ => some b | _ => none
      if here then s.takeRecord base false .process 0 b
      else
        let h := parseRecHead m.body
        if b.isNone ∨ (clsKnown h.cls = true ∧ s.classAllowed (32 + port) h.cls = false) then
          let q := s.nextSeq base.key.port
          let k := { base.key with seq := q.1 }
          let whole := b.getD []
          let r := { base with cls := h.cls, pipe := h.pipe, recId := if b.isNone then 0 else h.recId, key := k, hdr := whole.take 32, payload := whole.drop 32 }
          q.2.refuseRec r r.key.stamp (if b.isNone then rcMalformed else rcRefused) (if b.isNone then 5 else 1)
        else
          let q := s.nextSeq base.key.port
          let k := { base.key with seq := q.1 }
          (q.2.brRoute (port / 6) (some port) { m with tenant := t, body := if h.cls = clsReplay then m.body else keyedRecord k m.body }).1
  else if bit m.src 13 = false then bad
  else if here then s.forwardedRecord port m
  else (s.brRoute (port / 6) (some port) m).1

/-- A message whose unit is on this device has its own row; any other goes on its way. -/
def State.passOn (s : State) (port : Nat) (m : BrMsg) : State := if m.dst = s.device then s else (s.brRoute (port / 6) (some port) m).1

/-- BRAID_RECORD (R388, R391, R402): a message of the request channel arrives. A record for this device waits at the link while the admission
queue of its port is full. -/
def execBraidRecord (port : Nat) (m : BrMsg) (ago : Nat) (s : State) : Out := s.gated <|
  let full := decide (m.dst = s.device) && decide (s.queueCap (32 + port) ≤ qLen (s.queue (32 + port)))
  if m.type ≠ 1 ∧ m.type ≠ 3 ∧ m.type ≠ 5 ∧ m.ok = true then .next s
  else if m.type = 1 ∧ full = true ∧ m.ok = true then .next s
  else .next (s.brTake port m (fun s => if m.type = 1 then s.braidRecord port m ago else s.passOn port m))

/-- BRAID_REPLY (R388): a message of the response channel goes on towards its endpoint. -/
def execBraidReply (port : Nat) (m : BrMsg) (s : State) : Out := s.gated <|
  if m.type ≠ 2 ∧ m.type ≠ 4 ∧ m.ok = true then .next s else .next (s.brTake port m (fun s => s.passOn port m))

/-- CMDLIST (R322): a command list goes on towards its attached target. -/
def execCmdlist (port : Nat) (m : BrMsg) (s : State) : Out := s.gated <|
  if m.type ≠ 9 ∧ m.ok = true then .next s else .next (s.brTake port m (fun s => s.passOn port m))

/-- The bytes that a message takes in an egress queue. -/
def BrMsg.size (m : BrMsg) : Nat := 16 + (padTo 8 m.body).length
/-- The messages of an egress list that find the queue of 2 MiB full (R403): `used` bytes stand before them. -/
def foundFull (used : Nat) : List BrMsg → List BrMsg
  | [] => []
  | m :: l => if 2 ^ 21 < used + m.size then m :: foundFull used l else foundFull (used + m.size) l

/-- ATT_EGRESS_TIMEOUT (R403): the oldest command list, signal or repair request that has found the egress queue of an attached port full for TIMEOUT
ticks is discarded; the list or signal of this device that it carried is undeliverable (R323, R369). -/
def execAttEgressTimeout (port : Nat) (s : State) : Out := s.gated <|
  let x := s.brPort port
  let drop := fun (m : BrMsg) => (m.type == 5 || m.type == 8 || m.type == 9) && decide (m.since + s.rd .braidAtt 0 0 ≤ s.now)
  if s.fld .braidPortCfg port 0 2 1 ≠ 1 then .next s
  else
    match (foundFull 0 x.egress).find? drop with
    | none => .next s
    | some m =>
      let s := (s.setBrPort port { x with egress := x.egress.erase m }).attDrop port
      if m.type = 5 ∧ m.src = s.device then
        let s := s.peerUndeliv (m.que.getD 0xFFFF) m.dst
        match m.que with
        | some q => .next (if (s.que q).wait = .link then s.goOn q else s)
        | none => .next s
      else .next (s.lostList m)

/-- The devices that a tenant's transfer to a group reaches (R397): a group other than 0 is restricted to one tenant. -/
def State.groupFor (s : State) (g t : Nat) : List Nat :=
  if g ≠ 0 ∧ s.tenancy = true ∧ s.fld .braidMgroup (g - 1) 0 27 26 ≠ t then [] else s.groupDevs g

/-- The leg of a transfer's tree along one dimension (R398): the ports by which copies leave this device for the coordinates of the leg that
lie beyond it, those of this hub die, whether they are up or not. `ends` are the devices of the leg, `start` where it begins. -/
def State.legHops (s : State) (h sender start : Nat) (ends : List Nat) (k : Nat) : List Nat :=
  let here := s.device
  let n := s.torusLen k
  (ends.filter (fun d => d != start && d != here)).filterMap (fun d =>
    match s.hopFrom start sender d with
    | none => none
    | some w =>
      let steps := fun (d : Nat) => if w.2 then ringWay (coordOf start k) (coordOf d k) n else ringWay (coordOf d k) (coordOf start k) n
      if w.1 = k ∧ steps here < steps d then some (torusPort h w.1 w.2) else none)

/-- The child hops of this device in the tree of a transfer (R398): along x from the sender, then along y, then along z. -/
def State.treeHops (s : State) (h sender group tenant : Nat) : List Nat :=
  let ds := s.groupFor group tenant
  let c := s.device
  let x := coordOf c 0
  let y := coordOf c 1
  let z := coordOf c 2
  let ys := coordOf sender 1
  let zs := coordOf sender 2
  let at_ := fun (a b c : Nat) => a + 32 * b + 512 * c
  let xs := (ds.map (fun d => coordOf d 0)).dedup
  let yy := (ds.map (fun d => coordOf d 1)).dedup
  let zz := (ds.map (fun d => coordOf d 2)).dedup
  let legX := if y = ys ∧ z = zs then s.legHops h sender sender (xs.map (fun a => at_ a ys zs)) 0 else []
  let legY := if z = zs ∧ x ∈ xs then s.legHops h sender (at_ x ys zs) (yy.map (fun b => at_ x b zs)) 1 else []
  let legZ := if x ∈ xs ∧ y ∈ yy then s.legHops h sender (at_ x y zs) (zz.map (fun b => at_ x y b)) 2 else []
  (legX ++ legY ++ legZ).dedup

/-- A multicast message goes to the neighbour by a port (R389, R391, R398): by that port or its pair, whichever is up. With both down the neighbour is not
reached, and the message is discarded and counted (R393). DESIGN CHOICE (log 97): no copy goes the other way round the ring, since an envelope that
names a group says nothing of the neighbour it is for. -/
def State.mcSend (s : State) (b : Nat) (inPort : Option Nat) (m : BrMsg) : State :=
  match [b, portPair b].find? (fun p => (s.brPort p).step == 6) with
  | some p => s.brSend p (s.dateline p inPort m)
  | none => s.tick .cntBraidDevCnt 0

/-- A transfer held here, by sender and number. -/
def State.xfer? (s : State) (sender transfer : Nat) : Option McXfer :=
  s.braid.xfers.find? (fun x => x.sender == sender && x.transfer == transfer)
def State.putXfer (s : State) (x : McXfer) : State :=
  let same := fun (y : McXfer) => y.sender == x.sender && y.transfer == x.transfer
  { s with braid := { s.braid with xfers := if s.braid.xfers.any same then s.braid.xfers.map (fun y => if same y then x else y) else s.braid.xfers ++ [x] } }
def State.dropXfer (s : State) (sender transfer : Nat) : State :=
  { s with braid := { s.braid with xfers := s.braid.xfers.filter (fun y => !(y.sender == sender && y.transfer == transfer)) } }

/-- A chunk goes out to the child hops: a hop that had credited all before it begins to wait (R400). -/
def McXfer.goesOut (x : McXfer) (now n : Nat) : McXfer :=
  { x with sent := max x.sent n
           hopAt := (x.hops.filter (fun h => h.2 == some x.sent && decide (x.sent < n))).foldl (fun m h => m.put h.1 now) x.hopAt }

/-- Chunks in order from 0 that are all in a list. -/
def prefixOf (l : List Nat) : Nat → Nat → Nat
  | 0, n => n
  | f + 1, n => if n ∈ l then prefixOf l f (n + 1) else n

/-- The combined credit (R399): the least of the local delivery, in the group and not pruned, and of the child hops not pruned. -/
def McXfer.credit (x : McXfer) (local_ : Bool) : Nat :=
  let own := if local_ && !x.pruned then prefixOf x.done x.done.length 0 else x.sent
  ((x.hops.filterMap (fun h => h.2)).foldl min own)

/-- Sends the combined credit up the tree when it has risen (R399); the sender drops a transfer that every member in the set has credited and that no
device has asked to be repaired. Once one has, nothing tells the sender that the repair is complete, and it keeps the chunks until their retention
ends (R401; DESIGN CHOICE, log 98). -/
def State.creditUp (s : State) (x : McXfer) : State :=
  let c := x.credit ((s.groupFor x.group x.tenant).contains s.device)
  match x.up with
  | none =>
    if 0 < x.chunks ∧ x.chunks ≤ c ∧ x.sent = x.chunks ∧ x.askers.isEmpty = true then s.dropXfer x.sender x.transfer else s.putXfer x
  | some p =>
    if c ≤ x.credited then s.putXfer x
    else
      let s := s.putXfer { x with credited := c }
      let body := leBytes 2 x.group ++ leBytes 2 0 ++ leBytes 4 x.transfer ++ leBytes 4 (c - 1) ++ leBytes 4 0
      s.mcSend p none { type := 7, flags := 2, dst := x.sender, src := s.device, tenant := x.tenant, body := body }

/-- A chunk of a transfer as a message (Table 14.10). -/
def McXfer.message (x : McXfer) (device chunk : Nat) (rep : Option Nat) (bytes : List Byte) : BrMsg :=
  let last := decide (0 < x.chunks) && decide (chunk + 1 = x.chunks)
  let head := leBytes 2 x.group ++ leBytes 1 x.kind ++ leBytes 1 (b2n last + 2 * b2n rep.isSome) ++ leBytes 4 x.transfer ++ leBytes 4 chunk ++
    leBytes 4 x.chunks
  match rep with
  | some d => { type := 6, flags := 3, dst := d, src := device, tenant := x.tenant, body := head ++ bytes }
  | none => { type := 6, flags := 6, dst := x.group, src := device, tenant := x.tenant, body := head ++ bytes }

/-- Opens a transfer as its sender (R397): Headwater gives it chunks as it takes them. Answers the transfer's number. -/
def State.mcastOpen (s : State) (group kind tenant chunks : Nat) : State × Nat :=
  let n := s.braid.nextXfer
  let hops := s.treeHops 0 s.device group tenant
  let x : McXfer := { sender := s.device, transfer := n, group := group, kind := kind, tenant := tenant, chunks := chunks
                      hops := hops.foldl (fun m b => m.put b (some 0)) [], hopAt := hops.foldl (fun m b => m.put b s.now) [] }
  ({ s with braid := { s.braid with nextXfer := (n + 1) % 2 ^ 32, xfers := s.braid.xfers ++ [x] } }, n)

/-- Gives the sender's transfer its next chunk; devices that have asked for it are answered (R401). -/
def State.mcastGive (s : State) (transfer : Nat) (bytes : List Byte) : State :=
  match s.xfer? s.device transfer with
  | none => s
  | some x =>
    let k := x.held.length
    let x := { x with held := x.held.put k bytes, done := x.done ++ [k] }
    let mine := x.asks.filter (fun a => decide (a.2.1 ≤ k) && decide (k ≤ a.2.2))
    let x := { x with asks := x.asks.filter (fun a => decide (k < a.2.2)) }
    mine.foldl (fun s a => (s.brRoute 0 none (x.message s.device k (some a.1) bytes)).1) (s.putXfer x)

/-- Headwater has taken a multicast chunk (R399, R401): its credit rises; a device that now holds every chunk returns to the set. -/
def State.mcastTaken (s : State) (r : Rec) : State :=
  match s.xfer? r.key.dev r.reqSeq with
  | none => s
  | some x =>
    let x := { x with done := x.done ++ [r.key.seq], progress := s.now, repaired := if x.outOfSet then x.repaired + 1 else x.repaired }
    if x.outOfSet = true ∧ 0 < x.chunks ∧ x.done.length = x.chunks then
      let s := s.event 0x0E05 0xFFFF 0xFF (detailOf [(4, x.transfer), (4, x.repaired)])
      s.creditUp { x with outOfSet := false, repairing := false }
    else s.creditUp x

/-- Local delivery of a chunk (R399): one already held is ignored; its record waits for Headwater. -/
def State.mcastDeliver (s : State) (x : McXfer) (chunk : Nat) (bytes : List Byte) : State × McXfer :=
  if (x.held.find? chunk).isSome then (s, x)
  else
    let waiting := decide (x.done.length < x.held.length)
    let x := { x with held := x.held.put chunk bytes, progress := if waiting then x.progress else s.now, repairing := false }
    match (splitRecords bytes 1).1 with
    | some b :: _ =>
      let h := parseRecHead b
      let r : Rec := { queue := 64, tenant := x.tenant, cls := h.cls, pipe := h.pipe, recId := h.recId, hdr := b.take 32, payload := b.drop 32
                       reqSeq := x.transfer, key := { stamp := s.now, dev := x.sender, seq := chunk }, dest := .braid 0 x.sender x.sender }
      if h.cls = (if x.kind = 1 then clsModel else clsControl) then ({ s with head := { s.head with records := s.head.records ++ [r] } }, x) else (s, x)
    | _ => (s, x)

/-- A chunk arrives (R398 to R401): it is copied to the child hops and to local delivery; a repair copy only to the device it is for. -/
def State.mcastChunk (s : State) (port : Nat) (m : BrMsg) : State :=
  let b := m.body
  let group := leAt b 0 2
  let kind := leAt b 2 1
  let flags := leAt b 3 1
  let chunk := leAt b 8 4
  let sender := m.src % 8192
  let rep := !bit m.flags 2
  if b.length < 16 ∨ 64 ≤ group ∨ kind < 1 ∨ 2 < kind ∨ 4 ≤ flags ∨ bit m.src 13 = true ∨ rep ≠ bit flags 1 then s.tick .cntBraidPortCnt (port * 9 + 4)
  else if sender = s.device then s
  else
    let h := port / 6
    let x := match s.xfer? sender (leAt b 4 4) with
      | some x => x
      | none =>
        let hops := s.treeHops h sender group m.tenant
        { sender := sender, transfer := leAt b 4 4, group := group, kind := kind, tenant := m.tenant, up := some port
          hops := hops.foldl (fun m b => m.put b (some 0)) [], hopAt := hops.foldl (fun m b => m.put b s.now) [] }
    let known := if leAt b 12 4 ≠ 0 then leAt b 12 4 else if bit flags 0 then chunk + 1 else x.chunks
    let x := { x with chunks := known, lastRx := s.now }
    let mine := (s.groupFor group x.tenant).contains s.device
    if rep then
      let d := if mine then s.mcastDeliver x chunk (b.drop 16) else (s, x)
      d.1.putXfer d.2
    else
      let x := x.goesOut s.now (chunk + 1)
      let s := (x.hops.filter (fun y => y.2.isSome)).foldl (fun s y => s.mcSend y.1 (some port) m) s
      let d := if mine && !x.pruned then s.mcastDeliver x chunk (b.drop 16) else (s, x)
      d.1.creditUp d.2

/-- MCAST (R398): a chunk, or a repair copy on its way to the device that asked for it. -/
def execMcast (port : Nat) (m : BrMsg) (s : State) : Out := s.gated <|
  if m.type ≠ 6 ∧ m.ok = true then .next s
  else .next (s.brTake port m (fun s =>
    if bit m.flags 2 = false ∧ m.dst ≠ s.device then (s.brRoute (port / 6) (some port) m).1 else s.mcastChunk port m))

/-- MCAST_CREDIT (R399): the credit of the child hop in whose direction it arrives. -/
def execMcastCredit (port : Nat) (m : BrMsg) (s : State) : Out := s.gated <|
  if m.type ≠ 7 ∧ m.ok = true then .next s
  else .next (s.brTake port m (fun s =>
    match s.xfer? (m.dst % 8192) (leAt m.body 4 4) with
    | none => s
    | some x =>
      match List.find? (fun (y : Nat × Option Nat) => decide (y.1 % 6 = port % 6)) x.hops with
      | some (k, some c) =>
        let n := leAt m.body 8 4 + 1
        if n ≤ c then s else s.creditUp { x with hops := x.hops.put k (some n), hopAt := x.hopAt.put k s.now }
      | _ => s))

/-- MCAST_CHUNK_SEND (R399): the sender's next chunk leaves when the combined credit has reached the chunk WINDOW before it. -/
def execMcastChunkSend (xfer : Nat) (s : State) : Out := s.gated <|
  match s.xfer? s.device xfer with
  | none => .next s
  | some x =>
    match x.held.find? x.sent with
    | none => .next s
    | some bytes =>
      let c := x.credit ((s.groupFor x.group x.tenant).contains s.device)
      if c + s.fld .braidMcast 0 0 31 24 ≤ x.sent then .next s
      else
        let m := x.message s.device x.sent none bytes
        let s := (x.hops.filter (fun y => y.2.isSome)).foldl (fun s y => s.mcSend y.1 none m) s
        .next (s.creditUp { x.goesOut s.now (x.sent + 1) with lastSent := s.now })

/-- MCAST_PRUNE (R400): hop 12 is the local delivery; any other a child hop. The waiting chunks of a pruned delivery are dropped. -/
def execMcastPrune (xfer hop : Nat) (s : State) : Out := s.gated <|
  match s.braid.xfers[xfer]? with
  | none => .next s
  | some x =>
    let timeout := s.fld .braidMcast 0 0 23 0
    if hop = 12 then
      if x.pruned = true ∨ x.sender = s.device ∨ x.held.length ≤ x.done.length ∨ s.now < x.progress + timeout then .next s
      else
        let mine := fun (r : Rec) => r.queue == 64 && r.key.dev == x.sender && r.reqSeq == x.transfer
        let s := { s with head := { s.head with records := s.head.records.filter (fun r => !mine r) } }
        let s := s.tick .cntBraidDevCnt 2
        let s := s.latch none attnMcastPruned
        let s := s.event 0x0E04 0xFFFF 0xFF (detailOf [(2, x.group), (2, 0), (4, x.transfer)])
        .next (s.creditUp { x with pruned := true, outOfSet := true, held := x.held.keep (fun k _ => x.done.contains k) })
    else
      match x.hops.find? hop with
      | some (some c) =>
        if x.sent ≤ c ∨ s.now < SMap.getD (fun _ => 0) x.hopAt hop + 2 * timeout then .next s
        else .next ((s.tick .cntBraidDevCnt 2).creditUp { x with hops := x.hops.put hop none })
      | _ => .next s

/-- MCAST_OUT_OF_SET (R400): some chunk has come, and for twice TIMEOUT neither the last nor any later one. -/
def execMcastOutOfSet (xfer : Nat) (s : State) : Out := s.gated <|
  match s.braid.xfers[xfer]? with
  | none => .next s
  | some x =>
    let mine := (s.groupFor x.group x.tenant).contains s.device
    let all := decide (0 < x.chunks) && decide (x.sent = x.chunks)
    if mine = false ∨ x.sender = s.device ∨ x.outOfSet = true ∨ all = true ∨ x.sent = 0 ∨ s.now < x.lastRx + 2 * s.fld .braidMcast 0 0 23 0 then .next s
    else .next (s.putXfer { x with outOfSet := true })

/-- The ranges of chunks below `n` that are not held, as (first, last). -/
def missingRanges (held : List Nat) : List Nat → List (Nat × Nat)
  | [] => []
  | k :: ks =>
    let r := missingRanges held ks
    if k ∈ held then r
    else match r with
      | (a, b) :: l => if a = k + 1 then (k, b) :: l else (k, k) :: r
      | [] => [(k, k)]

/-- MCAST_REPAIR_SEND (R401): an out-of-set device whose receive buffer has drained asks the sender for each range it lacks, once for each time that it
drains. -/
def execMcastRepairSend (xfer : Nat) (s : State) : Out := s.gated <|
  match s.braid.xfers[xfer]? with
  | none => .next s
  | some x =>
    let n := max x.chunks x.sent
    if x.outOfSet = false ∨ x.repairing = true ∨ s.head.records.any (fun r => r.queue == 64) then .next s
    else
      let s := s.putXfer { x with repairing := true }
      .next ((missingRanges (x.held.map (fun h => h.1)) (List.range n)).foldl (fun s r =>
        (s.brRoute 0 none { type := 8, flags := 3, dst := x.sender, src := s.device, tenant := x.tenant
                            body := leBytes 4 x.transfer ++ leBytes 4 r.1 ++ leBytes 4 r.2 ++ leBytes 4 0 }).1) s)

/-- REPAIR_REQ (R401): the sender answers with the copies it holds; of a transfer it no longer holds the request is discarded. -/
def State.repairReq (s : State) (m : BrMsg) : State :=
  let first := leAt m.body 4 4
  let last := leAt m.body 8 4
  match s.xfer? s.device (leAt m.body 0 4) with
  | none => s
  | some x =>
    let have_ := x.held.filter (fun h => decide (first ≤ h.1) && decide (h.1 ≤ last))
    let x := { x with askers := if m.src ∈ x.askers then x.askers else x.askers ++ [m.src] }
    let x := if x.held.length ≤ last then { x with asks := x.asks ++ [(m.src, first, last)] } else x
    have_.foldl (fun s h => (s.brRoute 0 none (x.message s.device h.1 (some m.src) h.2)).1) (s.putXfer x)

/-- REPAIR_REQ (R401). -/
def execRepairReq (port : Nat) (m : BrMsg) (s : State) : Out := s.gated <|
  if m.type ≠ 8 ∧ m.ok = true then .next s
  else .next (s.brTake port m (fun s => if m.dst = s.device then s.repairReq m else s.passOn port m))

/-- MCAST_RETENTION_EXPIRY (R401): 2^32 ticks after the last chunk was sent the sender drops the transfer's chunks. -/
def execMcastRetentionExpiry (xfer : Nat) (s : State) : Out := s.gated <|
  match s.xfer? s.device xfer with
  | none => .next s
  | some x => if 0 < x.chunks ∧ x.sent = x.chunks ∧ x.lastSent + 2 ^ 32 ≤ s.now then .next (s.dropXfer s.device xfer) else .next s

end Sys2Proof.Machine
end

