-- ==== Sys2Proof/Machine/Power.lean ====
section
/-! DEFINITION. Supplies, reference clocks, tile clocks, temperatures and the power cap (chapter 19). Domain and die n < 8 are VCn and SDn; 8 and 9
are HD0 and HD1. -/

namespace Sys2Proof.Machine

/-- The voltage of a code in mV, and the thresholds of a setpoint: 94% and 88% of it, rounded down (R507, R508). -/
def codeMv (k : Nat) : Nat := 500 + 5 * k
def warnMv (k : Nat) : Nat := codeMv k * 94 / 100
def rstMv (k : Nat) : Nat := codeMv k * 88 / 100

/-- A field of PWR_VCFGn as it stands, and the islands' clock setting (R515). -/
def State.vmin (s : State) (d : Nat) : Nat := s.fld .pwrVcfg d 0 14 8
def State.vmax (s : State) (d : Nat) : Nat := s.fld .pwrVcfg d 0 22 16
def State.avsOn (s : State) (d : Nat) : Bool := s.fld .pwrVcfg d 0 23 23 == 1
def State.tileMhz (s : State) : Nat := s.fld .pwrClkCfg 0 0 11 0
def State.tileMax (s : State) : Nat := s.fld .pwrClkCfg 0 0 24 13
def State.adaptive (s : State) : Bool := !s.lockstep && s.fld .pwrClkCfg 0 0 12 12 == 1

/-- A setpoint is commanded (R508): thresholds fall at once, and rise when the voltage is reached. -/
def State.setpoint (s : State) (d k : Nat) : State :=
  let x := s.sup d
  if x.setpoint < k then s.setSup d { x with setpoint := k, raisedAt := some s.now }
  else if k < x.setpoint then s.setSup d { x with setpoint := k, raisedAt := none, vwarn := warnMv k, vrst := rstMv k }
  else s

/-- A setpoint is asked for (R508, R523, R524): it is commanded once the domain is above VWARN, and a fall once its die's clock is one that it supports;
until then it waits. -/
def State.askSetpoint (s : State) (d k : Nat) : State :=
  let x := s.sup d
  if x.warn = true ∨ (k < x.setpoint ∧ k < Config.clockNeeds d (s.islandMhz d)) then s.setSup d { x with goal := some k }
  else State.setpoint (s.setSup d { x with goal := none }) d k
/-- The setpoints that wait are asked for again. -/
def State.goalsDue (s : State) : State :=
  (List.range 10).foldl (fun s d => match (s.sup d).goal with | some k => s.askSetpoint d k | none => s) s
/-- A clock of a die may take this value: a rise that needs a setpoint which is not yet reached waits until the thresholds have moved (R508). -/
def State.clockFits (s : State) (d mhz : Nat) : Bool :=
  decide (mhz ≤ (s.heat d).mhz) || (s.sup d).raisedAt.isNone || decide (warnMv (Config.clockNeeds d mhz) ≤ (s.sup d).vwarn)

/-- PWR_VCFGn takes effect: without adaptive voltage the domain is held at VSET; with it the setpoint stays within the bounds (R507). -/
def State.putVcfg (s : State) (d v : Nat) : State :=
  let was := s.avsOn d
  let s := s.wr .pwrVcfg d 0 v
  if s.avsOn d && was then s.askSetpoint d (max (s.vmin d) (min (s.vmax d) (s.sup d).setpoint)) else s.askSetpoint d (v % 128)

/-- Islands run at TILE_MHZ unless adaptive, and an adaptive one at least at it while no die is at Throttle (R515); a rise may have to wait (R508), and
a setpoint that waited for a clock to come down is asked for again. DEDUCED (log 113): the floor of TILE_MHZ holds at once where the steps of R515 would
reach it later; while a domain is stretched an adaptive clock does not rise (R524). -/
def State.pinClocks (s : State) : State :=
  let hot := s.power.dies.any (fun x => decide (1 ≤ x.stage))
  let goal := fun (x : DieHeat) =>
    if s.adaptive = false then s.tileMhz else if hot then min x.mhz s.tileMax else max s.tileMhz (min x.mhz s.tileMax)
  let s := (List.range 8).foldl (fun s d =>
    let x := s.heat d
    let waits := s.clockFits d (goal x) == false || (s.adaptive && (s.sup d).stretched && decide (x.mhz < goal x))
    s.setHeat d { x with mhz := if waits then x.mhz else goal x, lowered := s.adaptive && x.lowered }) s
  s.goalsDue

/-- PWR_CLK_CFG takes effect. -/
def State.putClkCfg (s : State) (v : Nat) : State := (s.wr .pwrClkCfg 0 0 v).pinClocks

/-- A write of PWR_VCFGn (d < 10) or PWR_CLK_CFG (10) waits for the stretch of the domain, or of any scoring die, to end, be it of a supply, of a
timing emergency or of 105 °C (R524). -/
def State.writeWaits (s : State) (d : Nat) : Bool :=
  if d < 10 then s.stretchLog2 d != 0 else (List.range 8).any (fun n => s.stretchLog2 n != 0)
def State.putPower (s : State) (d v : Nat) : State := if d < 10 then s.putVcfg d v else s.putClkCfg v
def State.powerWrite (s : State) (d v : Nat) : State :=
  if s.writeWaits d then { s with power := { s.power with held := s.power.held.filter (fun x => x.1 ≠ d) ++ [(d, v)] } }
  else s.putPower d v

/-- The held writes whose stretch has ended take effect (R523, R524). -/
def State.releaseHeld (s : State) : State :=
  let go := s.power.held.filter (fun x => !s.writeWaits x.1)
  let s := { s with power := { s.power with held := s.power.held.filter (fun x => s.writeWaits x.1) } }
  go.foldl (fun s x => s.putPower x.1 x.2) s

/-- AVS_CURRENT_READ (R505): the last current read, in A. -/
def execAvsCurrentRead (domain cur : Nat) (s : State) : Out := s.gated <|
  .next (s.setSup domain { s.sup domain with imeas := cur })

/-- ADAPTIVE_VOLTAGE_STEP (R507, R508, R524): no step is added to one that waits. -/
def execAdaptiveVoltageStep (domain : Nat) (margin : Int) (s : State) : Out := s.gated <|
  let x := s.sup domain
  let soon : Bool := match x.lastStep with | some t => decide (s.now < t + 4096) | none => false
  if 10 ≤ domain ∨ s.avsOn domain = false ∨ x.goal.isSome = true ∨ soon then .next s
  else
    let k := x.setpoint
    let go := fun (n : Nat) =>
      let s := s.askSetpoint domain n
      s.setSup domain { s.sup domain with lastStep := some s.now }
    if 8 ≤ margin ∧ s.vmin domain < k then .next (go (k - 1))
    else if margin < 4 ∧ k < s.vmax domain then .next (go (k + 1))
    else .next s

/-- SETPOINT_REACHED (R508): the stage reports the voltage, or 20 µs have passed; a clock whose rise waited for that rises. -/
def execSetpointReached (domain : Nat) (reported : Bool) (s : State) : Out := s.gated <|
  let x := s.sup domain
  match x.raisedAt with
  | none => .next s
  | some t =>
    if reported || decide (t + 20000 ≤ s.now) then
      .next (s.setSup domain { x with raisedAt := none, vwarn := warnMv x.setpoint, vrst := rstMv x.setpoint }).pinClocks
    else .next s

/-- VWARN_CROSSING (R509). -/
def execVwarnCrossing (domain mv : Nat) (s : State) : Out := s.gated <|
  let x := s.sup domain
  if 10 ≤ domain ∨ x.vwarn ≤ mv then .next s
  else
    let s := s.setSup domain { x with warn := true, crossAt := s.now }
    let s := s.latch none attnSupply
    let s := s.tick .cntPwrWarnCnt domain
    .next (s.event 0x1300 domain 0xFF (detailOf [(4, x.setpoint), (4, s.now % 2 ^ 32)]))

/-- STRETCH_RELEASE (R509, R516): the supply has stayed above VWARN, or the margin at 4% or more, for RELEASE ticks; each stretch ends under its
own rule. `above` and `ok` say for how many ticks. -/
def execStretchRelease (domain mv above : Nat) (margin : Int) (ok : Nat) (s : State) : Out := s.gated <|
  let x := s.sup domain
  let n := s.fld .pwrDroop 0 0 9 2
  let endWarn := decide (x.vwarn ≤ mv) && decide (n ≤ above) && decide (x.crossAt + above ≤ s.now)
  let endTiming := decide (4 ≤ margin) && decide (n ≤ ok) && decide (x.timingAt + ok ≤ s.now)
  .next (s.setSup domain { x with warn := x.warn && !endWarn, timing := x.timing && !endTiming }).releaseHeld.goalsDue

/-- VRST_CROSSING (R510): a warm reset; PWR_SUPPLY_RESET waits for boot step 9. -/
def execVrstCrossing (domain mv : Nat) (s : State) : Out := s.gated <|
  let x := s.sup domain
  if 10 ≤ domain ∨ x.vrst ≤ mv then .next s
  else
    let n := s.warmReset 11 domain
    .next { n with power := { n.power with boot9 := n.power.boot9 ++ [(0x1301, domain, x.setpoint)] } }

/-- PWR_REG_FAULT (R511): `cause` is the PMBus STATUS_WORD. -/
def execPwrRegFault (domain cause : Nat) (s : State) : Out :=
  .next (s.event 0x1302 domain 0xFF (detailOf [(2, cause), (6, 0)]))

/-- SUPPLY_RANGE_TIMEOUT (R511): the boot stops at step 1. -/
def execSupplyRangeTimeout (domain : Nat) (s : State) : Out := s.gated <|
  if s.head.step ≠ 1 then .next s
  else .next { s with head := { s.head with dead := true }, power := { s.power with bootFail := domain + 1 } }

/-- The selected reference changes (R514). -/
def State.refTo (s : State) (red : Bool) : State :=
  let s := { s with power := { s.power with ref := { s.power.ref with red := red } } }
  s.event 0x1303 0xFFFF 0xFF (b2n red)

/-- REF_INPUT_LOST (R514). -/
def execRefInputLost (red : Bool) (s : State) : Out :=
  let f := s.power.ref
  if (if red then f.redOk else f.mainOk) = false then .next s
  else
    let f := if red then { f with redOk := false } else { f with mainOk := false, mainLost := s.now }
    let f := if f.redOk || f.mainOk then f else { f with lostAt := some s.now }
    let s := { s with power := { s.power with ref := f } }
    if f.red = red ∧ (if red then f.mainOk else f.redOk) then .next (s.refTo (!red)) else .next s

/-- REF_REVERT (R514): the main input has been good for `good` ticks, and so is good. The device returns to it where the selected input is lost, or
where it may: with REVERT 1, after 2^24 ticks. -/
def execRefRevert (good : Nat) (s : State) : Out :=
  let f := s.power.ref
  if good = 0 ∨ s.now < f.mainLost + good then .next s
  else
    let n := { s with power := { s.power with ref := { f with mainOk := true, lostAt := none } } }
    if f.red = true ∧ (f.redOk = false ∨ (s.fld .pwrRef 0 0 3 3 = 1 ∧ 2 ^ 24 ≤ good)) then .next (n.refTo false) else .next n

/-- REF_HOLD_EXPIRY (R514): both inputs have been lost for 2^20 ticks. -/
def execRefHoldExpiry (s : State) : Out :=
  match s.power.ref.lostAt with
  | none => .next s
  | some t =>
    if s.now < t + 2 ^ 20 then .next s
    else
      let n := s.warmReset 12 0
      .next { n with power := { n.power with ref := { n.power.ref with lostAt := none } } }

/-- ADAPTIVE_CLOCK_STEP (R515, R524): `limit` is the highest clock that the island's monitor passes at the current setpoint. -/
def execAdaptiveClockStep (die limit : Nat) (s : State) : Out := s.gated <|
  let x := s.heat die
  let soon : Bool := match x.lastClk with | some t => decide (s.now < t + 4096) | none => false
  if 8 ≤ die ∨ s.adaptive = false ∨ soon then .next s
  else
    let hot := s.power.dies.any (fun y => decide (1 ≤ y.stage))
    let top := min s.tileMax limit / 25 * 25
    let goal := if hot then top else max s.tileMhz top
    let up := min goal (x.mhz + 25)
    if x.mhz < goal ∧ x.stage = 0 ∧ (s.sup die).stretched = false then
      .next (if s.clockFits die up then s.setHeat die { x with mhz := up, lastClk := some s.now } else s)
    else if goal < x.mhz ∧ 800 < x.mhz then
      .next (s.setHeat die { x with mhz := max (max goal 800) (x.mhz - 25), lastClk := some s.now }).goalsDue
    else .next s

/-- TIMING_EMERGENCY (R516). -/
def execTimingEmergency (domain : Nat) (margin : Int) (s : State) : Out := s.gated <|
  let x := s.sup domain
  if 10 ≤ domain ∨ s.adaptive ∨ 2 ≤ margin ∨ x.setpoint ≠ s.vmax domain ∨ x.timing then .next s
  else
    let s := s.setSup domain { x with timing := true, timingAt := s.now }
    .next (s.event 0x1304 domain 0xFF (detailOf [(4, wrapI 8 margin), (4, s.epoch)]))

/-- A die or a stack trips (R519): a cold reset with cause 5 that holds, with core power removed. -/
def State.tripAt (s : State) (unit : Nat) (temp : Int) : State :=
  let n := s.coldReset 5 unit
  let p := { n.pins with coreEn := false, thermTripN := false, held := true, warmHeld := false }
  { n with power := { n.power with trip := some (unit, temp) }, pins := p }

/-- The stage that a reading selects (Table 19.4). -/
def heatStage (was : Nat) (temp : Int) : Nat :=
  if 105 ≤ temp ∨ (was = 2 ∧ 103 ≤ temp) then 2
  else if 100 ≤ temp ∨ (1 ≤ was ∧ 97 ≤ temp) then 1
  else 0

/-- THERMAL_READING (R517, R539): the hottest diode of the die; a die whose diodes have all failed is at the Limit stage. -/
def execThermalReading (die : Nat) (s : State) : Out := s.gatedCold <|
  let ds := SMap.getD (fun _ => []) s.mgmt.gauge die
  if 10 ≤ die ∨ ds = [] then .next s
  else
    let x := s.heat die
    let ok := ds.filterMap id
    let temp := if ok = [] then x.temp else ok.foldl max (ok.headD 0)
    if ok ≠ [] ∧ 115 ≤ temp then .next ((s.setHeat die { x with temp := temp }).tripAt die temp)
    else
      let g := if ok = [] then 2 else heatStage x.stage temp
      let low := s.adaptive && decide (die < 8) && (ok.isEmpty || decide (100 ≤ temp)) && decide (800 < x.mhz)
      let y := { x with stage := g, temp := temp, mhz := if low then max 800 (x.mhz - 25) else x.mhz
                        lowered := decide (1 ≤ g) && (x.lowered || low) }
      let s := (s.setHeat die y).releaseHeld.pinClocks
      if g = x.stage then .next s
      else .next (s.event 0x1305 die 0xFF (detailOf [(1, g), (1, wrapI 8 temp), (2, 0), (4, s.epoch)]))

/-- STACK_TEMPERATURE_REPORT (R518): `hot` limits the stack to 75% of its pin time. -/
def execStackTemperatureReport (stack temp : Nat) (s : State) : Out := s.gatedCold <|
  if 12 ≤ stack then .next s
  else
    let x := nth s.mem.stk stack {}
    if 105 ≤ temp then
      let s := { s with mem := { s.mem with stk := setNth s.mem.stk stack { x with temp := temp } } }
      .next (s.tripAt (0x10 + stack) temp)
    else
      let hot := decide (95 ≤ temp) || (x.hot && decide (92 ≤ temp))
      let s := { s with mem := { s.mem with stk := setNth s.mem.stk stack { x with temp := temp, hot := hot } } }
      if hot = x.hot then .next s
      else .next (s.event 0x1305 (0x10 + stack) 0xFF (detailOf [(1, b2n hot), (1, temp), (2, 0), (4, s.epoch)]))

/-- TRIP_RESTORE (R519): every die below 90 °C and every stack below 80 °C; the core domains are restored and the device boots from cold. -/
def execTripRestore (temps : List Int) (stacks_ : List Nat) (s : State) : Out :=
  match s.power.trip with
  | none => .next s
  | some (u, t) =>
    if temps.length ≠ 10 ∨ stacks_.length ≠ 12 ∨ temps.any (fun x => decide (90 ≤ x)) ∨ stacks_.any (fun x => decide (80 ≤ x)) then .next s
    else
      let up := s.pins.coldN && s.pins.auxPg
      let p := { s.pins with thermTripN := true, coreEn := up, held := !up, straps := s.pins.pinStraps }
      let w := { s.power with trip := none, boot9 := s.power.boot9 ++ [(0x1306, u, wrapI 8 t)] }
      .next ({ s with pins := p, power := w }.putStraps s.pins.pinStraps)

/-- The grade's TDP and the cap in W (R520). -/
def State.tdp (s : State) : Nat := if s.fuse.grade = 2 then 1750 else 2000
def State.capWatts (s : State) : Nat :=
  let w := s.fld .pwrCap 0 0 15 0
  if w = 0 then s.tdp else w

/-- The parts of the power estimate over a period in µW (R520): core domains, stacks by their shares of pin time in 1/65,536, SerDes. -/
def State.powerUw (s : State) (core : Nat) (share : List Nat) : Nat :=
  let stacks' := ((List.range 12).map (fun p => max 8000000 (32000000 * nth share p 0 / 65536))).sum
  let up := s.trib.ports.any (fun p => p.2.up) || s.braid.ports.any (fun p => p.2.step == 6)
  core + stacks' + (if up then 88000000 else 0)

/-- A loop decision (R521): credit, active, rate. -/
structure CapChoice where
  credit : Nat := 0
  active : Bool := false
  rate : Nat := 0
  thermal : Bool := false
deriving DecidableEq, Repr

/-- The update of R521 on exact figures: powers are in units of 1 µW / (64 T), T the period in ticks. `adm` and `dem` are the sums over
both hub dies of records admitted and of records that reached test 4. -/
def capLoop (t l e pj cap idle p n adm dem : Nat) (hot above95 active : Bool) (rate0 : Nat) : CapChoice :=
  let pm := 64 * (p * t - n * pj * 1000)
  let c1 := cap * 63 * 1000000 * t
  let cut := fun (c : Nat) => min c (60 * p * t)
  let cw := if hot then cut c1 else c1
  let cw := if above95 then cut cw else cw
  let ik := 64 * idle * 1000000 * t
  let credit := min ((cw - pm) * l / (64 * t * 1000 * pj * 2048)) 0xFFFFFFFE
  if pm ≤ cw ∧ active = false then { credit := credit, active := false, rate := rate0, thermal := hot }
  else
    let r := if pm ≤ ik then 0 else adm * (cw - ik) / (2 * e * (pm - ik))
    let r := min (max r 1) (2 ^ 24 - 1)
    if active = false ∧ cw < pm then { credit := 0, active := true, rate := r, thermal := hot }
    else if active ∧ dem ≤ r * 2 * e then { credit := credit, active := false, rate := r, thermal := hot }
    else { credit := 0, active := active, rate := r, thermal := hot }

/-- CAP_PERIOD_END (R520, R521): `core` is the mean power of the core domains in µW, `share` the stacks' shares of pin time in 1/65,536,
`cur` the mean currents of the domains in mA. DESIGN CHOICE (log 108): one THROTTLE_ON or THROTTLE_OFF for the device, with the refusals of both hub
dies. -/
def execCapPeriodEnd (core : Nat) (share cur : List Nat) (s : State) : Out := s.gated <|
  if s.head.step ≠ 9 then .next s
  else
    let e := 2 ^ s.fld .pwrCap 0 0 19 16
    let l := s.epochLen
    let t := e * l
    let pj := s.fld .pwrShed 0 0 7 0
    let p := s.powerUw core share
    let hubs := [s.hub 0, s.hub 1]
    let n := (hubs.map WeirHub.optUnits).sum
    let adm := (hubs.map WeirHub.admitted).sum
    let dem := (hubs.map WeirHub.demand).sum
    let hot := s.power.dies.any (fun x => decide (1 ≤ x.stage) && !x.lowered)
    let above95 := (List.range 10).any (fun d => decide ((if d < 8 then 190000 else 380000) < nth cur d 0))
    let was := (s.hub 0).throttle
    let c := capLoop t l e pj s.capWatts (s.fld .pwrShed 0 0 19 8) p n adm dem hot above95 was (s.hub 0).rate
    let refused := (hubs.map WeirHub.shedRefused).sum
    let w := { s.power with pAvg := p / 1000000, pMand := (p * t - n * pj * 1000) / (t * 1000000), thermalCap := c.thermal }
    let s := { s with power := w }
    let s := (List.range 2).foldl (fun s h =>
      let w := s.hub h
      let w := { w with credit := some c.credit, throttle := c.active, rate := c.rate, admitted := 0, demand := 0, optUnits := 0
                        left := if was then w.left else c.rate, shedRefused := if c.active then w.shedRefused else 0 }
      s.setHub h w) s
    if was = false ∧ c.active then .next (s.event 0x0503 0xFFFF 0xFF (detailOf [(4, c.rate), (4, s.epoch)]))
    else if was ∧ c.active = false then .next (s.event 0x0504 0xFFFF 0xFF (detailOf [(4, sat32 refused), (4, s.epoch)]))
    else .next s

end Sys2Proof.Machine
end

