-- ==== Sys2Proof/Machine/Mem.lean ====
section
/-! DEFINITION. External memory (chapter 16): the address map and the tenants' areas, reads and writes of protected sectors, mirrors,
keys and generations, rotation, erase and scrub, row repair. -/

namespace Sys2Proof.Machine

/-- The number of an owner's key of a generation; the generation of a page; the key a page is read and written under (R445). -/
def MemSt.keyOf (m : MemSt) (o g : Nat) : Nat :=
  let k := nth m.keys o (0, 0)
  if g = 0 then k.1 else k.2
def MemSt.genOf (m : MemSt) (stack page : Nat) : Nat := b2n (SMap.getD (fun _ => false) m.pageGen (stack * 2 ^ 17 + page))

/-- The sectors of a page, numbered by name, that the sweep has re-encrypted: its pointer (R446). -/
def MemSt.sweptIn (m : MemSt) (n : Nat) : Nat := match m.rotation with | some r => SMap.getD (fun _ => 0) r.at_ n | none => 0
/-- The generation that a sector copy is read and written under (R445, R447): below the pointer of a sweep of its page the new one, else that of the
page. -/
def MemSt.sectorGen (m : MemSt) (c : Nat × Nat) : Nat :=
  let page := c.2 / 2 ^ 20
  match m.rotation with
  | some r => if c.2 % 2 ^ 20 / 512 < m.sweptIn (c.1 * 2 ^ 17 + page) then r.gen else m.genOf c.1 page
  | none => m.genOf c.1 page
/-- The keys that a rotation re-encrypts from and to. -/
def MemSt.sweepKeys (m : MemSt) (r : Rotation) : Nat × Nat :=
  let k := nth m.keys r.owner (0, 0)
  if r.gen = 1 then (k.1, k.2) else (k.2, k.1)

/-- The key that a sector copy is sealed under (R440): that of its last write, else that of the newest fill that covers it, carried on by
the sweeps of its page, and by the one under way up to its pointer. -/
def Fill.keyAt (f : Fill) (stack page : Nat) : Option Nat :=
  let o := pageOwner f.tenancy f.shares stack page
  match f.only with
  | some t => if o = some t then some (nth f.keys t 0) else none
  | none => some (nth f.keys (o.getD 4) 0)
def MemSt.sealOf (m : MemSt) (c : Nat) : Nat :=
  let k := match m.seals.find? c with
    | some k => k
    | none =>
      let stack := c / 2 ^ 28
      let page := c % 2 ^ 28 / 2048
      let k := (m.fills.findSome? (fun f => f.keyAt stack page)).getD 0
      (SMap.getD (fun _ => []) m.sweeps (stack * 2 ^ 17 + page)).foldl (fun k x => if k = x.1 then x.2 else k) k
  match m.rotation with
  | some r => if c % 2048 < m.sweptIn (c / 2048) ∧ k = (m.sweepKeys r).1 then (m.sweepKeys r).2 else k
  | none => k

/-- The name of the sector copy at a stack offset. -/
def copyName (c : Nat × Nat) : Nat := c.1 * 2 ^ 28 + c.2 / 512

/-- A sector copy passes its check under the owner and the generation it is read under (R440): the MAC of its ciphertext under the keys it is read
under is the one stored. That holds where it was sealed under those keys and nothing has changed it; that it fails elsewhere, but for a collision of
64 bits, is log 29. -/
def MemSt.passes (m : MemSt) (o : Nat) (c : Nat × Nat) : Bool :=
  let k := m.keyOf o (m.sectorGen c)
  k != 0 && m.sealOf (copyName c) == k && !m.failed.contains (copyName c)

/-- The plaintext of a sector copy. -/
def MemSt.plain (m : MemSt) (c : Nat × Nat) : List Byte := Memory.readBytes m.data (copyName c * 512) 512

/-- The binding block of a sector (R440). -/
def bindingBlock (addr o g : Nat) : List Byte := leBytes 6 addr ++ leBytes 1 o ++ leBytes 1 g ++ leBytes 8 0

/-- A block as the number that GCM multiplies: byte 0 stands first. -/
def blockNat (b : List Byte) : Nat := b.foldl (fun n x => n * 256 + x.toNat) 0
/-- The product of GCM's field: bit 127 of a number is the coefficient of x^0. -/
def gfMul (x y : Nat) : Nat :=
  ((List.range 128).foldl (fun (a : Nat × Nat) i =>
    (if x.testBit (127 - i) then a.1 ^^^ a.2 else a.1, if a.2 % 2 = 1 then (a.2 / 2) ^^^ (0xE1 * 2 ^ 120) else a.2 / 2)) (0, y)).1
/-- GHASH with subkey `h` over whole blocks, with no length block (R440). -/
def ghash (h : Nat) (b : List Byte) : Nat :=
  (List.range (b.length / 16)).foldl (fun y i => gfMul (y ^^^ blockNat (slice b (16 * i) 16)) h) 0

/-- The ciphertext of a sector, and its MAC over the ciphertext read, under the keys of a number (R440). The MAC's bits [63:0] are the last 8 bytes of
the AES block (DESIGN CHOICE, log 102). -/
def sectorCipher (k addr o g : Nat) (plain : List Byte) : List Byte := Config.xtsSeal k (bindingBlock addr o g) plain
def sectorMac (k addr o g : Nat) (cipher : List Byte) : Nat :=
  let km := Config.macKey k
  Config.aes256 km (ghash (Config.aes256 km 0) (bindingBlock addr o g ++ cipher)) % 2 ^ 64
/-- Where the MAC of a sector copy lies in the MAC region of its stack (R440). -/
def macIndex (c : Nat × Nat) : Nat := c.2 / 512 * 8
/-- What the stack holds of a sector copy that nothing outside has changed: its ciphertext and its MAC (R440). -/
def MemSt.cipherAt (m : MemSt) (addr o : Nat) (c : Nat × Nat) : List Byte := sectorCipher (m.sealOf (copyName c)) addr o (m.sectorGen c) (m.plain c)
def MemSt.macAt (m : MemSt) (addr o : Nat) (c : Nat × Nat) : Nat :=
  sectorMac (m.sealOf (copyName c)) addr o (m.sectorGen c) (m.cipherAt addr o c)

/-- Writes a sector copy whole under its current key. -/
def MemSt.seal (m : MemSt) (o : Nat) (c : Nat × Nat) (b : List Byte) : MemSt :=
  let n := copyName c
  let k := m.keyOf o (m.sectorGen c)
  let m := { m with seals := m.seals.del n, failed := m.failed.erase n, data := Memory.writeBytes m.data (n * 512) (b.take 512) }
  if m.sealOf n = k then m else { m with seals := m.seals.put n k }

/-- The copies of an address on stacks that work, the one on the reader's hub die first (R437, R456). -/
def State.copies (s : State) (hub addr : Nat) : List (Nat × Nat) :=
  let cs := (placeOf (addr / 512 * 512)).filter (fun c => (nth s.mem.stk c.1 {}).state != 2)
  cs.filter (fun c => c.1 / 6 == hub) ++ cs.filter (fun c => c.1 / 6 != hub)

/-- The Eddy buckets with a tag block or a slot in a sector (R164, R443). -/
def classHits (t p : Nat) : List KeyClass → Nat → Nat → List Nat
  | [], _, _ => []
  | k :: l, lo, r =>
    let n := 2 ^ k.bucketsLog2
    let slot := 1024 * 2 ^ k.slot
    let key := fun (b : Nat) => bucketKey t k.cls p b
    if r < lo + n * 64 then (List.range 8).filterMap (fun i => if (r - lo) / 64 + i < n then some (key ((r - lo) / 64 + i)) else none)
    else if r < lo + n * (64 + slot) then [key ((r - lo - n * 64) / slot)]
    else classHits t p l (lo + n * (64 + slot)) r
def State.bucketsAt (s : State) (addr : Nat) : List Nat :=
  if addr < 0x10000000000 then []
  else
    let p := (addr - 0x10000000000) / 0x2000000000
    let off := (addr - 0x10000000000) % 0x2000000000
    match eddyOwner s.tenancy s.shares (off / 2 ^ 20) with
    | none => []
    | some (t, lo) =>
      match s.active t with
      | none => []
      | some i =>
        match i.set.schema with
        | none => []
        | some x => classHits t p ((List.range 8).filterMap (fun k => x.classes.find? (fun (c : KeyClass) => c.cls == k))) 0
            (off / 512 * 512 - lo * 2 ^ 20)

/-- What a failed sector does, by its reader (R443). `who` is the stream of a fetch engine or the number of a control core. -/
def State.readerFailed (s : State) (reader hub addr who stack : Nat) : State :=
  match reader with
  | 1 => s.readFault hub addr who (0x7000 + stack)
  | 2 => { s with eddy := { s.eddy with bad := s.eddy.bad ++ (s.bucketsAt addr).filter (fun b => !s.eddy.bad.contains b) } }
  | 3 => s.bundleFailed addr
  | 4 =>
    if addr < 0x2000000000 ∨ 0x3000000000 ≤ addr then s
    else
      let o := addr - 0x2000000000
      if s.tenancy then s.captureReject (o / 2 ^ 34) (o % 2 ^ 34 / 512 * 512) else s.captureReject 0 (o / 512 * 512)
  | 5 => s.coreStop who
  | _ => s

/-- A row is due for repair (R454), where SPPR_EN lets it be repaired in service. -/
def State.rowDue (s : State) (stack row : Nat) : State :=
  if s.fld .memPprCfg 0 0 4 4 = 0 ∨ s.mem.due.contains (stack, row) then s
  else { s with mem := { s.mem with due := s.mem.due ++ [(stack, row)] } }

/-- Counts errors of a row (R454): corrected ones, and uncorrectable ones or MAC failures. The count of corrected errors within FAULT_WIN, or one error
of the other kinds, makes it due for repair. -/
def State.rowCount (s : State) (stack row corr fails : Nat) : State :=
  let k := stack * 2 ^ 60 + row
  let w := SMap.getD (fun _ => (s.now, 0, 0)) s.mem.rowErrs k
  let w := if w.1 + 2 ^ s.fld .relCfg 0 0 5 0 ≤ s.now then (s.now, 0, 0) else w
  let n := w.2.1 + corr
  let s := if corr = 0 ∧ fails = 0 then s else { s with mem := { s.mem with rowErrs := s.mem.rowErrs.put k (w.1, n, w.2.2 + fails) } }
  if (0 < corr ∧ s.fld .memPprCfg 0 0 3 0 ≤ n) ∨ 0 < fails then s.rowDue stack row else s

/-- The row that holds a sector copy (R454): the row that a stack's report names, else as the stack lays its sectors out, which the spec leaves
open. -/
def rowAt (row : Option Nat) (c : Nat × Nat) : Nat := row.getD (Config.rowOf c.1 (c.2 / 512))

/-- A sector that failed in every copy (R443): counted, raised once per epoch and stack, its row due for repair. -/
def State.sectorCount (s : State) (reader addr : Nat) (c : Nat × Nat) (row : Option Nat) : State :=
  let stack := c.1
  let s := s.tick .cntMemCnt (stack * 4)
  let x := nth s.mem.stk stack {}
  let s := if x.failEpoch = some s.epoch then s
    else
      let s := { s with mem := { s.mem with stk := setNth s.mem.stk stack { x with failEpoch := some s.epoch } } }
      s.event 0x1004 stack 0xFF (detailOf [(6, addr / 512 * 512), (1, reader), (1, 0)])
  (s.rowCount stack (rowAt row c) 0 1).countErr (0x7000 + stack) false

/-- A read whose sector failed in every copy (R443): counted, and its reader told. -/
def State.sectorFail (s : State) (reader hub addr who : Nat) (c : Nat × Nat) (row : Option Nat) : State :=
  (s.sectorCount reader addr c row).readerFailed reader hub addr who c.1

/-- Reads a sector (R437, R440, R443): its plaintext, or none where every copy fails. `bad` names the stacks whose copy this read finds
changed, `row` the row that a stack's report names. -/
def State.readSector (s : State) (reader hub addr who : Nat) (bad : List Nat) (row : Option Nat) : Option (List Byte) × State :=
  match s.ownerOf addr with
  | none => (none, s)
  | some o =>
    let cs := s.copies hub addr
    let hit := (cs.filter (fun c => bad.contains c.1)).map copyName
    let s := { s with mem := { s.mem with failed := s.mem.failed ++ hit.filter (fun n => !s.mem.failed.contains n) } }
    match cs.find? (fun c => s.mem.passes o c) with
    | some c =>
      let b := s.mem.plain c
      let fix := cs.takeWhile (fun x => !s.mem.passes o x)
      (some b, fix.foldl (fun s x =>
        State.rowCount { (s.tick .cntMemCnt (x.1 * 4 + 1)) with mem := s.mem.seal o x b } x.1 (rowAt row x) 0 1) s)
    | none =>
      match cs with
      | c :: _ => (none, s.sectorFail reader hub addr who c row)
      | [] => (none, s.readerFailed reader hub addr who ((placeOf addr).headD (0, 0)).1)

/-- Reports what a unit's access gave (R436, R443). -/
def State.memOut (s : State) (reader addr outcome : Nat) (b : List Byte) : State :=
  { s with mem := { s.mem with delivered := s.mem.delivered ++ [(reader, addr, outcome, b)] } }

/-- The controllers of a hub die's stacks issue no new command while its domain is below VWARN (R509). -/
def State.memHeld (s : State) (hub : Nat) : Bool := (s.sup (8 + hub)).warn

/-- SECTOR_READ (R440): `badOwn` and `badOther` say that the copies on the reader's hub die and on the other are found changed. An address
in no area is refused, and the refusal reported to the unit (R436); before the erase has ended nothing is read (R449), and none is issued to a
stack whose hub die is below VWARN (R509). -/
def execSectorRead (reader hub addr who : Nat) (badOwn badOther : Bool) (s : State) : Out := s.gated <|
  if s.mem.erased = false ∨ ((s.copies hub addr).head?.any (fun c => s.memHeld (c.1 / 6))) = true then .next s
  else if (s.ownerOf addr).isNone then .next (s.memOut reader addr 2 [])
  else
    let bad := (placeOf addr).filterMap (fun c => if (if c.1 / 6 = hub then badOwn else badOther) then some c.1 else none)
    match s.readSector reader hub addr who bad none with
    | (some b, s) => .next (s.memOut reader addr 0 b)
    | (none, s) => .next (s.memOut reader addr 1 [])

/-- SECTOR_WRITE (R437, R441): `none` leaves a byte as it is, which takes a read first. A whole write ends a bucket's failure (R443). -/
def execSectorWrite (writer hub addr who : Nat) (data : List (Option Byte)) (s : State) : Out := s.gated <|
  match s.ownerOf addr with
  | none => .next (if s.mem.erased then s.memOut writer addr 2 [] else s)
  | some o =>
    if s.mem.erased = false ∨ data.length ≠ 512 ∨ (s.copies hub addr).any (fun c => s.memHeld (c.1 / 6)) = true then .next s
    else
      let put := fun (s : State) (b : List Byte) =>
        (s.copies hub addr).foldl (fun s c => { s with mem := s.mem.seal o c b }) s
      if data.all Option.isSome then
        let hits := s.bucketsAt addr
        .next (put { s with eddy := { s.eddy with bad := s.eddy.bad.filter (fun b => !hits.contains b) } } (data.map (·.getD 0)))
      else
        match s.readSector writer hub addr who [] none with
        | (some old, s) => .next (put s (List.zipWith (fun (x : Option Byte) (y : Byte) => x.getD y) data old))
        | (none, s) => .next (s.memOut writer addr 1 [])

/-- What a stack reports of a row (R454): corrected errors, and reads with uncorrectable ones (R443). -/
def State.rowErrors (s : State) (stack : Nat) (r : RowReport) : State :=
  let s := (s.count .cntMemCnt (stack * 4 + 2) r.corrected).rowCount stack r.row r.corrected 0
  r.reads.foldl (fun s x => (s.readSector x.1 x.2.1 x.2.2.1 x.2.2.2 [stack] (some r.row)).2) s

/-- FETCH_READ_COMPLETE (R141): a good read gives each stream that waits for it its element, and its line enters the bundle cache, in place of the
least recently used; a read that fails its check is not retried, and its sector is counted like any other (R443). -/
def execFetchReadComplete (hub engine addr : Nat) (ok : Bool) (s : State) : Out := s.gated <|
  let w := s.hub hub
  match w.reads.find? (fun r => r.engine == engine && r.addr == addr) with
  | none => .next s
  | some r =>
    let kind := fun (u : Nat × Nat) => match w.streams.find? u.1 with | some x => x.desc.kind | none => 0
    let cached := r.uses.any (fun u => kind u == 3 || kind u == 4)
    let lines := w.bcache ++ [addr / 256]
    let s := s.setHub hub { w with reads := w.reads.erase r
                                   bcache := if ok && cached then lines.drop (lines.length - 131072) else w.bcache }
    if ok then .next (r.uses.foldl (fun s u => s.gotElem hub u.1 u.2) s)
    else
      let c := (s.copies hub addr ++ placeOf addr).headD (0, 0)
      let s := s.sectorCount (if r.uses.all (fun u => kind u == 4) then 3 else 1) addr c none
      .next ((r.uses.map Prod.fst).dedup.foldl (fun s st => s.readFault hub addr st (0x7000 + c.1)) s)

/-- HBM_ERROR_POLL (R434, R443, R454). -/
def execHbmErrorPoll (stack : Nat) (rows : List RowReport) (s : State) : Out := s.gated <|
  if 12 ≤ stack ∨ s.mem.erased = false ∨ (nth s.mem.stk stack {}).state = 2 then .next s
  else .next (rows.foldl (fun s r => s.rowErrors stack r) s)

/-- HBM_RETRAIN (R434): a pseudo-channel is trained again; nothing that software sees changes. -/
def execHbmRetrain (_stack _pc : Nat) (s : State) : Out := s.gated <| .next s

/-- HBM_REFRESH (R434): a refresh management command is counted; a refresh keeps the contents. A stack that is
lastingly faulty gets none (R456). -/
def execHbmRefresh (stack : Nat) (_perBank rfm : Bool) (s : State) : Out := s.gated <|
  .next (if stack < 12 ∧ rfm ∧ (nth s.mem.stk stack {}).state ≠ 2 then s.tick .cntMemCnt (stack * 4 + 3) else s)

/-- The event of a repair (Table 16.10). A row is named pseudo-channel · 2^40 + bank · 2^32 + row. -/
def State.pprEvent (s : State) (stack row kind : Nat) : State :=
  s.event 0x1005 stack 0xFF (detailOf [(1, row / 2 ^ 40), (1, row / 2 ^ 32), (4, row), (1, kind), (1, 0)])

/-- ROW_REPAIR (R454, R455): `spare` says that the row's bank has a spare row left. A repair applied counts as a correctable error of the
stack, an error in a row of a bank with none as an uncorrectable one (Table 18.2). -/
def execRowRepair (stack row : Nat) (spare : Bool) (s : State) : Out := s.gated <|
  let x := nth s.mem.stk stack {}
  if 12 ≤ stack ∨ x.state = 2 ∨ s.mem.due.contains (stack, row) = false ∨ s.fld .memPprCfg 0 0 4 4 = 0 then .next s
  else
    let m := { s.mem with due := s.mem.due.erase (stack, row), rowErrs := s.mem.rowErrs.del (stack * 2 ^ 60 + row) }
    if spare then
      let s := { s with mem := { m with stk := setNth m.stk stack { x with sppr := x.sppr + 1, softRows := x.softRows ++ [row] } } }
      .next ((s.pprEvent stack row 1).countErr (0x7000 + stack) true)
    else
      let s := { s with mem := { m with stk := setNth m.stk stack { x with spareOut := true } } }
      .next (s.countErr (0x7000 + stack) false)

/-- Hard post-package repair of boot step 5 (R455): each soft repair of a stack that is accessed (R456) is made permanent. -/
def State.hardPpr (s : State) : State :=
  if s.fld .memPprCfg 0 0 5 5 = 0 then s
  else ((List.range 12).filter (fun p => (nth s.mem.stk p {}).state != 2)).foldl (fun s p =>
    let x := nth s.mem.stk p {}
    let s := x.softRows.foldl (fun s r => s.pprEvent p r 2) s
    { s with mem := { s.mem with stk := setNth s.mem.stk p { x with softRows := [] } } }) s

/-- Starts a rotation (R446): new keys in the other generation. -/
def State.startRotation (s : State) (o : Nat) : State :=
  let g := 1 - nth s.mem.curGen o 0
  let n := s.mem.keyNo + 1
  let k := nth s.mem.keys o (0, 0)
  let k := if g = 1 then (k.1, n) else (n, k.2)
  { s with mem := { s.mem with keyNo := n, keys := setNth s.mem.keys o k, curGen := setNth s.mem.curGen o g
                               rotation := some { owner := o, gen := g } } }.endSweep

/-- Why a rotation request is refused (R448): the cause and the owner being rotated or scrubbed. -/
def State.rotateRefused (s : State) (o : Nat) : Option (Nat × Nat) :=
  match s.mem.rotation with
  | some r => some (1, r.owner)
  | none => if s.mem.erased = false ∨ s.mem.scrubs.contains o then some (2, o) else none
def State.keyRefused (s : State) (o cause whom : Nat) : State :=
  (s.latch none attnKeyRefused).event 0x1003 o (if o < 4 then o else 0xFF) (detailOf [(1, cause), (1, whom), (6, 0)])

/-- The sectors of the page in sweep on each stack that are re-encrypted in this tick (R446, R447): how many is open. A controller that issues no new
command (R509) re-encrypts none (DESIGN CHOICE, log 30). -/
def State.sweepTick (s : State) : State :=
  match s.mem.rotation with
  | none => s
  | some r =>
    if r.paused then s
    else
      let at_ := (List.range 12).foldl (fun (m : SMap Nat) p =>
        match nextPage (s.ownerSpans r.owner p) (nth r.next p 0) with
        | none => m
        | some page =>
          let n := p * 2 ^ 17 + page
          if (nth s.mem.stk p {}).state = 2 ∨ s.memHeld (p / 6) = true then m
          else m.put n (min 2047 (SMap.getD (fun _ => 0) m n + Config.sectorsSwept p s.now))) r.at_
      { s with mem := { s.mem with rotation := some { r with at_ := at_ } } }

/-- SWEEP_PAGE_DONE (R446): pages of a stack come in ascending order. -/
def execSweepPageDone (stack page : Nat) (s : State) : Out := s.gated <|
  match s.mem.rotation with
  | none => .next s
  | some r =>
    if r.paused ∨ 12 ≤ stack ∨ (nth s.mem.stk stack {}).state = 2 ∨ nextPage (s.ownerSpans r.owner stack) (nth r.next stack 0) ≠ some page then .next s
    else
      let step := s.mem.sweepKeys r
      let n := stack * 2 ^ 17 + page
      let m := { s.mem with
        pageGen := if r.gen = 1 then s.mem.pageGen.put n true else s.mem.pageGen.del n
        seals := SMap.mapVals (fun c k => if c / 2048 = n ∧ k = step.1 then step.2 else k) s.mem.seals
        sweeps := s.mem.sweeps.put n (SMap.getD (fun _ => []) s.mem.sweeps n ++ [step])
        rotation := some { r with done := r.done + 1, next := setNth r.next stack (page + 1), at_ := r.at_.del n } }
      .next { s with mem := m }.endSweep

/-- MEM_ERASE_DONE (R449): the last sector is written; the fill needs trained stacks, so boot step 5 has trained them. -/
def execMemEraseDone (s : State) : Out := s.gated <|
  if s.head.step < 6 ∨ s.mem.erased then .next s
  else
    let n := s.mem.keyNo
    let ks := (List.range 5).map (fun o => n + 1 + o)
    let m := { s.mem with
      data := [], seals := [], sweeps := [], failed := [], pageGen := [], keyNo := n + 5, keys := ks.map (fun k => (k, 0))
      curGen := [0, 0, 0, 0, 0], erased := true, restarted := false, rotation := none, due := []
      fills := [{ tenancy := s.tenancy, shares := s.shares, keys := ks }] }
    .next ({ s with mem := m }.event 0x1000 0xFFFF 0xFF s.now)

/-- A page of a store key belongs to a tenant now. -/
def State.ownsPage (s : State) (t n : Nat) : Bool := pageOwner s.tenancy s.shares (n / 2 ^ 17) (n % 2 ^ 17) == some t

/-- Step 1 of a scrub (R450, R453): new keys in generation 0, the generation bits cleared, a rotation of the owner ended, another paused. What
the tenant's areas held is gone with its key: sets, bundles, journals, the commit record, the ring, the Eddy store. -/
def State.beginScrub (s : State) (t : Nat) : State :=
  if s.sec.error then s else
  let n := s.mem.keyNo + 1
  let m := { s.mem with
    keyNo := n, keys := setNth s.mem.keys t (n, 0), curGen := setNth s.mem.curGen t 0
    pageGen := s.mem.pageGen.keep (fun k _ => !s.ownsPage t k)
    rotation := match s.mem.rotation with | some r => if r.owner = t then none else some { r with paused := true } | none => none }
  let h := s.hwT t
  let w := { s.capOf t with ring := [], wr := 0, rd := 0, loss := none }
  let s := { s with mem := m }
  let s := (s.setHwT t { halves := h.halves, lastHalf := h.lastHalf }).setCap t w
  let s := (List.range 2).foldl (fun s hub =>
    let w := s.hub hub
    s.setHub hub { w with streams := w.streams.keep (fun _ x => x.tenant != t || x.desc.persist == 1) }) s
  let launches := s.head.launches.filter (fun (l : Launch) => l.tenant != t || (l.kind != 1 && l.kind != 2 && l.kind != 5 && l.kind != 6))
  let s := { s with head := { s.head with launches := launches } }
  s.clearStore t none

/-- Starts a scrub of a tenant: scrubs run one after the other (R453). The one that runs starts again, since the tenant's areas may have changed
(R439); one that waits covers the areas that are in force as it begins. -/
def State.startScrub (s : State) (t : Nat) : State :=
  if s.mem.scrubs.head? = some t then s.beginScrub t
  else if s.mem.scrubs.contains t then s
  else
    let first := s.mem.scrubs.isEmpty
    let s := { s with mem := { s.mem with scrubs := s.mem.scrubs ++ [t] } }
    if first then s.beginScrub t else s

/-- The tenancy setting that waited for the scrubs takes effect (R475): with tenancy off only tenant 0 holds anything (R135), and either way
tenants 1 to 3 are frozen and drained from here (R410). -/
def State.tenancySet (s : State) : State :=
  match s.sec.pending with
  | none => s
  | some b =>
    let fz := s.weir.freeze.take 1 ++ [{}, {}, {}]
    let s := { s with sec := { s.sec with tenancy := b, pending := none }, weir := { s.weir with freeze := fz } }
    s.saveArea.event 0x1103 0xFFFF 0xFF (detailOf [(1, b2n b), (7, 0)])

/-- MEM_SCRUB_DONE (R450): the areas hold encrypted zeros under the new key. While the module is in its error state no scrub begins or ends (R461; DESIGN
CHOICE, log 103). -/
def execMemScrubDone (tenant : Nat) (s : State) : Out := s.gated <|
  match s.mem.scrubs with
  | [] => .next s
  | t :: l =>
    if t ≠ tenant ∨ s.sec.error = true then .next s
    else
      let out := fun (c : Nat) => !s.ownsPage t (c / 2048)
      let f : Fill := { tenancy := s.tenancy, shares := s.shares, keys := s.mem.keys.map (·.1), only := some t }
      let m := { s.mem with
        data := s.mem.data.filter (fun x => out (x.1 / 512)), seals := s.mem.seals.keep (fun c _ => out c), failed := s.mem.failed.filter out
        sweeps := s.mem.sweeps.keep (fun n _ => !s.ownsPage t n), fills := f :: s.mem.fills, scrubs := l, restarted := false
        rotation := if l = [] then s.mem.rotation.map (fun r => { r with paused := false }) else s.mem.rotation }
      let n := s.pagesOn t
      let s := { s with mem := m }
      let s := s.event 0x1001 t t (detailOf [(4, n), (4, s.now)])
      match l with
      | [] => .next s.tenancySet
      | x :: _ => .next (s.beginScrub x)

/-- The activity that MEM_SCRUB_PROG shows: state, owner, pages done, pages in all (Table 16.8). How far an erase or a scrub has come at
a tick is open. -/
def State.scrubShow (s : State) : Nat × Nat × Nat × Nat :=
  let open_ := fun (st o n : Nat) => (st, o, Config.pagesDone s.now % (n + 1), n)
  if s.mem.erased = false then if 5 ≤ s.head.step then open_ 1 0 (118784 * ((List.range 12).filter (fun p => (nth s.mem.stk p {}).state != 2)).length) else (1, 0, 0, 0)
  else
    match s.mem.scrubs with
    | t :: _ => open_ 2 t (s.pagesOn t)
    | [] =>
      match s.mem.rotation with
      | some r => (3, r.owner, s.sweepDone r, s.ownerPages r.owner)
      | none => (0, 0, 0, 0)

end Sys2Proof.Machine
end

