-- ==== Sys2Proof/Machine/Rates.lean ====
section
/-! DEFINITION. The predicted rate of a pipeline and its limiting unit (R240, R241, R245, R267, R300), and the device's copy of a set whose
slots another slot serves (R239). -/

namespace Sys2Proof.Machine

/-- A bound on the records/s of a pipeline as a fraction, with its limiting unit (Table 2.12); a denominator of 0 is no bound. -/
structure RateBound where
  num : Nat := 0
  den : Nat := 0
  unit : Nat := 0
deriving DecidableEq, Repr

/-- The lesser of two bounds; of equal ones the first. -/
def RateBound.least (a b : RateBound) : RateBound :=
  if b.den = 0 then a else if a.den = 0 then b else if b.num * a.den < a.num * b.den then b else a

/-- A bound in whole 10^6 records/s, rounded down. -/
def RateBound.mega (b : RateBound) : Nat := if b.den = 0 then 2 ^ 32 - 1 else min (b.num / (b.den * 1000000)) (2 ^ 32 - 1)

/-- The stages a pipeline runs: the ensembles of its cascade (R240: no early exit). -/
def ModelSet.stageEnsembles (m : ModelSet) (p : Pipeline) : List Ensemble :=
  match m.cascade p.cascade with
  | none => []
  | some c => c.stages.filterMap (fun st => m.ensemble st.ensemble)

/-- The trees of an ensemble that tiles hold in one replica, each with whether a tile serves it as spilled (R225, R239). -/
def ModelSet.tileTrees (m : ModelSet) (gradeB : Bool) (e : Nat) : List (Nat × Bool) :=
  (m.replicaSlots e 0).flatMap (fun x =>
    match m.runAt x e with
    | none => []
    | some r => (List.range r.count).map (fun i =>
        (m.runTree x e + i, (dirAt (m.slotImg x) (r.first + i)).spill || (gradeB && m.grade == 1 && decide (56 ≤ x % 66)))))

/-- The mean evaluated cost of a tree, times the profile's records (R233). -/
def ModelSet.treeCost (m : ModelSet) (e t : Nat) : Nat := nth (SMap.getD (fun _ => []) m.costs e) t 0
/-- The element count of a tree (R233). -/
def Ensemble.elements (e : Ensemble) (t : Nat) : Nat := max 1 (nth e.table t {}).vlen

/-- W times the profile's records: spilled trees count six times (R240, R245). -/
def ModelSet.laneWork (m : ModelSet) (gradeB : Bool) (es : List Ensemble) : Nat :=
  (es.map (fun e => ((m.tileTrees gradeB e.index).map (fun t => (if t.2 then 6 else 1) * m.treeCost e.index t.1)).sum)).sum

/-- The active tiles that hold slots of a set. -/
def ModelSet.heldSlots (m : ModelSet) (gradeB : Bool) : Nat :=
  (m.slots.filter (fun s => !(gradeB && m.grade == 1 && decide (56 ≤ s.1 % 66)))).length

/-- The blocks of 256 bytes of the set's vector. -/
def ModelSet.vecBlocks (m : ModelSet) : Nat := ceilDiv (vecBytes m.ftable) 256

/-- The spilled bytes that a serving slot's window takes for the given ensembles: whole blocks (R240, R243). -/
def ModelSet.spilledBytes (m : ModelSet) (gradeB : Bool) (es : List Ensemble) (x : Nat) : Nat :=
  (es.map (fun e => match m.runAt x e.index with
    | none => 0
    | some r => ((List.range r.count).map (fun i =>
        let d := dirAt (m.slotImg x) (r.first + i)
        if d.spill then 256 * (d.spLen + 1)
        else if gradeB && m.grade == 1 && decide (56 ≤ x % 66) then 256 * ceilDiv (entryWords m (m.slotImg x) e d) 32
        else 0)).sum)).sum

/-- The bounds of Table 8.7 in Fast mode at a 1.6 GHz tile clock, η = 0.9. A slot of R239 adds to the slot that serves it. DESIGN CHOICE (log 93): the
record bus bound takes the widest span of the stages, as the example of R58 does; the spill bounds take the least replica count of the ensembles. -/
def ModelSet.tileBounds (m : ModelSet) (v : RateEnv) (es : List Ensemble) : List RateBound :=
  let p := m.heldSlots v.gradeB
  let els := (es.map (fun e => ((m.tileTrees v.gradeB e.index).map (fun t => e.elements t.1)).sum)).sum
  let bus := (es.map (fun e => ((m.tileRows e.index ++ m.unitRows e.index).map PlaceRow.span).headD 0)).foldl max 0 * m.vecBlocks
  let g := ((es.map (fun e => m.replicas e.index)).min?).getD 0
  let n := 128 / max 1 m.vecBlocks
  let slots := (es.flatMap (fun e => (List.range (m.replicas e.index)).flatMap (m.replicaSlots e.index))).dedup
  let home := fun (x : Nat) => if v.gradeB && m.grade == 1 && decide (56 ≤ x % 66) then x - 8 else x
  let bytes := (slots.map home).dedup.map (fun y => ((slots.filter (fun x => home x == y)).map (m.spilledBytes v.gradeB es)).sum)
  [{ num := p * 128 * 1440000000 * m.profile, den := m.laneWork v.gradeB es, unit := 1 }, { num := p * 16 * 1600000000, den := els, unit := 1 },
   { num := 8 * 1600000000, den := bus, unit := 1 }, { num := g * n * 64000000000, den := bytes.foldl max 0, unit := 5 },
   { num := g * n * 8000000000000, den := bytes.sum, unit := 5 }]

/-- The searches and leaf elements that a record costs logical unit 9 d + m of a die, 840 times: divided by the replicas that share the
records (R267). -/
def ModelSet.unitWork (m : ModelSet) (p : Pipeline) (es : List Ensemble) (u : Nat) : Nat × Nat :=
  let img := SMap.getD (fun _ => {}) m.units u
  let trees := es.map (fun e =>
    let r := muRun img e.index
    let g := max 1 (m.replicas e.index)
    if (List.range (m.replicas e.index)).any (fun k => (m.replicaUnits e.index k).contains u) then
      (840 * r.count / g, 840 * ((List.range r.count).map (fun i => max 1 (nth img.selectors (r.first + i) {}).vlen)).sum / g)
    else (0, 0))
  let tables := p.ruleTables.map (fun t =>
    if (List.range (m.tableReplicas t)).any (fun k => (m.tableUnits t k).contains u) then 840 / max 1 (m.tableReplicas t) else 0)
  ((trees.map Prod.fst).sum + tables.sum, (trees.map Prod.snd).sum)

/-- The match-unit bound of each unit (R267); a host's cycles per record are the sum over both images that it serves (R275). -/
def ModelSet.unitBounds (m : ModelSet) (v : RateEnv) (p : Pipeline) (es : List Ensemble) : List RateBound :=
  (m.units.filter (fun u => !v.hosts.any (fun h => h.1 == u.1))).map (fun u =>
    let all := (u.1 :: (v.hosts.filter (fun h => h.2 == u.1)).map Prod.fst).map (m.unitWork p es)
    let w := ((all.map Prod.fst).sum, (all.map Prod.snd).sum)
    let gap := nth v.gaps (u.1 / 9) 256
    { num := 840 * 1600000000 * (gap - 1), den := gap * max w.1 w.2, unit := 2 })

/-- The reduction bounds of Table 10.3, on the fp32 and integer paths (R300). The load of a die is divided by the replicas that share the records. -/
def ModelSet.reductionBounds (m : ModelSet) (es : List Ensemble) : List RateBound :=
  let load := fun (d : Nat) => (es.map (fun e => (List.range (m.replicas e.index)).map (fun k =>
    let tiles := ((m.replicaSlots e.index k).filter (fun x => x / 66 == d && (match m.runAt x e.index with | some r => decide (0 < r.count) | none => false))).length
    let units := ((m.replicaUnits e.index k).filter (fun x => x / 9 == d && decide (0 < (muRun (SMap.getD (fun _ => {}) m.units x) e.index).count))).length
    840 * ((tiles + units) * e.outputs) / m.replicas e.index))).flatten.sum
  let path := (es.map (fun e =>
    ceilDiv (e.outputs * (((m.tileRows e.index ++ m.unitRows e.index).map PlaceRow.span).headD 1 + 1)) 2 + (if e.fused then e.outputs else 0))).sum
  [{ num := 840 * 32 * 1600000000, den := ((List.range 8).map load).foldl max 0, unit := 1 }, { num := 64 * 1400000000, den := path, unit := 3 }]

/-- The port bound (R241): the rate of full frames of the least record over the ports of both hub dies, over IPv6 with MACsec. -/
def ModelSet.portBound (m : ModelSet) (v : RateEnv) (p : Pipeline) : RateBound :=
  let body := if p.stateful then 16 else padTo 8 (List.replicate (vecBytes m.ftable) 0) |>.length
  let least := ceilDiv (32 + body + (if p.dispatch = 0xFF then 0 else 8)) 8 * 8
  let n := min 64 ((9216 - 130) / least)
  let rate := (v.arrange.map (fun a => if a = 2 then 16 * 400 else if a = 1 then 4 * 1600 else 8 * 800)).sum * 1000000000
  { num := rate * n, den := 8 * (n * least + 150), unit := 0 }

/-- The Eddy bound (R241, Table 6.12): the read-modify-write rate of the largest slot among the pipeline's key classes. -/
def ModelSet.eddyBound (m : ModelSet) (p : Pipeline) : RateBound :=
  let sizes := (List.range 8).filterMap (fun k => if bit p.keyClasses k then (m.keyClass k).map KeyClass.slot else none)
  let top := sizes.foldl max 0
  if p.stateful = false then {}
  else { num := if top = 0 then 16000000000 else if top = 1 then 12000000000 else 6600000000, den := 1, unit := 4 }

/-- The vector-engine lane-ops of a pipeline's records at full batches (R210). -/
def ModelSet.laneOps (m : ModelSet) (p : Pipeline) : Nat :=
  (match m.featProg p.featProg with | some x => x.cost | none => 0) + (match m.finProg p.finProg with | some x => x.cost | none => 0)

/-- The predicted rate of a pipeline (R240): the least of all its bounds. DESIGN CHOICE (log 11): among equal bounds the one of the lowest unit code is
reported. -/
def ModelSet.predicted (m : ModelSet) (v : RateEnv) (p : Pipeline) : RateBound :=
  let es := m.stageEnsembles p
  let all := [m.portBound v p] ++ m.tileBounds v es ++ m.unitBounds v p es ++ m.reductionBounds es ++
    [{ num := 2867000000000, den := m.laneOps p, unit := 3 }, m.eddyBound p]
  ((List.range 6).flatMap (fun u => all.filter (fun b => b.unit == u))).foldl RateBound.least {}

/-- A directory entry of a spilled tree (Table 8.3). -/
def spillEntry (d : DirEntry) (block words : Nat) : DWord :=
  BitVec.ofNat 64 (2 ^ 63 + d.depth * 2 ^ 52 + d.vlen * 2 ^ 47 + d.outBase * 2 ^ 41 + (ceilDiv words 32 - 1) * 2 ^ 29 + block)

/-- The device's copy of a set in which slot `x` is served by slot x − 8 (R239): the moved trees lie in the Spillway area, and the serving
slot's image gains a window, where it has none, and the extension directory. -/
def ModelSet.extend (m : ModelSet) (x : Nat) : ModelSet :=
  let img := SMap.getD (fun _ => []) m.slots x
  let home := m.imageAt (x - 8)
  let h := slotHead home
  let runs := SMap.getD (fun _ => []) m.runs x
  let ensOf := fun (i : Nat) => ((runs.find? (fun r => decide (r.first ≤ i) && decide (i < r.first + r.count))).bind (fun r => m.ensemble r.ens)).getD {}
  let start := m.spill ++ List.replicate ((32 - m.spill.length % 32) % 32) 0
  let put := (List.range (slotHead img).trees).foldl (fun (a : List DWord × List DWord) i =>
    let d := dirEntry img i
    if d.spill then (a.1, a.2 ++ [nth img (2 + i) 0])
    else
      let n := entryWords m img (ensOf i) d
      (a.1 ++ (img.drop d.root).take n ++ List.replicate ((32 - n % 32) % 32) 0, a.2 ++ [spillEntry d (a.1.length / 32) n])) (start, [])
  let home' := if h.winBase = 0x7FFFF then
      setNth home 0 (BitVec.ofNat 64 ((nth home 0 0).toNat - 0x7FFFF * 2 ^ 37 + h.words * 2 ^ 37)) ++ List.replicate 4096 0
    else home
  { m with slots := (m.slots.put (x - 8) (home' ++ put.2)).del x, spill := put.1, ext := m.ext.put x h.trees
           runs := m.runs.put x (runs.map (fun r => { r with first := r.first + h.trees })) }

/-- A set as the device holds it: on AX7-B the slots 56 to 63 of a set for AX7-A are served by the slots 8 below (R239). -/
def ModelSet.held (m : ModelSet) (gradeB : Bool) : ModelSet :=
  if gradeB && m.grade == 1 then
    ((m.slots.map Prod.fst).filter (fun x => decide (56 ≤ x % 66) && decide (x % 66 < 64))).foldl ModelSet.extend m
  else m

end Sys2Proof.Machine
end

