-- ==== Sys2Proof/Machine/RegRead.lean ====
section
/-! DEFINITION. Reading registers (chapter 21): where an address lies, what each register shows, the words a read latches. A path is 0 for
CONTROL records and 1 for management. -/

namespace Sys2Proof.Machine

/-- The commits in effect now (Table 11.10, R319). -/
def SetInst.commitsNow (x : SetInst) (epoch : Nat) : Nat :=
  (x.changes.filter (fun c => c.kind = 6 && (c.done || decide (c.due ≤ epoch)))).length

/-- Walks the copies of a register from the largest stride down: the index, and the offset left. -/
def walkDims : List (Nat × Nat) → Nat → Nat → Nat × Nat
  | [], off, i => (i, off)
  | (n, st) :: l, off, i =>
    let k := min (off / st) (n - 1)
    walkDims l (off - k * st) (i * n + k)

/-- The copies that one tenant holds. -/
def RegDesc.copies (d : RegDesc) : Nat := (d.dims.map (·.1)).foldl (· * ·) 1

/-- The index and the word of an address in a register (R545). -/
def RegDesc.at_ (d : RegDesc) (addr : Nat) : Option (Nat × Nat) :=
  if addr < d.base then none
  else
    let r := walkDims d.dims (addr - d.base) 0
    if r.2 / 4 < d.words && r.2 % 4 == 0 then some (r.1, r.2 / 4) else none

/-- The register of an address. -/
def locate (addr : Nat) : Option (RegDesc × Nat × Nat) :=
  regTable.findSome? (fun d => (d.at_ addr).map (fun x => (d, x.1, x.2)))

/-- CRC-32 as IEEE 802.3 defines it, bit by bit. -/
def crcBits : Nat → Nat → Nat
  | 0, c => c
  | n + 1, c => crcBits n (if c % 2 = 1 then (c / 2) ^^^ 0xEDB88320 else c / 2)
def crc32 (b : List Byte) : Nat := (b.foldl (fun c x => crcBits 8 (c ^^^ x.toNat)) 0xFFFFFFFF) ^^^ 0xFFFFFFFF

/-- The bytes of a commit record (Table 15.11). -/
def CommitRec.bytes (c : CommitRec) : List Byte :=
  let b := leBytes 4 c.seq ++ leBytes 2 c.flags ++ leBytes 1 c.activeSlot ++ leBytes 1 0 ++ leBytes 4 c.activeSetId ++ leBytes 4 c.activeVersion ++
    leBytes 48 c.activeDigest ++ leBytes 4 c.freeSetId ++ leBytes 4 c.freeVersion ++ leBytes 4 c.targetEn ++ leBytes 4 c.resumeEn ++
    leBytes 4 c.editCount ++ leBytes 4 c.commitCount ++ leBytes 4 c.journalLen ++ List.replicate 32 0
  b ++ leBytes 4 (crc32 b)

/-- The valid copy of a tenant's commit record: the one with the later SEQ, compared modulo 2^32 (R426). -/
def HwTenant.commit (h : HwTenant) : CommitRec :=
  if h.commit0.valid = false then h.commit1
  else if h.commit1.valid = false then h.commit0
  else if 0 < sgn 32 (wrapI 32 ((h.commit1.seq : Int) - h.commit0.seq)) then h.commit1
  else h.commit0

/-- The set last loaded into a half (Table 17.8). -/
def HwTenant.halfSet (h : HwTenant) (half : Nat) : Option ModelSet := nth h.halves half none

/-- DIST_CFG[p] (Table 11.9). -/
def policyWord (p : Policy) : Nat :=
  p.policy + 4 * p.source + 8 * (p.flags % 2) + 16 * b2n p.renorm + 32 * b2n p.minEn + 64 * p.wsrc + 256 * p.cmdlist + 1024 * p.keep +
  2 ^ 15 * p.want + 2 ^ 20

/-- The headline ensemble of R28 (the example of R241) as the one stage of a pipeline without dispatch: 4,096 complete trees of depth 8 with axis
nodes and scalar INT32 leaves over 256 U16 features, span 1, 8 replicas. -/
def ModelSet.headline (m : ModelSet) (p : Pipeline) : Bool :=
  match m.stageEnsembles p with
  | [e] => p.dispatch == 0xFF && !p.stateful && p.featProg == 0xFF && p.finProg == 0xFF && p.ruleTables.all (· == 0xFF) &&
      p.optional.all (· == 0xFF) && m.ftable.length == 256 && m.ftable.all (fun d => featDomain d == 0) && e.leafType == 0 && e.outputs == 1 &&
      e.trees == 4096 && e.nodeWords == 4096 * 511 && e.table.all (fun t => t.depth == 8 && t.vlen == 0) &&
      m.replicas e.index == 8 && (m.tileRows e.index).all (fun r => r.span == 1)
  | _ => false

/-- The parts of a pipeline's service bound that R332 states, in ticks: FABRIC_BOUND where it is stateful and members are on Braid; BATCH_WAIT and C of
each program, in hub cycles at the nominal 1,400 MHz, of the hub die with the longer BATCH_WAIT; L + SETTLE_ADD + 64 under a dispatch policy other
than NONE. -/
def State.lockParts (s : State) (m : ModelSet) (x : Pipeline) : Nat :=
  let wait := max (s.fld .veCfg 0 0 7 0) (s.fld .veCfg 1 0 7 0)
  let progs := ((m.featProg x.featProg).toList ++ (m.finProg x.finProg).toList).map (fun q => wait + q.cost)
  let policy := (m.policyAt x.dispatch).any (fun p => p.policy != 0)
  (if x.stateful && s.rd .braidCfg 0 0 % 2 ^ 13 != 0 then s.fabricBound else 0) + (progs.sum * 10 + 13) / 14 +
  (if policy then s.epochLen + s.fld .distSettle 0 0 15 0 + 64 else 0)

/-- The Lockstep service bound of a pipeline of a set (R332). For the headline ensemble on a board of four (the default fence) it is what R332 states;
else the stated parts, and a free value for the rest of the pipeline's way (log 94). -/
def State.lockBound (s : State) (m : ModelSet) (p : Nat) : Nat :=
  match m.pipeline p with
  | none => 0
  | some x =>
    if m.headline x = true ∧ s.rd .timeFence 0 0 = regReset .timeFence 0 0 ∧ s.rd .timeCfg 0 0 = regReset .timeCfg 0 0 then
      (if s.fuse.grade = 2 then 2100 else 1800)
    else (s.lockParts m x + Config.lockMin s.fuse.grade m.digest p) % 2 ^ 32

/-- RELEASE_ADD is below a service bound of an active set (R333). -/
def State.short (s : State) : Bool :=
  s.lockstep && s.head.tenants.any (fun h =>
    match h.active with
    | some i => i.set.pipelines.any (fun p => decide (s.fld .timeLock 0 0 15 0 < s.lockBound i.set p.pipe))
    | none => false)

/-- The match searches per record of a pipeline. DESIGN CHOICE (log 93): a rule table counts as one search, of however many units. -/
def State.searches (m : ModelSet) (p : Pipeline) : Nat :=
  (p.ruleTables.filter (· ≠ 0xFF)).length +
  (match m.cascade p.cascade with
   | none => 0
   | some c => (c.stages.map (fun st =>
      ((m.unitRows st.ensemble).map (fun r => if r.last + 1 < r.first then 0 else r.last + 1 - r.first)).sum)).sum)

/-- A physical row (Table 2.12). -/
def physRow (logical unit reason : Nat) : List Byte :=
  leBytes 1 4 ++ leBytes 1 0 ++ leBytes 2 logical ++ leBytes 2 unit ++ leBytes 1 reason ++ List.replicate 9 0

/-- The rows of a placement report (R58, R562, Table 2.12): header, pipelines with the rates that held when the set was placed, placement, then a row for each slot and match unit of the tenant's dies
that another unit than the original serves (R15, R274), and for each slot of R239. -/
def State.reportRows (s : State) (t : Nat) (i : SetInst) (phys : Bool) : List (List Byte) :=
  let m := i.set
  let v := i.rate
  let pipes := (m.pipelines.filter Pipeline.valid).map (fun p =>
    let b := m.predicted v p
    leBytes 1 2 ++ leBytes 1 p.pipe ++ leBytes 1 b.unit ++ leBytes 1 0 ++
    leBytes 4 b.mega ++ leBytes 4 (m.laneOps p) ++ leBytes 2 (State.searches m p) ++ leBytes 2 0)
  let stands := if phys then (s.tenantDies t).flatMap (fun d =>
      (List.range 64).filterMap (fun sl => match s.slotTile d sl with
        | some k => if k = sl then none else some (physRow (66 * d + sl) (66 * d + k) 1)
        | none => none) ++
      (List.range 8).filterMap (fun l => match s.muUnit d l with
        | some k => if k = l then none else some (physRow (9 * d + l) (9 * d + k) 1)
        | none => none)) else []
  let moved := m.ext.map (fun x => physRow x.1 0xFFFF 0)
  let body := pipes ++ m.rows.map rowBytes ++ stands ++ moved
  (leBytes 1 1 ++ leBytes 1 i.half ++ leBytes 1 i.outcome ++ leBytes 1 m.grade ++ leBytes 4 m.setId ++ leBytes 4 m.version ++
    leBytes 4 (body.length + 1)) :: body

/-- A word of block 0x1A (R562). -/
def State.viewWord (s : State) (t addr : Nat) : Nat :=
  let off := addr % 2 ^ 24
  let h := s.hwT t
  let view := fun (i : Option SetInst) (phys : Bool) (o : Nat) =>
    match i with
    | none => 0
    | some i => leAt (nth (s.reportRows t i phys) (o / 16) []) (o % 16) 4
  if off < 2 ^ 20 then view h.active true off
  else if off < 2 ^ 21 then view h.shadow false (off - 2 ^ 20)
  else 0

/-- The sets that stand in the halves of a tenant's units. -/
def HwTenant.loaded (h : HwTenant) : List SetInst := h.active.toList ++ h.old.toList ++ h.shadow.toList

/-- TILE_STATt (Table 8.10). DEDUCED (log 83): the slot a tile stands for shows once a set that stands in memory has an image for it; at reset no
tile shows one. -/
def State.tileWord (s : State) (d t : Nat) : Nat :=
  let u := s.tile d t
  let h := s.hwT (s.dieOwner d)
  let fused := s.tileFused d t
  let img := fun (i : SetInst) (sl : Nat) => SMap.getD (fun _ => []) i.set.slots (66 * d + sl)
  let used := match h.active, u.held with
    | some i, some sl => decide (u.state = 0) && !(img i sl).isEmpty
    | _, _ => false
  let spill := match h.active with
    | some i => decide (u.state = 0) && (u.held.toList ++ u.hosted.toList).any (fun sl => !(img i sl).isEmpty && !(spillBlocks i.set (66 * d + sl)).isEmpty)
    | none => false
  let held := match u.held with
    | some sl => if u.state ≠ 3 ∧ h.loaded.any (fun i => !(img i sl).isEmpty) = true then some sl else none
    | none => none
  u.state + 4 * b2n fused + 8 * b2n (used && (match h.active with | some i => i.full | none => false)) +
  16 * (if used then (match h.active with | some i => i.half | none => 0) else 0) + 32 * held.getD 0 + 2 ^ 11 * b2n held.isSome +
  2 ^ 12 * b2n spill + 2 ^ 13 * b2n u.hosted.isSome + 2 ^ 14 * u.hosted.getD 0

/-- MU_STATm (Table 9.10), as `tileWord`. -/
def State.muWord (s : State) (d m : Nat) : Nat :=
  let u := s.mu d m
  let h := s.hwT (s.dieOwner d)
  let img := fun (i : SetInst) (l : Nat) => i.units.find? (9 * d + l)
  let mine : Option MuImage := match h.active, u.held with
    | some i, some l => img i l
    | _, _ => none
  let guest : Option MuImage := match h.active, u.hosted with
    | some i, some l => img i l
    | _, _ => none
  let held := match u.held with
    | some l => if u.state ≠ 3 ∧ h.loaded.any (fun i => (img i l).isSome) = true then some l else none
    | none => none
  let full := match h.active with | some i => i.full | none => false
  let tables := (mine.toList ++ guest.toList).flatMap (fun (g : MuImage) =>
    ((g.selectors : List SelEntry).filter (fun (x : SelEntry) => x.kind == 1)).map SelEntry.index)
  let editing := match h.active with | some i => tables.any (fun t => (i.openEdit t).isSome) | none => false
  let paired := match h.active, u.held with
    | some i, some l => i.set.pairFirst (9 * d + l) || (decide (0 < l) && i.set.pairFirst (9 * d + l - 1))
    | _, _ => false
  let taken := match mine with | some g => (g.entries.filter (fun e => !e.2.free)).length | none => 0
  u.state + 4 * b2n (mine.isSome && full) + 8 * (if mine.isSome then (match h.active with | some i => i.half | none => 0) else 0) +
  16 * held.getD 0 + 2 ^ 8 * b2n held.isSome + 2 ^ 9 * b2n paired + 2 ^ 10 * b2n u.hosted.isSome +
  2 ^ 11 * u.hosted.getD 0 + 2 ^ 15 * b2n editing +
  2 ^ 16 * (if h.active.isSome ∧ u.state ≠ 3 then (if full then 8192 else 4096) - taken else 0)

/-- VE_STATv (Table 7.15). DEDUCED (log 83): a spare shows as one from boot step 6 on, when the block answers; its reset value is 0. -/
def State.veWord (s : State) (h v : Nat) : Nat :=
  match (s.veHub h).runs.find? v with
  | some r => 1 + 4 * r.half + 8 * (r.kind - 1) + 16 * r.prog.index + 2 ^ 10 * r.recs.length
  | none => match (s.engine h v).state with | 0 => 0 | 3 => 3 | _ => if s.head.step < 6 then 0 else 2

/-- EDDY_PART_STAT[p] (Table 6.16): an area is cleared while its tenant is scrubbed or a drain swap is placed. CACHE_HOT is free once the
block answers; its reset value is 0. -/
def State.partWord (s : State) (p : Nat) : Nat :=
  let st := if p ∈ s.eddy.lost then 1 else if s.eddy.imports ≠ [] then 3
    else if s.mem.scrubs ≠ [] ∨ s.head.tenants.any HwTenant.placing then 2 else 0
  st + 4 * b2n (decide (p ∈ s.eddy.applied) && Config.cacheHot p s.now) +
  8 * min 0x1FFFF ((s.eddy.queues.map (fun q => (q.filter (fun x => x.q.part == p)).length)).sum)

/-- WSM_STATd (Table 10.4). -/
def State.wsmWord (s : State) (d : Nat) : Nat :=
  let h := s.hwT (s.dieOwner d)
  let serves := fun (b : Nat) => (h.active.toList ++ h.old.toList).any (fun i => i.half == b)
  s.bankUsed d 0 + 2 ^ 13 * s.bankUsed d 1 + 2 ^ 26 * b2n (serves 0) + 2 ^ 27 * b2n (serves 1)

/-- FETCH_STREAM_STATs and the words of FETCH_DESCs (Tables 5.14 and 5.4). -/
def State.streamWord (s : State) (h st : Nat) : Nat :=
  match s.stream? h st with
  | none => 0
  | some x => x.state + 8 * b2n x.rearm.isSome + 16 * (x.gen % 16) + 2 ^ 8 * s.inflight h st
def StreamDesc.bytes (d : StreamDesc) : List Byte :=
  leBytes 1 d.kind ++ leBytes 1 d.persist ++ leBytes 1 d.pipe ++ leBytes 1 (d.stage + 8 * d.cascade) ++ leBytes 1 d.group ++ leBytes 1 d.engine ++
  leBytes 2 (d.sem + 2 ^ 15 * b2n d.semEn) ++ leBytes 8 d.base ++ leBytes 4 d.count ++ leBytes 2 d.maxInflight ++ leBytes 2 d.dieBlocks ++
  leBytes 8 0

/-- SLU_BARSTATb, SLU_DBARSTATk, SLU_QSTATq (Tables 13.8 to 13.10). -/
def State.barWord (s : State) (b : Nat) : Nat :=
  let x := s.bar b
  x.gen + 4 * x.counted.length + 2 ^ 8 * x.held.length + 2 ^ 14 * b2n x.releasing
def State.dbarWord (s : State) (k : Nat) : Nat :=
  let x := s.bar (160 + k)
  let now := x.msgs.filter (fun m => m.1 == x.gen)
  x.gen + 4 * x.counted.length + 2 ^ 10 * now.length + 2 ^ 24 * b2n (!x.held.isEmpty || x.msgs.any (fun m => m.1 != x.gen))
def State.queWord (s : State) (q : Nat) : Nat :=
  let x := s.que q
  let c := x.cmds.headD {}
  let st := if x.halted then 6 else if s.queHeld q then 7 else if x.cmds = [] then 0 else
    match x.wait with
    | .none => 1
    | .sem => 2
    | .bar _ => 3
    | .held _ => 3
    | .bt => 4
    | .rearm => 5
    | .credit => 5
    | .link => 5
  let b := barKey q c.id
  let g := match x.wait with
    | .bar g => g
    | .held g => g
    | _ => if c.op = 5 ∨ c.op = 6 then (s.bar b).gen + b2n ((s.bar b).counted.contains (barPort q b)) else 0
  if x.cmds = [] then st
  else st + 8 * c.op + 2 ^ 11 * (c.id % 1024) + 2 ^ 21 * (g % 4) + 2 ^ 23 * x.cmds.length

/-- SLU_SEMi (Table 13.7). -/
def State.semWord (s : State) (i : Nat) : Nat :=
  let x := s.sem i
  x.count + 2 ^ 16 * b2n x.ovf + 2 ^ 17 * b2n x.unf + 2 ^ 18 * b2n x.peerEn + 2 ^ 19 * b2n x.peerDec + 2 ^ 20 * x.waiters.length

/-- BRAID_PORT_STATn (Table 14.14). DEDUCED (log 112): a port that waits in step 1 after a failure shows the step that failed. -/
def State.brWord (s : State) (b : Nat) : Nat :=
  let x := s.brPort b
  let st := if x.step = 1 ∧ x.failedStep ≠ 0 then x.failedStep else x.step
  st + 8 * b2n x.peerMember + 16 * x.peerDevice + 2 ^ 17 * x.peerPort + 2 ^ 21 * x.endpoints + 2 ^ 30 * b2n x.detour

/-- MEM_KEY_STATo and MEM_STACK_STATs (Table 16.9). -/
def State.keyWord (s : State) (o : Nat) : Nat :=
  let r := match s.mem.rotation with | some r => r.owner == o | none => false
  let p := match s.mem.rotation with | some r => r.owner == o && r.paused | none => false
  nth s.mem.curGen o 0 + 2 * b2n r + 4 * b2n p + 8 * b2n (decide (o < 4) && s.mem.scrubs.contains o)
def StackSt.word (k : StackSt) : Nat :=
  k.state + 4 * b2n k.unmirrored + 8 * b2n k.spareOut + 16 * min 255 k.sppr + 2 ^ 12 * (k.temp % 256)

/-- SEC_STAT (Table 17.10). -/
def State.secWord (s : State) : Nat :=
  b2n s.sec.approved + 2 * b2n s.sec.error + 4 * b2n s.sec.owner.isSome + 8 * b2n s.sec.tenancy + 16 * s.sec.sigPolicy + 64 * s.sec.minSlots +
  2 ^ 13 * s.sec.keys.length + 2 ^ 21 * b2n s.sec.fallback + 2 ^ 22 * b2n s.sec.pending.isSome

/-- The unit that a path's REL_UNIT_SEL names, and its window (Table 18.8). -/
def State.unitSel (s : State) (path : Nat) : Nat := s.rd .relUnitSel path 0 % 65536
def State.winWord (s : State) (u : Nat) : Nat :=
  let w := s.win u
  (if w.opened then min w.c 255 + 2 ^ 8 * min w.x 15 + 2 ^ 12 + 2 ^ 14 * min 0x3FFFF ((s.now - w.start) / 2 ^ 22) else 0) + 2 ^ 13 * b2n w.lasting

/-- GAUGE_TEMPd (Table 20.7): failed diodes are left out (R539). -/
def State.gaugeWord (s : State) (d : Nat) : Nat :=
  let ds := SMap.getD (fun _ => []) s.mgmt.gauge d
  let ok := ds.filterMap id
  if ok = [] then 0
  else
    let hot := ok.foldl max (ok.headD 0)
    let i := (ds.takeWhile (fun x => x != some hot)).length
    wrapI 8 hot + 2 ^ 8 * i + 2 ^ 13 * wrapI 8 (ok.sum / (ok.length : Int))

/-- PWR_STAT (Table 19.11). -/
def State.powerWord (s : State) : Nat :=
  s.power.pAvg % 4096 + 2 ^ 12 * (s.power.pMand % 4096) + 2 ^ 24 * b2n s.power.thermalCap +
  2 ^ 25 * (s.power.dies.map DieHeat.stage).foldl max 0 + 2 ^ 27 * b2n (s.mem.stk.any StackSt.hot)

/-- The lane cycles of a tile that no other counter of Table 8.8 counts: those of IDLE_NOWORK_CNT (R250). -/
def State.noWork (s : State) (k : Nat) : Nat :=
  128 * (s.heat (k / 528)).run + SMap.getD (fun _ => 0) s.die.lanes (k / 8) - ([0, 2, 3, 4, 5].map (fun j => let c := s.cnt .cntTileCnt (k / 8 * 8 + j); c % 2 ^ 48 + c / 2 ^ 48 * 2 ^ 48)).sum
/-- A performance counter as it reads: VALUE, and WRAP in bit 48 (Table 20.5). What is held of IDLE_NOWORK_CNT is the wraps that have been cleared. -/
def State.cntWord (s : State) (n : RegName) (k : Nat) : Nat :=
  if n = .cntTileCnt ∧ k % 8 = 6 then s.noWork k % 2 ^ 48 + 2 ^ 48 * b2n (decide (s.cnt n k < s.noWork k / 2 ^ 48)) else s.cnt n k

/-- The tenants of a bit field. -/
def tenantBits (p : Nat → Bool) : Nat := bitmap ((List.range 4).map p)

/-- TIME_STAT (Table 4.15). -/
def State.timeWord (s : State) : Nat :=
  s.time.state + 4 * b2n s.time.isRoot + 8 * b2n s.time.onAlt + 16 * b2n (s.time.isRoot && s.time.ptpLocked) +
  32 * (if s.time.isRoot then 15 else s.parentPort.getD 15) + 2 ^ 9 * wrapI 8 (clampI (-127) 127 s.time.offset) +
  2 ^ 17 * b2n (decide (16 ≤ s.weir.live.length))

/-- A tenant is frozen now (R135, R410): all are until the end of boot step 6, and tenants 1 to 3 always with tenancy off. -/
def State.showFrozen (s : State) (t : Nat) : Bool :=
  decide (s.head.step ≤ 6) || (decide (0 < t) && !s.tenancy) || s.frozenAt t s.epoch
def State.showDrained (s : State) (t : Nat) : Bool :=
  decide (s.head.step ≤ 6) || (decide (0 < t) && !s.tenancy) || (s.freezeOf t).drained

/-- The value last written to PWR_VCFGn or PWR_CLK_CFG (10) that waits for a stretch to end (R524); the register reads so. -/
def State.heldWrite (s : State) (d : Nat) : Option Nat := (s.power.held.find? (fun x => x.1 == d)).map Prod.snd

/-- A word of a register as it stands (`copy` counts the tenants' copies too). WO fields read 0. -/
def State.show (s : State) (path : Nat) (n : RegName) (copy word : Nat) : Nat :=
  let per := (regDesc n).copies
  let t := copy / per
  let i := copy % per
  let half := fun (m : Nat) => (s.hwT t).halfSet (i / m)
  match n with
  | .topId => 0x0A771100 + 16 * s.fuse.grade
  | .tribSess => if word = 1 then s.rd n copy 1 % 65536 + 65536 * (nth s.trib.sessions copy []).length else s.rd n copy 0
  | .tribPortStat =>
    let x := s.port copy
    b2n x.up + 2 * b2n (s.rqLevel copy == 0) + 4 * s.rqLevel copy +
    2 ^ 15 * b2n (match x.txSa with | some a => a.live | none => false)
  | .attnCause => s.attnCause t
  | .timeBt => bits s.now (32 * word + 31) (32 * word)
  | .timeFenceEff => s.fence
  | .timeStat => s.timeWord
  | .timeWall => bits (wrapI 64 s.time.wall) (32 * word + 31) (32 * word)
  | .weirEnergy => match (s.hub copy).credit with | none => 0xFFFFFFFF | some c => c
  | .weirEnergyLeft => match (s.hub copy).energyLeft with | none => 0xFFFFFFFF | some c => c / 1024
  | .weirThrottle => b2n (s.hub copy).throttle + 2 * (s.hub copy).rate
  | .weirStat => tenantBits s.showFrozen + 16 * tenantBits s.showDrained + 256 * b2n (s.hub copy).throttled
  | .weirOptCost =>
    match (s.hwT t).halfSet (s.hwT t).lastHalf with
    | some m => (match m.ensemble i with | some e => if e.isOptional then optCost m i else 0 | none => 0)
    | none => 0
  | .fetchRearm => 0
  | .fetchStreamStat => s.streamWord (i / 512) (i % 512)
  | .fetchDesc => match s.stream? (i / 512) (i % 512) with | some x => leAt x.desc.bytes (4 * word) 4 | none => 0
  | .eddyKey => 0
  | .eddyKeyChk => keyCheck (s.domKey t)
  | .eddyPartStat => s.partWord i
  | .veStat => s.veWord (i / 34) (i % 34)
  | .tileStat => s.tileWord (i / 66) (i % 66)
  | .muStat => s.muWord (i / 9) (i % 9)
  | .wsmStat => s.wsmWord i
  | .accFxInexact =>
    match half 64 with
    | some m => (match m.ensemble (i % 64) with | some e => sat32 (fxInexact e) | none => 0)
    | none => 0
  | .distStat =>
    let open' := fun (b : Nat) => s.dist.open_.any (fun x => x.tenant == t && s.origEpoch t x.epoch % 2 == b)
    b2n (s.head.launches.any (fun l => l.tenant == t && l.kind == 6 && !l.missed)) + 2 * b2n (open' 0) + 4 * b2n (open' 1)
  | .distCommitCnt => match s.active t with | some x => x.commitsNow s.epoch | none => 0
  | .distCfg => match half 16 with | some m => (match m.policyAt (i % 16) with | some p => policyWord p | none => 0) | none => 0
  | .detStat => b2n s.short + 2 * tenantBits (fun t => (s.capOf t).session.isSome)
  | .detLockMin => match half 256 with | some m => s.lockBound m (i % 256) | none => 0
  | .capWr => bits ((s.capOf t).wr % 2 ^ 48) (32 * word + 31) (32 * word)
  | .capRd => bits ((s.capOf t).rd % 2 ^ 48) (32 * word + 31) (32 * word)
  | .sluSem => s.semWord i
  | .sluBarmask => s.barMask i
  | .sluBarstat => s.barWord i
  | .sluDbarmask => bits (s.barMask (160 + i)) (32 * word + 31) (32 * word)
  | .sluDbarstat => s.dbarWord i
  | .sluQstat => s.queWord i
  | .bwSnap => SMap.getD (fun _ => 0) s.slu.snaps i
  | .braidPortStat => s.brWord i
  | .hwBoot => s.rd n 0 0 % 4 + 4 * b2n s.head.bootedB + 8 * b2n s.head.fallback + 16 * s.fld n 0 0 7 4 + 2 ^ 8 * s.head.step
  | .hwCommit => if (s.hwT t).commit.valid then leAt (s.hwT t).commit.bytes (4 * word) 4 else 0
  | .loadStatus =>
    let h := s.hwT t
    if word = 1 then h.result.word % 2 ^ 32
    else h.result.outcome + 2 ^ 8 * h.loadState + 2 ^ 10 * h.lastHalf + 2 ^ 11 * h.result.row + 2 ^ 16 * h.result.part + 2 ^ 20 * h.result.index
  | .memScrubStat =>
    let x := s.scrubShow
    x.1 + 8 * x.2.1 + 64 * b2n s.mem.restarted + 128 * b2n s.mem.erased
  | .memScrubProg =>
    let x := s.scrubShow
    bits (x.2.2.1 % 2 ^ 21 + 2 ^ 21 * (x.2.2.2 % 2 ^ 21)) (32 * word + 31) (32 * word)
  | .memKeyStat => s.keyWord i
  | .memStackStat => (nth s.mem.stk i {}).word
  | .secStat => s.secWord
  | .relUnitSel => s.unitSel path
  | .relUnitWin => s.winWord (s.unitSel path)
  | .relUnitCtl => 0
  | .relDielinkStat => bitmap ((List.range 17).map (s.rel.dieLinks.contains ·))
  | .relDeg => s.degBits t
  | .cntRelCnt => let c := s.cnt .cntRelCnt (s.unitSel path * 2 + i); bits c (32 * word + 31) (32 * word)
  | .pwrVcfg => (s.heldWrite i).getD (s.rd n copy 0)
  | .pwrClkCfg => (s.heldWrite 10).getD (s.rd n copy 0)
  | .pwrVstat => let x := s.sup i; x.setpoint + 128 * b2n x.stretched + 256 * (x.imeas % 4096) + 2 ^ 20 * b2n x.raisedAt.isSome
  | .pwrRef => b2n s.power.ref.red + 2 * b2n s.power.ref.mainOk + 4 * b2n s.power.ref.redOk + 8 * s.fld n 0 0 3 3
  | .pwrStat => s.powerWord
  | .pwrRstCause => s.power.resetCause + 16 * s.power.causeDomain + 256 * s.power.causeUnit
  | .mgmtCtl => 0
  | .mgmtId => Config.iana % 2 ^ 32
  | .mgmtStat => b2n (decide (s.head.step ≤ 4)) + 2 * b2n s.mgmt.i3cDyn + 4 * (s.mgmt.i3cAddr % 128) + 2 ^ 9 * b2n (decide (1 ≤ s.mgmt.fwup.state)) +
      2 ^ 10 * b2n s.mgmt.fwup.pending + 2 ^ 11 * b2n s.mgmt.link
  | .mgmtAttn => tenantBits s.attn
  | .mgmtEvtHead => bits s.trib.evtSeq (32 * word + 31) (32 * word)
  | .evtlog =>
    match s.trib.evtLog.find? i with
    | some e => leAt (leBytes 8 e.seq ++ leBytes 8 e.stamp ++ eventPayload e) (4 * word) 4
    | none => 0
  | .gaugeTemp => s.gaugeWord i
  | n => if (regDesc n).cnt then bits (s.cntWord n copy) (32 * word + 31) (32 * word) else s.rd n copy word

/-- The key of a path's latch of a register. -/
def latchKey (path : Nat) (n : RegName) (copy : Nat) : Nat := path * 2 ^ 48 + regKey n copy 0

/-- A read of word 0 of a register of several words latches the others for the path (R95, R551, R552). -/
def State.latchWords (s : State) (path : Nat) (d : RegDesc) (copy word : Nat) : State :=
  if d.words = 1 ∨ word ≠ 0 then s
  else
    let ws := (List.range d.words).map (s.show path d.name copy)
    { s with mgmt := { s.mgmt with latch := s.mgmt.latch.put (latchKey path d.name copy) ws } }

/-- The copy of a register that a tenant's command reaches. -/
def RegDesc.copyFor (d : RegDesc) (tenant i : Nat) : Nat := if d.tenant then tenant * d.copies + i else i

/-- A block that answers now (R554). -/
def State.answers (s : State) (block : Nat) : Bool :=
  block == 0 || block == 0x12 || block == 0x17 || block == 0x18 || block == 0x19 || decide (6 ≤ s.head.step)

/-- A read of one word (R547, R550, R551, R554): the word and the state, or a result code and DETAIL. -/
def State.readWord (s : State) (path tenant addr : Nat) : Except (Nat × Nat) (Nat × State) :=
  let block := addr / 2 ^ 24
  if 0x1A < block then .error (rcOk, 0x17)
  else if s.answers block = false then .error (rcNotReady, 1)
  else if block = 0x1A then
    if addr % 2 ^ 24 < 2 ^ 21 && !s.tenancy && tenant != 0 then .error (rcOk, 0x17) else .ok (s.viewWord tenant addr, s)
  else
    match locate addr with
    | none => .ok (0, s)
    | some (d, i, w) =>
      if d.path = .mgmtRead ∧ path = 0 then .error (rcOk, 0x17)
      else if d.tenant && !s.tenancy && tenant != 0 then .error (rcOk, 0x17)
      else
        let c := d.copyFor tenant i
        let s := s.latchWords path d c w
        match (if d.words = 1 then none else s.mgmt.latch.find? (latchKey path d.name c)) with
        | some ws => .ok (nth ws w 0, s)
        | none => .ok (s.show path d.name c w, s)

/-- WORD0_READ_LATCH (R551, R552): a read of word 0 latches the other words of the register for the path. -/
def execWord0ReadLatch (path tenant addr : Nat) (s : State) : Out :=
  match s.readWord path tenant addr with
  | .ok (_, s) => .next s
  | .error _ => .next s

end Sys2Proof.Machine
end

