-- ==== Sys2Proof/Machine/RegWrite.lean ====
section
/-! DEFINITION. Writing registers (R9 to R12, R546 to R552): masked writes, what each register refuses, what a write sets going, staging of
registers of several words. -/

namespace Sys2Proof.Machine

/-- Every tenant's bit in WEIR_STAT.DRAINED, and in WEIR_STAT.FROZEN, is set. -/
def State.allDrained (s : State) : Bool := (List.range 4).all s.showDrained
def State.allFrozen (s : State) : Bool := (List.range 4).all s.showFrozen

/-- The largest Lockstep service bound of the active sets with its pipeline, and RELEASE_ADD (R333). -/
def State.worstBound (s : State) : Nat × Nat :=
  let l := s.head.tenants.flatMap (fun h =>
    match h.active with
    | some i => i.set.pipelines.map (fun p => (s.lockBound i.set p.pipe, p.pipe))
    | none => [])
  l.foldl (fun b x => if b.1 < x.1 then x else b) (0, 0)

/-- Raises DET_RELEASE_SHORT where a change has brought the condition or changed either of its values (R333). -/
def State.noteShort (old s : State) : State :=
  let b := s.worstBound
  let add := s.fld .timeLock 0 0 15 0
  if s.short && (!old.short || old.worstBound.1 != b.1 || old.fld .timeLock 0 0 15 0 != add) then
    s.event 0x0C00 b.2 0xFF (detailOf [(4, b.1), (4, add)])
  else s

/-- The number of live epochs that the time parameters allow stays within 16 (R114). -/
def liveFits (epochLog2 ingress fabric add : Nat) : Bool := decide ((ingress + fabric + 256 + add - 1) / 2 ^ epochLog2 + 2 ≤ 16)

/-- A write of a time parameter has taken effect (R101, R126): the root is ROOT again, and a device that it makes root is LOCKED at once unless it
is in ACQUIRE (Table 4.1). -/
def State.timeWritten (s : State) : State :=
  let s := { s with time := { s.time with onAlt := false, isRoot := false } }
  let e := s.epoch
  let s := { s with time := { s.time with started := e }, weir := { s.weir with live := s.weir.live.filter (fun x => decide (x ≤ e)) } }
  s.rootTakesOver.noteDegraded

/-- Stage buffer entries that all cascades of the active sets take on a hub die, with depth `d` for cascade `c` of tenant `t` (Table 5.12). -/
def State.depthSum (s : State) (t c d : Nat) : Nat :=
  ((List.range 4).map (fun u =>
    match s.active u with
    | none => 0
    | some i => (i.set.cascades.map (fun x =>
        (x.nstages - 1) * (if u = t ∧ x.index = c then d else s.fld .weirCascade (32 * u + x.index) 0 14 0))).sum)).sum

/-- A word of a single-word register may take a value (Tables of the subject chapters; R12). `v` is the value of its RW fields after the
write. DESIGN CHOICE (log 74): a write of EDDY_HOMEn with MIRROR_EN 1 and MIRROR equal to PRIMARY is refused, and one of SLU_QCFGq of a hub queue with
GROUP 32 to 62. -/
def State.legal (s : State) (n : RegName) (t i copy v : Nat) : Bool :=
  let f := fun (hi lo : Nat) => bits v hi lo
  let old := s.rd n copy 0
  let inr := fun (x lo hi : Nat) => decide (lo ≤ x) && decide (x ≤ hi)
  match n with
  | .tribCfg => f 1 0 != 3 && f 31 16 != 0
  | .tribJrf => f 15 0 != 0
  | .tribReply => inr (f 13 0) 1518 9216 && f 31 16 != 0
  | .tribPortCfg =>
    f 11 10 != 3 && (f 11 10 != 2 || f 14 12 != f 17 15) &&
    (!bit old 0 || (f 3 3 == bits old 3 3 && f 5 4 == bits old 5 4 && f 11 10 == bits old 11 10))
  | .tribPortPfc =>
    s.portCfg i 0 0 == 0 && decide (f 7 0 + f 15 8 ≤ 56) && decide (0 < f 31 24) && decide (f 31 24 < f 23 16) && decide (f 23 16 ≤ 60)
  | .tribMacsec => decide (v ≤ 2 ^ 30)
  | .timeCfg => s.allFrozen && inr (f 4 0) 9 16 && !(bit v 31 && f 17 5 == f 30 18) && liveFits (f 4 0) s.ingressBound s.fabricBound (s.fld .timeLock 0 0 15 0)
  | .timeFence => s.allFrozen && f 15 0 != 0 && (f 31 16 != 0 || s.rd .braidCfg 0 0 % 2 ^ 13 == 0) &&
      liveFits s.epochLog2 (f 15 0) (f 31 16) (s.fld .timeLock 0 0 15 0)
  | .timeLock => s.allFrozen && liveFits s.epochLog2 s.ingressBound s.fabricBound (f 15 0)
  | .timeLaunch => v != 0
  | .timePtp => f 6 5 != 3
  | .weirCfg => f 11 0 != 0
  | .weirDrain => v != 0
  | .weirCascade => decide (f 14 0 ≤ 16384) && decide (s.depthSum t i (f 14 0) ≤ 16384)
  | .eddyCfg => v != 0
  | .eddyHomeGen => s.showDrained t
  | .eddyHome => s.showDrained t && !(bit v 15 && f 12 0 == f 28 16)
  | .veCfg => f 7 0 != 0
  | .muDieCfg => decide (2 ≤ f 7 0) && decide (64 ≤ f 23 8)
  | .distSettle => s.allDrained
  | .detCfg => f 0 0 == bits old 0 0 || s.allDrained
  | .capSize =>
    s.fld .capCfg t 0 0 0 == 0 && (!s.tenancy || decide (v ≤ 256)) &&
    decide (((List.range 4).map (fun x => if x = t then v else s.fld .capSize x 0 10 0)).sum ≤ 1024)
  | .sluDbarwarn => v != 0
  | .sluQcfg => decide (64 ≤ i) || decide (f 6 1 ≤ 31) || f 6 1 == 63
  | .bwCfg => inr (f 5 1) 12 24
  | .braidCfg => s.allDrained && (List.range 12).all (fun b => s.fld .braidPortCfg b 0 0 0 == 0)
  | .braidId =>
    let c := s.rd .braidCfg 0 0
    s.allDrained && (List.range 12).all (fun b => s.fld .braidPortCfg b 0 0 0 == 0) && decide (f 4 0 ≤ bits c 4 0) && decide (f 8 5 ≤ bits c 8 5) &&
    decide (f 12 9 ≤ bits c 12 9)
  | .braidMcast => f 23 0 != 0 && inr (f 31 24) 1 128
  | .braidAtt => v != 0
  | .braidPortCfg =>
    f 2 1 != 3 && !(f 2 1 == 0 && s.torusLen (portDim i) == 1) && (!bit old 0 || (f 2 1 == bits old 2 1 && f 5 4 == bits old 5 4))
  | .braidMgroup =>
    let c := s.rd .braidCfg 0 0
    decide (f 4 0 ≤ f 9 5) && decide (f 13 10 ≤ f 17 14) && decide (f 21 18 ≤ f 25 22) && decide (f 9 5 ≤ bits c 4 0) &&
    decide (f 17 14 ≤ bits c 8 5) && decide (f 25 22 ≤ bits c 12 9)
  | .hwBoot => f 1 0 != 3
  | .hwCfg => f 15 0 != 0 && f 31 16 != 0
  | .loadCfg => decide (v ≤ 32)
  | .memEddyShare => s.allDrained && decide (((List.range 4).map (fun x => if x = t then v else s.rd n x 0)).sum ≤ 84)
  | .memSweepCfg => inr v 1 32
  | .memPprCfg => f 3 0 != 0
  | .relCfg => inr (f 5 0) 20 40 && f 9 6 != 0 && f 13 10 != 0 && f 21 14 != 0
  | .relUnitSel => unitNamed v
  | .pwrVcfg => decide (20 ≤ f 14 8) && decide (f 14 8 ≤ f 6 0) && decide (f 6 0 ≤ f 22 16) && decide (f 22 16 ≤ 70)
  | .pwrClkCfg => s.allDrained && inr (f 11 0) 800 1800 && f 11 0 % 25 == 0 && inr (f 24 13) (f 11 0) 1800
  | .pwrDroop => decide (16 ≤ f 9 2)
  | .pwrCap => (f 15 0 == 0 || inr (f 15 0) 500 s.tdp) && inr (f 19 16) 2 10
  | .pwrShed => f 7 0 != 0 && decide (f 19 8 < s.capWatts)
  | .mgmtCfg => f 31 16 != 0
  | _ => true

/-- A change of a port's tenant zeroises its MACsec keys (R476); a port that is disabled goes down. -/
def State.putPortCfg (s : State) (p v : Nat) : State :=
  let old := s.rd .tribPortCfg p 0
  let s := s.wr .tribPortCfg p 0 v
  let x := s.port p
  let x := if bit v 0 then x else { x with up := false, pausedA := 0, pausedB := 0 }
  if bits old 5 4 = bits v 5 4 then s.setPort p x
  else { (s.setPort p { x with txSa := none, rxSa := [], keyChange := false }) with sec := { s.sec with caks := s.sec.caks.del p } }

/-- A Braid port is enabled, which starts its bring-up, or disabled (Table 14.2). -/
def State.putBraidPort (s : State) (b v : Nat) : State :=
  let old := s.rd .braidPortCfg b 0
  let s := s.wr .braidPortCfg b 0 v
  let s := if bits old 5 4 = bits v 5 4 then s else { s with sec := { s.sec with caks := s.sec.caks.del (64 + b) } }
  let again := bit v 0 && (!bit old 0 || (s.brPort b).step == 7)
  if again then s.setBrPort b { s.brPort b with step := if (s.win (0xB000 + b)).lasting then 0 else 1, stepAt := s.now, failedStep := 0 }
  else if bit v 0 = bit old 0 then s
  else
    let s := if (s.brPort b).step = 6 then s.brDown b 9 else s
    s.setBrPort b { s.brPort b with step := 0 }

/-- MEM_EDDY_SHAREn takes a value (R439): tenants whose region changes are scrubbed. -/
def State.putShare (s : State) (t v : Nat) : State :=
  let was := (List.range 4).map s.eddyRegion
  let s := s.wr .memEddyShare t 0 v
  (List.range 4).foldl (fun s x => if nth was x (0, 0) = s.eddyRegion x then s else s.startScrub x) s

/-- SLU_QCFGq takes a value: the tick is the queue's arming tick, and an enabled queue runs what waits in it. -/
def State.putQcfg (s : State) (q v : Nat) : State :=
  let was := s.queEn q
  let s := s.wr .sluQcfg q 0 (if q < 64 then v else v % 2)
  if bit v 0 then
    let s := s.setQue q { s.que q with armed := s.now }
    if was then s else s.runQueue q 256
  else s

/-- Clears latched causes of one copy; a cause whose condition is still present is set again (R10, R89). -/
def State.clearCauses (s : State) (t w1 : Nat) : State :=
  let keep := (if s.power.supply.any SupplySt.warn then [attnSupply] else []) ++ (if (s.capOf t).loss.isSome then [attnCaptureFull] else [])
  s.wr .attnCause t 0 ((List.range 17).foldl (fun v c => if bit w1 c && !keep.contains c then setBit v c false else v) (s.rd .attnCause t 0))

/-- Management's action on a unit (R488): `none` where it is refused. -/
def State.unitCtl (s : State) (wo : Nat) : Option State :=
  let u := wo % 65536
  match bits wo 17 16 with
  | 1 => if s.canRetire u then some (s.markLasting u 3) else none
  | 2 => if s.canReinstate u then some (s.beginReinstate u) else none
  | 3 => if s.canReset u then some (s.beginReset u) else none
  | _ => none

/-- The effect of a write of a single-word register: `v` its RW fields, `w1` and `wo` the ones written to RW1C and WO fields, `hit` the
RW bits inside the mask. `none` where it is refused. -/
def State.putReg (s : State) (n : RegName) (t i copy v w1 wo hit : Nat) : Option State :=
  if s.legal n t i copy v = false then none
  else
    match n with
    | .tribCfg => some ((s.wr n copy 0 v).wr .tribJrf copy 0 (bits v 31 16))
    | .tribJrf => some ((s.wr n copy 0 v).wr .tribCfg copy 0 (s.rd .tribCfg copy 0 % 65536 + 65536 * v))
    | .tribPortCfg => some (s.putPortCfg i v)
    | .attnCause => some (s.clearCauses t w1)
    | .timeCfg => some (s.wr n copy 0 v).timeWritten
    | .timeFence => some (s.wr n copy 0 v).timeWritten
    | .timeLock => some (s.wr n copy 0 v).timeWritten
    | .detCfg => some (s.wr n copy 0 v).pinClocks
    | .sluSem =>
      let x := s.sem i
      let x := { x with ovf := x.ovf && !bit w1 16, unf := x.unf && !bit w1 17, peerEn := decide (i < 1024) && bit v 18
                        peerDec := decide (i < 1024) && bit v 19 }
      let s := s.setSem i x
      some (if hit % 65536 = 0 then s else s.writeCount i (v % 65536))
    | .sluBarmask => s.setMask i v
    | .sluDbarcfg => s.writeDbarcfg i v
    | .sluQcfg => some (s.putQcfg i v)
    | .sluQctl =>
      let s := if bit wo 2 then s.flushQueue i else s
      let s := if s.queHeld i = bit v 0 then s else s.holdQueue i (bit v 0)
      some (if bit wo 1 then s.resumeQueue i else s)
    | .bwSnap => some (if bit w1 15 then { s with slu := { s.slu with snaps := s.slu.snaps.put i (setBit (SMap.getD (fun _ => 0) s.slu.snaps i) 15 false) } } else s)
    | .braidPortCfg => some (s.putBraidPort i v)
    | .memEddyShare => some (s.putShare t v)
    | .relUnitCtl => s.unitCtl wo
    | .pwrVcfg => some (s.powerWrite i v)
    | .pwrClkCfg => some (s.powerWrite 10 v)
    | .mgmtCtl => some (if bit wo 1 then s.coldReset 3 0 else if bit wo 0 then s.warmReset 7 0 else s)
    | n => some (s.wr n copy 0 v)

/-- A register of several words takes effect (R551, R552): `ws` are its words. `none` where it is refused. -/
def State.putWide (s : State) (n : RegName) (t i copy : Nat) (ws : List Nat) : Option State :=
  let w := fun (k : Nat) => nth ws k 0
  let all := fun (s : State) => ws.zipIdx.foldl (fun s x => s.wr n copy x.2 x.1) s
  match n with
  | .tribSess => if w 0 = 0 ∧ w 1 = 0 then none else some (all s)
  | .tribEvt => if bit (w 4) 21 = true ∧ w 4 % 65536 = 0 then none else some (all s)
  | .fetchRearm => s.rearm i (w 0 % 512) (w 1 + 2 ^ 32 * (w 2 % 65536)) (w 3)
  | .eddyKey => if s.showDrained t then some { s with eddy := { s.eddy with domKeys := setNth s.eddy.domKeys t (ws.flatMap (leBytes 4)) } } else none
  | .sluDbarmask => s.setMask (160 + i) (leNat (ws.flatMap (leBytes 4)))
  | .capRd =>
    let c := s.capOf t
    let o := w 0 + 2 ^ 32 * w 1
    match (c.ring.map (·.1) ++ [c.wr]).find? (fun e => e % 2 ^ 48 == o) with
    | some a => some (s.setCap t { c with rd := a, ring := c.ring.filter (fun e => decide (a ≤ e.1)) })
    | none => none
  | _ => some s

/-- The path's staging word of a register word. -/
def stageKey (path : Nat) (n : RegName) (copy word : Nat) : Nat := path * 2 ^ 48 + regKey n copy word

/-- A write of one word of a register wider than one word (R551, R552). A performance counter's word 1 clears WRAP. -/
def State.putWord (s : State) (path : Nat) (d : RegDesc) (t i copy word mask value : Nat) : Option State :=
  if d.cnt then
    let k := if d.name = .cntRelCnt then s.unitSel path * 2 + i else copy
    let left := if d.name = .cntTileCnt ∧ k % 8 = 6 then s.noWork k / 2 ^ 48 else s.cnt d.name k % 2 ^ 48
    some (if word = 1 ∧ bit (value &&& mask) 16 = true then { s with cnts := SMap.setD (fun _ => 0) s.cnts (regKey d.name k 0) left } else s)
  else
    let ok := nth d.rw word 0 ||| nth d.wo word 0
    let old := s.show path d.name copy word
    let v := ((old &&& (0xFFFFFFFF ^^^ mask)) ||| (value &&& mask)) &&& ok
    let key := fun (w : Nat) => stageKey path d.name copy w
    if word + 1 < d.words then some { s with stage := s.stage.put (key word) v }
    else
      let dflt := fun (w : Nat) => if d.words = 2 then s.show path d.name copy w &&& nth d.rw w 0 else 0
      let ws := (List.range d.words).map (fun w => if w = word then v else (s.stage.find? (key w)).getD (dflt w))
      (State.putWide { s with stage := s.stage.keep (fun k _ => k / 64 != key 0 / 64) } d.name t i copy ws)

/-- The registers that management may change while the device serves (R534, Table 20.3), by the bits that a write would change: latched causes,
sticky WRAP bits among them, its own unit selection, and the listed registers. -/
def mgmtMay (d : RegDesc) (changed : Nat) : Bool :=
  d.cnt ||
  (match d.name with
   | .attnCause | .attnMask | .capRd | .relUnitSel | .relUnitCtl | .sluQctl | .mgmtCtl | .pwrCap | .pwrShed | .pwrVcfg | .pwrDroop | .timeLaunch
   | .timePtp | .weirCfg | .weirDrain | .bwCfg | .veCfg | .muDieCfg | .tileDieCfg | .memSweepCfg | .memPprCfg | .relCfg | .hwCfg | .hwBoot | .mgmtCfg
   | .timeCfg | .timeFence | .timeLock | .eddyCfg | .eddyKey | .eddyHomeGen | .eddyHome | .braidCfg | .braidId | .pwrClkCfg | .distSettle
   | .memEddyShare | .pwrRef => true
   | .detCfg => decide (changed < 2)
   | _ => false)

/-- A write of one word (R546 to R552, R554): the state after it, or a result code and DETAIL. A refused write of the last word of a wide
register still returns its staging words to 0. -/
def State.writeWord (s : State) (path tenant addr mask value : Nat) : Except (Nat × Nat) State :=
  let block := addr / 2 ^ 24
  if 0x1A < block then .error (rcOk, 0x17)
  else if s.answers block = false then .error (rcNotReady, 1)
  else if block = 0x1A then
    if 2 ^ 21 ≤ addr % 2 ^ 24 then .error (rcOk, 0x18)
    else if !s.tenancy && tenant != 0 then .error (rcOk, 0x17)
    else .ok s
  else
    match locate addr with
    | none => .error (rcOk, 0x18)
    | some (d, i, w) =>
      if d.tenant && !s.tenancy && tenant != 0 then .error (rcOk, 0x17)
      else
        match d.path with
        | .ro => .ok s
        | .roRefuse => .error (rcOk, 0x18)
        | .mgmtRead => .error (rcOk, 0x18)
        | p =>
          if p = .mgmt ∧ path = 0 then .error (rcOk, 0x18)
          else
            let c := if d.name = .relUnitSel then path else d.copyFor tenant i
            let m := mask % 2 ^ 32
            let value := value % 2 ^ 32
            if d.words = 1 then
              let rw := nth d.rw 0 0
              let v := ((s.show path d.name c 0 &&& (0xFFFFFFFF ^^^ m)) ||| (value &&& m)) &&& rw
              if path = 1 ∧ s.head.step = 9 ∧ mgmtMay d (v ^^^ (s.show path d.name c 0 &&& rw)) = false then .error (rcOk, 0x18)
              else
              match s.putReg d.name tenant i c v (value &&& m &&& nth d.w1c 0 0) (value &&& m &&& nth d.wo 0 0) (m &&& rw) with
              | some s' => .ok (s.noteShort s')
              | none => .error (rcOk, 0x18)
            else if path = 1 ∧ s.head.step = 9 ∧ mgmtMay d 0 = false then .error (rcOk, 0x18)
            else
              match s.putWord path d tenant i c w m value with
              | some s' => .ok s'
              | none => .error (rcOk, 0x18)

/-- What a refused write leaves: the staging words of a wide register return to 0 when its last word is written (R552). -/
def State.writeRefused (s : State) (path tenant addr : Nat) : State :=
  match locate addr with
  | some (d, i, w) =>
    if 1 < d.words ∧ d.cnt = false ∧ w + 1 = d.words then
      let k := stageKey path d.name (d.copyFor tenant i) 0
      { s with stage := s.stage.keep (fun x _ => x / 64 != k / 64) }
    else s
  | none => s

/-- REGISTER_WRITE (R9 to R12, R59, R96, R126): one masked word on a path; a refusal is reported on the path. -/
def execRegisterWrite (path tenant addr mask value : Nat) (s : State) : Out :=
  match s.writeWord path tenant addr mask value with
  | .ok s => .next s
  | .error (rc, d) =>
    let s := s.writeRefused path tenant addr
    .next { s with mgmt := { s.mgmt with refused := s.mgmt.refused ++ [(path, addr, rc, d)] } }

end Sys2Proof.Machine
end

