-- ==== Sys2Proof/Machine/Auth.lean ====
section
/-! DEFINITION. The checks of signed objects (R413, R462 to R466, R472): keys, permissions, signatures, counters, and the state area. -/

namespace Sys2Proof.Machine

/-- The key table entry of an identifier (R463). -/
def State.keyEnt? (s : State) (id : Nat) : Option KeyEnt := s.sec.keys.find? (fun k => k.keyId == id)

/-- A permission of Table 17.3 for a tenant: an Operator's, by its entry; the owner key holds every one for every tenant, a Tenant Officer's entry none,
whatever its PERMS (Table 17.2). -/
def KeyEnt.may (k : KeyEnt) (perm tenant : Nat) : Bool :=
  decide (tenant < 4) && (k.keyId == 0 || (k.role == 2 && bit k.perms perm && bit k.tenants tenant))

/-- The permission that a command needs (Table 17.3). -/
def cmdPerm (cmd : Nat) : Option Nat :=
  if cmd = 0x0001 ∨ cmd = 0x0002 then some 2
  else if 0x0010 ≤ cmd ∧ cmd ≤ 0x0013 then some 3
  else if cmd = 0x0014 ∨ cmd = 0x0015 then some 4
  else if cmd = 0x0016 ∨ cmd = 0x0017 then some 5
  else if cmd = 0x0020 then some 8
  else if 0x0030 ≤ cmd ∧ cmd ≤ 0x0032 then some 6
  else if cmd = 0x0040 then some 7
  else none

/-- The bytes of the signatures that SIG_ALG names (Table 15.4). -/
def sigBytes (alg : Nat) : Nat := (if bit alg 0 then 96 else 0) + (if bit alg 1 then 4632 else 0)

/-- The signature policy takes SIG_ALG (R472): 0 either algorithm, 1 ML-DSA-87 required, 2 both required. -/
def policyTakes (policy alg : Nat) : Bool := if policy = 0 then true else if policy = 1 then bit alg 1 else alg == 3

/-- Every signature that SIG_ALG names is present and verifies under the key (R412, R463): ECDSA first, ML-DSA-87 padded with zeros. -/
def KeyEnt.verifies (k : KeyEnt) (alg : Nat) (signed sigs : List Byte) : Bool :=
  let second := sigs.drop (if bit alg 0 then 96 else 0)
  decide (1 ≤ alg) && decide (alg ≤ 3) && decide (alg &&& k.algs = alg) && decide (sigs.length = sigBytes alg) &&
  (!bit alg 0 || Config.ecdsaOk k.ecdsa signed (sigs.take 96)) &&
  (!bit alg 1 || (Config.mldsaOk k.mldsa signed (second.take 4627) && allZero (second.drop 4627)))

/-- Both signatures of an 8 KiB signature block verify (R407): ECDSA at 0, ML-DSA-87 at 0x100, every other byte 0. -/
def blockVerifies (ecdsa mldsa signed block : List Byte) : Bool :=
  decide (block.length = 8192) && allZero (slice block 96 160) && allZero (block.drop (0x100 + 4627)) &&
  Config.ecdsaOk ecdsa signed (block.take 96) && Config.mldsaOk mldsa signed (slice block 0x100 4627)

/-- A counter above the floor of a key and a tenant is taken (R466): it raises the floor, and a counter that reaches the reservation first
writes a new one to the state area. `none`: not in range. -/
def State.takeCounter (s : State) (keyId tenant counter : Nat) : Option State :=
  match s.keyEnt? keyId with
  | none => none
  | some k =>
    if counter ≤ nth k.floors tenant 0 then none
    else
      let reach := decide (nth k.reserve tenant 0 ≤ counter)
      let k := { k with floors := setNth k.floors tenant counter
                        reserve := if reach then setNth k.reserve tenant (counter + 65536) else k.reserve }
      let s := { s with sec := { s.sec with keys := s.sec.keys.map (fun (x : KeyEnt) => if x.keyId = keyId then k else x) } }
      some (if reach then s.saveArea else s)

/-- The checks of R413 and R472 of a signed object, in order: the AUTH_FAIL cause of the first that fails, or the state with the counter
taken. `allowed` says that the key may give it. Outside approved mode the module verifies nothing (R461; DESIGN CHOICE, log 103). -/
def State.authenticate (s : State) (keyId alg tenant counter : Nat) (signed sigs : List Byte) (allowed : KeyEnt → Bool) : Except Nat State :=
  match s.keyEnt? keyId with
  | none => .error 2
  | some k =>
    if allowed k = false then .error 2
    else if s.sec.approved = false ∨ k.verifies alg signed sigs = false ∨ policyTakes s.sec.sigPolicy alg = false then .error 1
    else
      match s.takeCounter keyId tenant counter with
      | none => .error 3
      | some s => .ok s

/-- Reads a signed command (Table 15.4). -/
def parseSigned (b : List Byte) : SignedCmd :=
  let n := leAt b 0x18 4
  { cmd := leAt b 0 2, sigAlg := leAt b 2 1, tenant := leAt b 3 1, group := leAt b 4 2, counter := leAt b 8 8, keyId := leAt b 0x10 4
    targetEn := leAt b 0x14 4, body := slice b 0x20 n, signed := b.take (0x20 + n), sigs := b.drop (0x20 + n)
    reserved := leAt b 6 2 + leAt b 0x1C 4, fits := decide (n % 8 = 0) && decide (0x20 + n ≤ b.length) }

/-- The key, signature and counter checks of a command (R413). -/
def State.checkCommand (s : State) (c : SignedCmd) : Except Nat State :=
  match cmdPerm c.cmd with
  | none => .error 2
  | some p => s.authenticate c.keyId c.sigAlg c.tenant c.counter c.signed c.sigs (fun k => k.may p c.tenant)

end Sys2Proof.Machine
end

