-- ==== Sys2Proof/Machine/Bundle.lean ====
section
/-! DEFINITION. Bundles (R414 to R420): their bytes, their checks, the model set in them, loads, and the commit record (R426 to R428). -/

namespace Sys2Proof.Machine

/-- SHA-384 as the 384-bit number that its 48 bytes hold. -/
def hash384 (b : List Byte) : Nat := Config.sha384 b % 2 ^ 384

/-- A directory or part entry (Table 15.2) of an object whose bytes are given. -/
def sectionOfBytes (all e : List Byte) : ImgSection :=
  { type := leAt e 0 1, tenant := leAt e 1 1, reserved := leAt e 2 2 + leAt e 0xC 4, offset := leAt e 4 4, length := leAt e 8 4
    hash := leAt e 0x10 48, data := slice all (leAt e 4 4) (leAt e 8 4) }

/-- A bundle from its bytes (R416, Table 15.8): the signature block is its last 8 KiB. -/
def bundleOfBytes (b : List Byte) : Bundle :=
  let n := leAt b 6 2
  { magic := leAt b 0 4, version := leAt b 4 1, layout := leAt b 5 1, setId := leAt b 8 4, setVersion := leAt b 0xC 4, grade := leAt b 0x10 1
    reserved := leAt b 0x11 3 + leAt b 0x50 48, keyId := leAt b 0x14 4, len := leAt b 0x18 8, digest := leAt b 0x20 48
    parts := (List.range n).map (fun i => sectionOfBytes b (slice b (128 + 64 * i) 64)), signed := b.take (128 + 64 * n)
    sigs := b.drop (b.length - 8192), length := b.length }

/-- Check 1 of R417: the header and the part entries hold legal values, and the parts lie before the signature block. -/
def Bundle.headerOk (b : Bundle) : Bool :=
  let lo := 128 + 64 * b.parts.length
  decide (b.magic = 0x4C444E42) && b.version == 1 && decide (b.layout ≤ 1) && b.reserved == 0 && b.len == b.length &&
  decide (lo + 8192 ≤ b.length) &&
  b.parts.all (fun p => decide (1 ≤ p.type) && decide (p.type ≤ 11) && p.reserved == 0 && decide (lo ≤ p.offset) &&
    decide (p.offset + p.length + 8192 ≤ b.length))

/-- The parts of a row of Table 2.1, by index. -/
def Bundle.rows (b : Bundle) (row : Nat) : List ImgSection :=
  let l := b.parts.filter (fun (p : ImgSection) => p.type == row)
  (List.range 256).flatMap (fun i => l.filter (fun (p : ImgSection) => p.tenant == i))

/-- Item `k` of a part. -/
def partItem (row k : Nat) (b : List Byte) : List Byte := nth (Config.splitPart row b) k []

/-- The canonical content (R29): parts 1 to 10 in the order of Table 2.1, the set header without the digest itself. -/
def Bundle.canonical (b : Bundle) : List Byte :=
  ((b.rows 1).flatMap (fun p => partItem 0 0 p.data ++ partItem 0 1 p.data ++ partItem 0 2 p.data)) ++
  (List.range 9).flatMap (fun k => (b.rows (k + 2)).flatMap ImgSection.data)

/-- A destination table's entries, by destination. -/
def destsOf (b : List Byte) : SMap DestEntry :=
  ((List.range (b.length / 8)).map (fun i => (i, destOfBytes (slice b (8 * i) 8)))).filter (fun (e : Nat × DestEntry) => e.2 ≠ {})

/-- The rule table descriptor of a part (R53). -/
def tableOfBytes (b : List Byte) : RuleTable :=
  let f := fun (k : Nat) => leNat (partItem 4 k b)
  { index := f 0, rules := f 1, dflt := f 2, out := f 3, replicas := f 4, compiled := f 5 }

/-- The schema of a part (R163, R171): its first item counts the key classes, which follow; access entries come after them. -/
def schemaOfBytes (b : List Byte) : Schema :=
  let items := Config.splitPart 8 b
  let n := leNat (items.headD [])
  { classes := ((items.drop 1).take n).map keyClassOfBytes, access := (items.drop (1 + n)).map accessOfBytes }

/-- The parts of Table 2.1 (row less one) that do not belong to the set (R29): a part that is missing, stands more often than the table allows or
stands twice under one index, that carries another SET_ID or SET_VERSION, and the set header where the bundle's header differs from it. -/
def Bundle.badParts (b : Bundle) : List Nat :=
  let n := fun (k : Nat) => (b.rows k).length
  let h := ((b.rows 1).map ImgSection.data).headD []
  let differs := leNat (partItem 0 0 h) != b.setId || leNat (partItem 0 1 h) != b.setVersion || leNat (partItem 0 2 h) != b.grade ||
    leNat (partItem 0 3 h) != b.digest
  (List.range 11).filter (fun k =>
    let l := b.rows (k + 1)
    (k == 0 && differs) || ([0, 1, 9, 10].contains k && n (k + 1) != 1) || (k == 2 && n 3 == 0) || (k == 8 && decide (1 < n 9)) ||
    l.any (fun (p : ImgSection) => k != 0 && Config.partIds k p.data != (b.setId, b.setVersion)) ||
    !decide ((l.map ImgSection.tenant).Nodup))

/-- The model set of a bundle (R29, Table 2.1). -/
def Bundle.modelSet (b : Bundle) : ModelSet :=
  let datas := fun (k : Nat) => (b.rows k).map ImgSection.data
  let ft := (datas 2).headD []
  let img := Config.readPlacement ((datas 11).headD [])
  let pipes := (datas 10).headD []
  { setId := b.setId, version := b.setVersion, grade := b.grade, digest := b.digest, layout := b.layout, badParts := b.badParts
    features := leNat (partItem 1 0 ft), ftable := (partItem 1 1 ft).map BitVec.toNat
    ensembles := (datas 3).map ensembleOfBytes
    cascades := (b.rows 4).map (fun (p : ImgSection) =>
      { index := p.tenant, nstages := leNat (partItem 3 0 p.data), stages := ((Config.splitPart 3 p.data).drop 1).map stageOfBytes })
    tables := (datas 5).map tableOfBytes, featProgs := (datas 6).map progOfBytes, finProgs := (datas 7).map progOfBytes
    policies := (datas 8).map (fun d => policyOfBytes (partItem 7 0 d))
    dests := (datas 8).foldl (fun m d => (destsOf (partItem 7 1 d)).foldl (fun m e => m.put e.1 e.2) m) []
    schema := (datas 9).head?.map schemaOfBytes
    pipelines := (List.range (pipes.length / 32)).map (fun i => pipelineOfBytes (slice pipes (32 * i) 32))
    rows := img.rows.map rowOfBytes, slots := img.slots, runs := img.runs, units := img.units.map (fun e => (e.1, unitOfBytes e.2))
    spill := img.spill, profile := img.profile, costs := img.costs }

/-- The checks of R417, in order: the number of the first that fails, 0 where all pass. Bundles carry both signatures (R472), and outside
approved mode none verifies (R461, log 103). -/
def State.bundleFault (s : State) (t : Nat) (x : BundleSlot) : Nat :=
  let b := bundleOfBytes x.bytes
  if b.headerOk = false then 1
  else
    match s.keyEnt? b.keyId with
    | none => 2
    | some k =>
      if k.may 1 t = false then 2
      else if s.sec.approved = false ∨ k.algs % 4 ≠ 3 ∨ blockVerifies k.ecdsa k.mldsa b.signed b.sigs = false then 3
      else if x.failed = true ∨ b.parts.any (fun (p : ImgSection) => p.hash != hash384 p.data) = true then 4
      else if hash384 b.canonical ≠ b.digest then 5
      else 0

/-- What a load of a tenant is checked against (R55, R31, R438). -/
def State.loadEnv (s : State) (t : Nat) (drain : Bool) (m : ModelSet) : LoadEnv :=
  let h := s.hwT t
  { gradeB := s.fuse.grade == 2, tenancy := s.tenancy, dies := s.tenantDies t, drain := drain, spillMax := s.fld .loadCfg 0 0 5 0
    spillArea := (if s.tenancy then 12 else 48) * (if needsFull m then 2 else 1) * 2 ^ 30
    eddyRegion := (s.eddyRegion t).2 * 2 ^ 20, active := h.active.map SetInst.set
    activeFull := match h.active with | some i => i.full | none => false
    hosted := (s.tenantDies t).any s.dieHosting, usedFields := h.usedFields }

/-- The outcome of a load of a set (R55); its tasks must also fit the die input queues (R146). -/
def State.loadOutcome (s : State) (t : Nat) (drain : Bool) (m : ModelSet) : LoadResult := loadCheck m (s.loadEnv t drain m)

/-- What the predicted rates of a set depend on besides it, now (R240, R241, R267). -/
def State.rateEnv (s : State) : RateEnv :=
  { gaps := (List.range 8).map (fun d => s.fld .muDieCfg d 0 23 8), arrange := s.trib.arrange, gradeB := s.fuse.grade == 2 }

/-- A set placed in a half of its dies, or in the full layout, as a device of the grade holds it (R239), with what its rates rest on. -/
def placedSet (v : RateEnv) (m : ModelSet) (half outcome : Nat) (full : Bool) : SetInst :=
  let h := m.held v.gradeB
  { set := h, leaves := h.slots.map (fun x => (x.1, leafMap x.2)), half := half, full := full, outcome := outcome, units := m.units, rate := v }

/-- The free slot of a tenant: none while the old set's bundle is held in it (R414, R423). -/
def HwTenant.freeSlot (h : HwTenant) : BundleSlot := if h.old.isSome then {} else nth h.slots (1 - h.activeSlot) {}
def HwTenant.putSlot (h : HwTenant) (k : Nat) (x : BundleSlot) : HwTenant := { h with slots := setNth h.slots k x }

/-- Writes a tenant's commit record (R426, R427) as things stand. -/
def State.writeCommit (s : State) (t : Nat) : State :=
  let h := s.hwT t
  let last := h.commit
  let swap := s.head.launches.find? (fun l => l.tenant == t && l.kind == 1 && !l.missed)
  let drain := match h.drainSwap with
    | some l => some l
    | none => s.head.launches.find? (fun l => l.tenant == t && l.kind == 2 && !l.missed)
  let free := h.freeSlot
  let fb := bundleOfBytes free.bytes
  let act := match h.active with
    | some i => some (i.set.setId, i.set.version, i.set.digest)
    | none => if h.placing then h.drainSwap.map (fun (l : Launch) => (l.setId, l.version, l.digest)) else none
  let a := act.getD (0, 0, 0)
  let j := (nth h.slots h.activeSlot {}).journal
  let named := match swap, drain with
    | some l, _ => l.named % 2 ^ 32
    | none, some l => l.named % 2 ^ 32
    | none, none => last.targetEn
  let c : CommitRec :=
    { seq := (last.seq + 1) % 2 ^ 32, activeSlot := h.activeSlot, activeSetId := a.1, activeVersion := a.2.1, activeDigest := a.2.2
      flags := bitmap [act.isSome, free.complete, free.checked, swap.isSome, drain.isSome, h.placing, h.old.isSome, h.missed]
      freeSetId := if free.complete then fb.setId else 0, freeVersion := if free.complete then fb.setVersion else 0
      targetEn := named, resumeEn := match drain with | some l => l.resumeEn % 2 ^ 32 | none => last.resumeEn
      editCount := (j.filter (fun (e : JournalEnt) => e.kind == 5)).length, commitCount := (j.filter (fun (e : JournalEnt) => e.kind == 6)).length
      journalLen := (j.map (fun (e : JournalEnt) => e.body.length + 8)).sum, valid := true }
  let second := h.commit0.valid && (!h.commit1.valid || seqLater h.commit1.seq h.commit0.seq)
  s.setHwT t (if second then { h with commit1 := c } else { h with commit0 := c })

/-- A load ends (R55, R420): LOAD_STATUS and HW_LOAD_DONE. -/
def State.loadDone (s : State) (t half : Nat) (r : LoadResult) (setId : Nat) : State :=
  let h := s.hwT t
  let s := s.setHwT t { h with loadState := 0, result := r, lastHalf := half }
  s.event 0x0F01 t t (detailOf [(1, r.outcome), (1, half), (2, 0), (4, setId)])

/-- The half that a hot-swap load writes (R30): the one the active set does not lie in. -/
def HwTenant.shadowHalf (h : HwTenant) : Nat := match h.active with | some i => if i.full then 0 else 1 - i.half | none => 0

/-- BUNDLE_CHECK_COMPLETE (R417, R418): a bundle that fails is discarded; one that passes is loaded. -/
def execBundleCheckComplete (tenant : Nat) (s : State) : Out := s.gated <|
  let h := s.hwT tenant
  if h.loadState ≠ 2 then .next s
  else
    let k := 1 - h.activeSlot
    let x := nth h.slots k {}
    let f := s.bundleFault tenant x
    if f ≠ 0 then
      let s := s.setHwT tenant { h.putSlot k {} with loadState := 0, rejected := true }
      .next (s.event 0x0F02 tenant tenant (detailOf [(1, f), (3, 0), (4, h.xferNo)]))
    else
      let m := (bundleOfBytes x.bytes).modelSet
      let s := (s.setHwT tenant { h.putSlot k { x with checked := true } with loadState := 3 }).writeCommit tenant
      let r := s.loadOutcome tenant false m
      if r.placed then .next (s.armLoad tenant k x.bytes.length m) else .next (s.loadDone tenant h.shadowHalf r m.setId)

/-- The outcome of placing the bundle of a slot: a load whose bundle read failed fails (R443). No code of Table 2.11 names that: FORMAT_ERROR with part
and word 0 (DESIGN CHOICE, log 101). -/
def State.placeOutcome (s : State) (t : Nat) (drain : Bool) (x : BundleSlot) (m : ModelSet) : LoadResult :=
  if x.failed then { outcome := loFormat } else s.loadOutcome t drain m

/-- A checked bundle is placed in a tenant's shadow half (R417, R223). -/
def State.placeShadow (s : State) (t : Nat) : State :=
  let h := s.hwT t
  let k := 1 - h.activeSlot
  let m := (bundleOfBytes (nth h.slots k {}).bytes).modelSet
  let r := s.placeOutcome t false (nth h.slots k {}) m
  let half := h.shadowHalf
  if r.placed = false then s.loadDone t half r m.setId
  else
    let s := s.countLoad m.units
    let s := s.setHwT t { h with shadow := some (placedSet s.rateEnv m half r.outcome false), halves := setNth h.halves half (some m) }
    s.loadDone t half r m.setId

/-- LOAD_PLACEMENT_COMPLETE (R417, R422); a drain swap's placement ends by a command of its own. -/
def execLoadPlacementComplete (tenant : Nat) (s : State) : Out := s.gated <|
  if (s.hwT tenant).loadState ≠ 3 ∨ (s.hwT tenant).placing = true then .next s else .next ((s.endStreams tenant 4).placeShadow tenant)

/-- BUNDLE_IDLE_EXPIRY (R415): a transfer that has received no chunk for BUNDLE_IDLE × 65,536 ticks is discarded. -/
def execBundleIdleExpiry (tenant : Nat) (s : State) : Out := s.gated <|
  let h := s.hwT tenant
  match h.xfer with
  | none => .next s
  | some x =>
    if s.now < x.last + s.fld .hwCfg 0 0 31 16 * 65536 then .next s
    else .next (s.setHwT tenant { h with xfer := none, loadState := 0 })

end Sys2Proof.Machine
end

