-- ==== Sys2Proof/Machine/Launch.lean ====
section
/-! DEFINITION. Launches (R120 to R122), what they do at their target epoch, the start of an epoch (Table 4.5), swaps and drain swaps (R421 to
R424), and the management mirror (R499, R500). -/

namespace Sys2Proof.Machine

/-- The epoch that a launch's EN names and the device's own epoch it takes effect at (R113, R346): in a replay session, every kind but
REPLAY_START and REPLAY_END names original epochs. -/
def State.launchAt (s : State) (t kind en : Nat) : Int × Int :=
  let shift : Int := match s.session t with
    | some z => if kind < 7 then (z.m : Int) - z.n else 0
    | none => 0
  let full := extendEN ((s.epoch : Int) - shift).toNat en
  (full, full + shift)

/-- A launch of the kind is pending for the tenant (R121); an edit of rule tables is pending until it completes (R269). -/
def State.launchPending (s : State) (t kind : Nat) : Bool := s.head.launches.any (fun l => l.tenant == t && l.kind == kind && !l.missed)

/-- A swap or a drain swap of the tenant is pending: its kind (R421). -/
def State.swapPending (s : State) (t : Nat) : Option Nat :=
  if s.launchPending t 1 then some 1 else if s.launchPending t 2 || (s.hwT t).drainSwap.isSome then some 2 else none

/-- STALE and SWAP_MISSED from an epoch on (R122, R421), and their end at a swap that is taken. -/
def HwTenant.missSwap (h : HwTenant) (named : Nat) : HwTenant :=
  let open_ := h.stale.any (fun x => x.2.isNone)
  { h with missed := true
           stale := if open_ then h.stale.map (fun x => if x.2.isNone then (min x.1 named, none) else x) else h.stale ++ [(named, none)] }
def HwTenant.takeSwap (h : HwTenant) (named : Nat) : HwTenant :=
  { h with missed := false, stale := h.stale.map (fun x => if x.2.isNone then (x.1, some named) else x) }

/-- A set instance is the set that a launch names. -/
def SetInst.isNamed (i : SetInst) (l : Launch) : Bool := i.set.setId == l.setId && i.set.version == l.version && i.set.digest == l.digest

/-- The reason of HW_SWAP_FAILED (R421). -/
def HwTenant.failReason (h : HwTenant) : Nat :=
  if h.xfer.isSome then 1 else if h.loadState = 2 ∨ h.loadState = 3 then 4 else if h.rejected then 2 else 3

/-- The fields of the key classes that a hot swap drops: their bytes stay unavailable until a drain swap (R186). -/
def droppedFields (old new : Option Schema) : List (Nat × FieldDesc) :=
  ((old.map Schema.classes).getD []).flatMap (fun c =>
    let n := (((new.map Schema.classes).getD []).find? (fun (d : KeyClass) => d.cls == c.cls)).elim 0 (fun (d : KeyClass) => d.fields.length)
    (c.fields.drop n).map (fun f => (c.cls, f)))

/-- Clears the LIVEMAP bits of fields in every slot of a class (R186, R187). -/
def State.clearLive (s : State) (t cls : Nat) (gone : List Nat) : State :=
  let fix := fun (x : List Byte) => putAt x 0x28 (leBytes 4 (gone.foldl (fun v i => setBit v i false) (slotLive x)))
  let f := fun (k : Nat) (b : EBucket) => if k / 2 ^ 28 / 12 = t * 8 + cls then { b with slots := b.slots.map fix } else b
  if gone = [] then s else { s with eddy := { s.eddy with buckets := SMap.mapVals f s.eddy.buckets } }

/-- The fields that a hot swap adds read as not live in the slots that stand (R170, R186), though a field dropped before may have left their bits
set (DEDUCED, log 109). -/
def State.addFields (s : State) (t : Nat) (old new : Option Schema) : State :=
  ((new.map Schema.classes).getD []).foldl (fun s d =>
    let n := (((old.map Schema.classes).getD []).find? (fun (c : KeyClass) => c.cls == d.cls)).elim 0 (fun (c : KeyClass) => c.fields.length)
    s.clearLive t d.cls ((List.range d.fields.length).drop n)) s

/-- The swap of R421 is made: records stamped from the target on are scored by the shadow set. -/
def State.makeSwap (s : State) (l : Launch) (i : SetInst) : State :=
  let t := l.tenant
  let h := s.hwT t
  let k := h.activeSlot
  let n := { h with old := h.active, active := some i, shadow := none, switchEpoch := l.named, switchDue := l.target, activeSlot := 1 - k }
  let n := (n.takeSwap l.named).putSlot k { nth h.slots k {} with journal := [] }
  let n : HwTenant := { n with usedFields := h.usedFields ++ droppedFields (h.active.bind (·.set.schema)) i.set.schema }
  let s := s.addFields t (h.active.bind (·.set.schema)) i.set.schema
  let r := ((s.setHwT t n).armTasks t i).writeCommit t
  let r := r.event 0x0F03 t t (detailOf [(4, l.named), (4, i.set.setId)])
  s.noteShort r

/-- A swap launch at its target (R421): swap, same set, or no swap. A set whose tasks do not fit is refused at activation (R146). -/
def State.swapAt (s : State) (l : Launch) : State :=
  let t := l.tenant
  let h := s.hwT t
  let same := match h.active with | some i => i.isNamed l | none => false
  if same then (s.setHwT t (h.takeSwap l.named)).writeCommit t
  else
    let miss := fun (h : HwTenant) (why : Nat) =>
      ((s.setHwT t (h.missSwap l.named)).writeCommit t).event 0x0F04 t t (detailOf [(1, why), (3, 0), (4, l.named)])
    match h.shadow with
    | some i =>
      if i.isNamed l = false then miss h h.failReason
      else if tasksFit i.set = false then
        let h : HwTenant := { h with shadow := none, result := { outcome := loLimit } }
        miss h 3
      else s.makeSwap l i
    | none => miss h h.failReason

/-- A freeze of a tenant's admission from an epoch on (R135); the set in effect then is kept for the save manifest (R348). -/
def State.closeAt (s : State) (t epoch : Nat) : State :=
  if s.frozenAt t epoch then s else s.setFreeze t { from_ := some epoch, open_ := none, drained := false, timedOut := [], set := some (s.setAt t epoch) }

/-- Admission reopens for records stamped at or after an epoch (R135). -/
def State.openAt (s : State) (t epoch : Nat) : State :=
  let f := s.freezeOf t
  if f.from_.isSome ∧ f.open_.isNone ∧ (t = 0 ∨ s.tenancy = true) then
    (s.setFreeze t { f with open_ := some epoch, drained := false }).startStreams t else s

/-- A capacity commit takes effect (R319). -/
def State.commitAt (s : State) (l : Launch) : State :=
  let n := match s.active l.tenant with
    | some i => ((i.changes.filter (fun (c : SetChange) => c.kind == 6 && c.due == l.target)).map (fun (c : SetChange) => c.caps.length)).headD 0
    | none => 0
  (s.journalApplied l.tenant l.body).event 0x0B02 0xFFFF l.tenant (detailOf [(4, l.named), (2, n), (2, 0)])

/-- A replay session opens (R342). Changes that have taken effect stay in effect for the original epochs that it serves. -/
def State.replayOpen (s : State) (l : Launch) : State :=
  let t := l.tenant
  let c := s.capOf t
  let z : Session12 := { n := l.resumeEn, m := l.target, miss0 := s.cnt .cntCapCnt (3 * t + 2) % 2 ^ 48 }
  let s := s.setCap t { c with session := some z }
  let s := match s.active t with
    | some i => s.setActive t { i with changes := i.changes.map (fun (c : SetChange) => if c.due ≤ s.epoch then { c with done := true } else c) }
    | none => s
  let s := s.setHwT t { s.hwT t with switchEpoch := 0 }
  (s.startStreams t).event 0x0C02 t t (detailOf [(4, l.resumeEn), (4, l.target)])

/-- A launch at its target epoch. A missed one is not applied (R122): for a swap, a rule edit or a capacity commit the tenant has missed a swap. -/
def State.applyLaunch (s : State) (l : Launch) : State :=
  let t := l.tenant
  if l.missed then
    let s := if l.kind = 1 ∨ l.kind = 2 ∨ l.kind = 5 ∨ l.kind = 6 then (s.setHwT t ((s.hwT t).missSwap l.named)).writeCommit t else s
    s.event 0x0407 l.kind t (detailOf [(4, l.named), (4, 0)])
  else
    match l.kind with
    | 1 => s.swapAt l
    | 2 => (s.setHwT t { s.hwT t with drainSwap := some l, drainPlaced := false }).closeAt t l.target
    | 3 => s.closeAt t l.target
    | 4 => if (s.hwT t).drainSwap.isSome then s else s.openAt t l.target
    | 6 => s.commitAt l
    | 7 => s.replayOpen l
    | 8 =>
      let c := s.capOf t
      s.setCap t { c with session := c.session.map (fun (z : Session12) => { z with e := some l.target }) }
    | _ => s

/-- Launches in order of target, and of kind at one target. -/
def insertLaunch (l : Launch) : List Launch → List Launch
  | [] => [l]
  | x :: xs => if l.target < x.target ∨ (l.target = x.target ∧ l.kind < x.kind) then l :: x :: xs else x :: insertLaunch l xs

/-- A drain swap ends (R424): admission reopens at RESUME_EN or now, whichever is later, and HW_SWAP_DONE is raised if the new set serves. -/
def State.drainReopen (s : State) (t : Nat) : State :=
  let h := s.hwT t
  match h.drainSwap with
  | none => s
  | some l =>
    if h.drainPlaced = false ∨ s.epoch < l.resumeEn then s
    else
      let new := match h.active with | some i => i.isNamed l | none => false
      let s := s.openAt t (max l.resumeEn s.epoch)
      let s := (s.setHwT t { h with drainSwap := none, drainOld := none, drainPlaced := false }).writeCommit t
      if new then s.event 0x0F03 t t (detailOf [(4, l.named), (4, l.setId)]) else s

/-- The state of a unit as its state register shows it (R499): a Braid port up or not, a partition available or not (units from 0x10000 on), a
link or a unit with no register of its own lastingly faulty or not. -/
def State.unitShown (s : State) (u : Nat) : Nat :=
  let n := u % 4096
  match u / 4096 with
  | 1 => (s.tile (n / 66) (n % 66)).state
  | 2 => (s.mu (n / 9) (n % 9)).state
  | 4 => b2n (s.rel.dieLinks.contains n)
  | 5 => (s.engine (n / 34) (n % 34)).state
  | 7 => (nth s.mem.stk n {}).state
  | 11 => b2n ((s.brPort n).step == 6)
  | 16 => b2n (s.eddy.lost.contains n)
  | _ => b2n (s.win u).lasting

/-- The units of the mirror, rising. -/
def mirrorUnits : List Nat :=
  [(1, 528), (2, 72), (3, 8), (4, 17), (5, 68), (6, 32), (7, 12), (8, 2), (9, 8), (10, 2), (11, 12), (13, 10), (16, 12)].flatMap (fun c =>
    (List.range c.2).map (4096 * c.1 + ·))

/-- The unit that an event of a unit names (R500). -/
def eventUnit (e : EvtEntry) : Option Nat :=
  if e.unit = 0xFFFF then none
  else
    match e.code / 256 with
    | 6 => some (0x10000 + e.unit)
    | 7 => some (0x5000 + e.unit)
    | 8 => some (0x1000 + e.unit)
    | 9 => some (0x2000 + e.unit)
    | 14 => some (0xB000 + e.unit)
    | 16 => some (0x7000 + e.unit)
    | 18 => some e.unit
    | _ => none

/-- The failed unit whose work a unit is loading: its event explains this one's change too. -/
def State.loadingFor (s : State) (u : Nat) : Option Nat :=
  let n := u % 4096
  match u / 4096 with
  | 1 => let x := s.tile (n / 66) (n % 66); x.loading.map (fun _ => 0x1000 + 66 * (n / 66) + x.failed)
  | 2 => let x := s.mu (n / 9) (n % 9); x.loading.map (fun _ => 0x2000 + 9 * (n / 9) + x.failed)
  | _ => none

/-- MIRROR_REFRESH and REL_MIRROR_FIX (R499, R500): a difference that no event since the last refresh explains is a mismatch. -/
def State.mirrorRefresh (s : State) : State :=
  let from_ := s.rel.mirrorEpoch * s.epochLen
  let seen := ((s.trib.evtLog.map (·.2)).filter (fun (e : EvtEntry) => decide (from_ ≤ e.stamp))).filterMap eventUnit
  let vals : SMap Nat := mirrorUnits.map (fun u => (u, s.unitShown u))
  let bad := vals.filterMap (fun v =>
    match s.rel.mirror.find? v.1 with
    | none => none
    | some w =>
      let explained := seen.contains v.1 || (match s.loadingFor v.1 with | some f => seen.contains f | none => false)
      if w = v.2 ∨ explained = true then none else some (v.1, w, v.2))
  let s := bad.foldl (fun s b =>
    (s.latch none attnMirror).event 0x1203 (if b.1 < 0x10000 then b.1 else 0x7000 + b.1 % 4096) 0xFF (detailOf [(2, b.2.1), (2, b.2.2), (4, s.epoch)])) s
  let more : SMap Nat := ((List.range 4).map (fun t => (0x20000 + t, s.degBits t))) ++ [(0x20010, s.time.state)]
  { s with rel := { s.rel with mirror := vals ++ more, mirrorEpoch := s.epoch } }

/-- The start of the next epoch whose start has not run (R112, Table 4.5). -/
def State.startEpoch (s : State) : State :=
  let e := s.time.started + 1
  let live := if s.weir.live.length < 16 ∧ e ∉ s.weir.live then s.weir.live ++ [e] else s.weir.live
  let hubs := s.weir.hubs.map (fun (w : WeirHub) => { w with energyLeft := w.credit.map (· * 1024), left := w.rate, throttled := false })
  let s := { s with time := { s.time with started := e }, weir := { s.weir with live := live, hubs := hubs } }
  let due := (s.head.launches.filter (fun l => decide (l.target ≤ e))).foldl (fun l x => insertLaunch x l) []
  let s := { s with head := { s.head with launches := s.head.launches.filter (fun l => decide (e < l.target)) } }
  let s := due.foldl (fun s l => s.applyLaunch l) s
  let s := (List.range 4).foldl (fun s t => s.drainReopen t) s
  s.mirrorRefresh

/-- EPOCH_START (R112). -/
def execEpochStart (s : State) : Out := s.gated <| if s.time.started < s.epoch then .next s.startEpoch else .next s

/-- The key classes that a drain swap clears and the LIVEMAP bits it clears in those that stay (R187). -/
def State.changeSchema (s : State) (t : Nat) (old new : Option Schema) : State :=
  let oc := match old with | some x => x.classes | none => []
  let nc := match new with | some x => x.classes | none => []
  oc.foldl (fun s c =>
    match nc.find? (fun (d : KeyClass) => d.cls == c.cls) with
    | none => s.clearStore t (some c.cls)
    | some d =>
      if d.slot ≠ c.slot ∨ d.bucketsLog2 ≠ c.bucketsLog2 then s.clearStore t (some c.cls)
      else
        s.clearLive t c.cls ((List.range 32).filter (fun i => match d.fields[i]? with | some g => c.fields[i]? != some g | none => false))) s

/-- DRAIN_SWAP_PLACEMENT begins (R424, step 2). -/
def State.drainPlacement (s : State) (t : Nat) : State :=
  let h := s.hwT t
  match h.drainSwap with
  | none => s
  | some _ =>
    let m := (bundleOfBytes (nth h.slots (1 - h.activeSlot) {}).bytes).modelSet
    let s := match h.active with
      | some i => (s.retireTasks t i.set.setId i.set.version).changeSchema t i.set.schema m.schema
      | none => s
    let h : HwTenant := { h with
      drainOld := h.active, active := none, old := none, shadow := none, placing := true, loadState := 3, activeSlot := 1 - h.activeSlot }
    ((s.setHwT t h).writeCommit t).armLoad t h.activeSlot (nth h.slots h.activeSlot {}).bytes.length m

/-- DRAIN_DONE (R155, R424). -/
def execDrainDone (tenant : Nat) (s : State) : Out := s.gated <|
  let h := s.hwT tenant
  if s.frozenAt tenant s.epoch = false ∨ s.drainDue tenant = false then .next s
  else
    let swap := h.drainSwap.isSome && !h.placing && !h.drainPlaced
    let s := if (s.freezeOf tenant).drained then s else s.drainDone tenant
    .next (if swap then s.drainPlacement tenant else s)

/-- The logical slots and units of a die are seated anew for a placement: where a tile or a match unit is out, on a spare, else, in the halves
layout, in the free half of the lowest unit that serves (R223, R249, R275). -/
def State.seatTiles (s : State) (d : Nat) (full : Bool) : State :=
  let s := (List.range 66).foldl (fun s k => let u := s.tile d k; if u.hosted.isSome then s.setTile d k { u with hosted := none } else s) s
  (List.range (gradeSlots (s.fuse.grade == 2))).foldl (fun s sl =>
    if (s.slotTile d sl).isSome ∨ (List.range 66).any (fun k => let u := s.tile d k; u.state != 3 && (u.held == some sl || u.loading == some sl)) = true then s
    else
      match s.spareTile d with
      | some k => s.setTile d k { s.tile d k with state := 0, held := some sl }
      | none =>
        if full then s
        else
          match (List.range 66).find? (fun k => let u := s.tile d k; u.state == 0 && u.held.isSome && u.hosted.isNone) with
          | some k => s.setTile d k { s.tile d k with hosted := some sl }
          | none => s) s
def State.seatUnits (s : State) (d : Nat) (full : Bool) : State :=
  let s := (List.range 9).foldl (fun s k => let u := s.mu d k; if u.hosted.isSome then s.setMu d k { u with hosted := none } else s) s
  (List.range 8).foldl (fun s sl =>
    if (s.muUnit d sl).isSome ∨ (List.range 9).any (fun k => let u := s.mu d k; u.state != 3 && (u.held == some sl || u.loading == some sl)) = true then s
    else
      match s.spareMu d with
      | some k => s.setMu d k { s.mu d k with state := 0, held := some sl }
      | none =>
        if full then s
        else
          match (List.range 9).find? (fun k => let u := s.mu d k; u.state == 0 && u.held.isSome && u.hosted.isNone) with
          | some k => s.setMu d k { s.mu d k with hosted := some sl }
          | none => s) s

/-- Places a set directly as a tenant's active set, with no record in flight. -/
def State.placeActive (s : State) (t : Nat) (i : SetInst) : State :=
  let s := (s.tenantDies t).foldl (fun s d => (s.seatTiles d i.full).seatUnits d i.full) s
  let h := s.hwT t
  (s.setHwT t { h with active := some i, halves := setNth (if i.full then [none, none] else h.halves) i.half (some i.set), switchEpoch := 0 }).armTasks t i

/-- DRAIN_SWAP_PLACEMENT_COMPLETE (R424, steps 2 to 4). -/
def execDrainSwapPlacementComplete (tenant : Nat) (s : State) : Out := s.gated <|
  let h := s.hwT tenant
  match h.drainSwap with
  | none => .next s
  | some l =>
    if h.placing = false then .next s
    else
      let k := h.activeSlot
      let m := (bundleOfBytes (nth h.slots k {}).bytes).modelSet
      let r := s.placeOutcome tenant true (nth h.slots k {}) m
      let r : LoadResult := if r.placed ∧ tasksFit m = false then { outcome := loLimit } else r
      let full := needsFull m
      let n := if r.placed then
          let w := s.setHwT tenant ({ h.putSlot (1 - k) {} with halves := [none, none], placing := false, drainPlaced := true, usedFields := [] }.takeSwap l.named)
          let i := placedSet s.rateEnv m 0 r.outcome full
          (((w.placeActive tenant i).countLoad i.units).writeCommit tenant).loadDone tenant 0 r m.setId
        else
          let w := s.setHwT tenant ({ h with activeSlot := 1 - k, placing := false, drainPlaced := true }.missSwap l.named)
          let w := match h.drainOld with | some i => w.placeActive tenant i | none => w
          ((w.loadDone tenant 0 r m.setId).writeCommit tenant).event 0x0F04 tenant tenant (detailOf [(1, 3), (3, 0), (4, l.named)])
      .next (s.noteShort (((n.endStreams tenant 4).drainReopen tenant).noteDegraded))

/-- OLD_HALF_RELEASE (R423): the last live epoch before the target has ended, and the old set's reduction bank holds no entry. -/
def execOldHalfRelease (tenant : Nat) (s : State) : Out := s.gated <|
  let h := s.hwT tenant
  match h.old with
  | none => .next s
  | some o =>
    let dies := s.tenantDies tenant
    if s.passed h.switchDue = false ∨ s.die.recs.any (fun r => r.bank == o.half && dies.contains r.die) = true then .next s
    else
      let s := s.retireTasks tenant o.set.setId o.set.version
      let s := (s.setHwT tenant { h.putSlot (1 - h.activeSlot) {} with old := none, switchEpoch := 0 }).writeCommit tenant
      .next (s.event 0x0F05 tenant tenant s.now)

end Sys2Proof.Machine
end

