-- ==== Sys2Proof/Machine/MgmtQueue.lean ====
section
/-! DEFINITION. The requests of the management path (R528 to R532): their form, what answers those that no command of the table serves, and their
queue. MCTP, PLDM and SPDM fields lie as their standards lay them down. -/

namespace Sys2Proof.Machine

/-- The enterprise number of vendor messages, as it stands in a message. -/
def ianaBytes : List Byte := (leBytes 4 Config.iana).reverse

/-- A Jalca vendor message (R530, R531): its kind and its body. -/
def vendorMsg (kind : Nat) (body : List Byte) : List Byte := leBytes 1 0x7F ++ ianaBytes ++ leBytes 1 kind ++ body

/-- A vendor response (R467, R532): status in byte 0, its cause or offset in byte 1, data after 8 bytes. -/
def vendorReply (kind status b1 : Nat) (data : List Byte) : List Byte :=
  vendorMsg kind (leBytes 1 status ++ leBytes 1 (min b1 0xFF) ++ leBytes 6 0 ++ data)

/-- The message type, and whether the message is a vendor message of this enterprise. -/
def msgType (m : List Byte) : Nat := leAt m 0 1 % 128
def isVendor (m : List Byte) : Bool := msgType m == 0x7F && slice m 1 4 == ianaBytes

/-- What a request asks for, as (class, group, code): MCTP control commands (0, 0, command); PLDM (1, PLDM type, command); SPDM (5, 0, code);
vendor messages (0x7F, kind, service code or command). -/
def msgAsk (m : List Byte) : Nat × Nat × Nat :=
  match msgType m with
  | 0 => (0, 0, leAt m 2 1)
  | 1 => (1, leAt m 2 1 % 64, leAt m 3 1)
  | 5 => (5, 0, leAt m 2 1)
  | t => (t, leAt m 5 1, leAt m 6 2)

/-- A request, not a response: the request bit of MCTP control and PLDM, the code of SPDM. -/
def isRequest (m : List Byte) : Bool :=
  match msgType m with
  | 0 => bit (leAt m 1 1) 7
  | 1 => bit (leAt m 1 1) 7
  | 5 => decide (0x80 ≤ leAt m 2 1)
  | _ => isVendor m && decide (leAt m 5 1 = 1 ∨ leAt m 5 1 = 2)

/-- The commands of PLDM types 0, 2 and 5, and the SPDM messages, that the device serves (R473, R531, R535, R537). -/
def servedMsgs : List (Nat × Nat × Nat) :=
  [1, 2, 3, 4, 5, 6].map (fun c => (0, 0, c)) ++ [2, 3, 4, 5].map (fun c => (1, 0, c)) ++ [0x04, 0x11, 0x21, 0x50, 0x51].map (fun c => (1, 2, c)) ++
  [0x01, 0x02, 0x10, 0x13, 0x14, 0x1A, 0x1B, 0x1D].map (fun c => (1, 5, c)) ++
  [0x84, 0xE1, 0xE3, 0x81, 0x82, 0x83, 0xE0].map (fun c => (5, 0, c)) ++
  [0x01, 0x02, 0x03, 0x10, 0x11, 0x12, 0x13, 0x14, 0x15, 0x20, 0x21, 0x22, 0x30, 0x31, 0xF0].map (fun c => (0x7F, 1, c))

/-- An answer with a completion code: to MCTP control, to PLDM. -/
def controlReply (m : List Byte) (cc : Nat) (data : List Byte) : List Byte :=
  leBytes 1 0 ++ leBytes 1 (leAt m 1 1 % 128) ++ slice m 2 1 ++ leBytes 1 cc ++ data
def pldmReply (m : List Byte) (cc : Nat) (data : List Byte) : List Byte :=
  leBytes 1 1 ++ leBytes 1 (leAt m 1 1 % 128) ++ slice m 2 2 ++ leBytes 1 cc ++ data
/-- An SPDM 1.3 response: its code, its two parameters. -/
def spdmReply (code p1 p2 : Nat) (data : List Byte) : List Byte := leBytes 1 5 ++ leBytes 1 0x13 ++ leBytes 1 code ++ leBytes 1 p1 ++ leBytes 1 p2 ++ data

/-- The answer to a request that cannot be taken now (R528, R531): ERROR_NOT_READY, vendor status 0x08, SPDM busy. -/
def notReadyReply (m : List Byte) : List Byte :=
  match msgType m with
  | 0 => controlReply m 0x04 []
  | 1 => pldmReply m 0x04 []
  | 5 => spdmReply 0x7F 0x03 0 []
  | _ => vendorReply (leAt m 5 1) 0x08 0 []

/-- The answer to a request that the device does not offer. -/
def unservedReply (m : List Byte) : List Byte :=
  match msgType m with
  | 0 => controlReply m 0x05 []
  | 1 => pldmReply m 0x05 []
  | 5 => spdmReply 0x7F 0x07 (leAt m 2 1) []
  | _ => vendorReply (leAt m 5 1) 0x04 0 []

/-- The status of a management response in place of a result code (R467, Table 17.4, R532). -/
def mgmtStatus (code cause : Nat) : Nat :=
  if code = rcOk then 0x00
  else if code = rcAuthFail then (if cause = 2 then 0x01 else if cause = 1 then 0x02 else 0x03)
  else 0x05

/-- Sends a message by a binding. -/
def State.mgmtSend (s : State) (b : Nat) (m : List Byte) : State := { s with mgmt := { s.mgmt with out := s.mgmt.out ++ [(b, m)] } }

/-- The request that a binding serves now, and its end. -/
def State.mgmtFront (s : State) (b : Nat) : Option (List Byte) := (s.mgmt.queue.find? (fun x => x.1 == b)).map (·.2)
def dropFor (b : Nat) : List (Nat × List Byte) → List (Nat × List Byte)
  | [] => []
  | x :: xs => if x.1 = b then xs else x :: dropFor b xs
def State.mgmtPop (s : State) (b : Nat) : State := { s with mgmt := { s.mgmt with queue := dropFor b s.mgmt.queue } }

/-- What a signed command of a vendor message comes to as it is taken (R532): R413's checks come first, then what R532 lets it hold. A status and its
byte 1 where it is answered at once, and the state, in which Headwater holds it where it is not. -/
def State.takeSignedCmd (s : State) (b : Nat) (m : List Byte) : State × Option (Nat × Nat) :=
  let c := parseSigned (m.drop 6)
  match s.checkCommand c with
  | .error k => (s, some (mgmtStatus rcAuthFail k, 0))
  | .ok s =>
    if c.cmd ≠ 0x0001 ∧ c.cmd ≠ 0x0002 then (s, some (0x04, 0))
    else if c.group ≠ 0xFFFF then (s, some (0x04, 4))
    else if c.targetEn ≠ 0 then (s, some (0x04, 0x14))
    else ({ s with head := { s.head with cmds := s.head.cmds ++ [{ binding := some b, cmd := c }] } }, none)

/-- Serves a binding's queue up to a request that a command of the table serves (R531): a signed command goes to Headwater, what the device does
not offer is answered. -/
def State.mgmtServe (s : State) (b : Nat) : Nat → State
  | 0 => s
  | n + 1 =>
    match s.mgmtFront b with
    | none => s
    | some m =>
      if isVendor m = true ∧ leAt m 5 1 = 2 then
        if s.head.cmds.any (fun c => c.binding == some b) then s
        else if s.sec.approved = false then ((s.mgmtSend b (notReadyReply m)).mgmtPop b).mgmtServe b n
        else
          let r := s.takeSignedCmd b m
          match r.2 with
          | none => r.1
          | some e => ((r.1.mgmtSend b (vendorReply 2 e.1 e.2 [])).mgmtPop b).mgmtServe b n
      else if servedMsgs.contains (msgAsk m) then s
      else ((s.mgmtSend b (unservedReply m)).mgmtPop b).mgmtServe b n

/-- The request that a binding serves ends; the next is taken. -/
def State.mgmtDone (s : State) (b : Nat) : State := (s.mgmtPop b).mgmtServe b 9

/-- Serves the front request of a binding if it asks for what a command of the table does. -/
def State.serveMsg (s : State) (b : Nat) (ask : Nat × Nat × Nat) (f : List Byte → State → State × List Byte) : Out :=
  match s.mgmtFront b with
  | none => .next s
  | some m =>
    if msgAsk m ≠ ask then .next s
    else
      let r := f m s
      .next ((r.1.mgmtSend b r.2).mgmtDone b)

end Sys2Proof.Machine
end

