-- ==== Sys2Proof/Machine/Head.lean ====
section
/-! DEFINITION. Headwater's commands (R412, R413, Tables 15.5 and 15.6): the segments of signed commands, and the effect of each command. -/

namespace Sys2Proof.Machine

/-- Answers a MODEL or CONTROL record with an ACK (R80, Table 15.6), whose payload is empty where the record is refused (R78); a multicast copy is not
answered (R413). -/
def State.ack (s : State) (r : Rec) (code cause detail : Nat) (data : List Byte) : State :=
  let p := if code = rcOk then leBytes 8 detail ++ data else []
  if r.queue = 64 then s
  else s.answer r.key.stamp s.lockstep (recordBytes r) [] p { baseReply r with code := code, cause := cause, payload := p }
/-- A further ACK of a record (R188): its digest joins the epoch's sum (R338), and the record is counted once. -/
def State.ackMore (s : State) (r : Rec) (data : List Byte) : State :=
  let n := s.ack r rcOk 0 0 data
  let c := n.capOf r.tenant
  let e := s.epochOf r.key.stamp
  if r.queue = 64 then n
  else n.setCap r.tenant { c with digests := c.digests.map (fun x => if x.1 = e then (x.1, x.2.1, x.2.2 - 1) else x) }

/-- The kind of launch of a command (Table 15.5). -/
def launchKind (cmd : Nat) : Option Nat := if 0x0010 ≤ cmd ∧ cmd ≤ 0x0017 then some (cmd - 0x000F) else none

/-- A member that cannot apply a multicast launch has missed it (R122, R413): at its target, or at once where that has passed. -/
def State.missLaunch (s : State) (c : SignedCmd) : State :=
  match launchKind c.cmd with
  | none => s
  | some k =>
    let x := s.launchAt c.tenant k c.targetEn
    let l : Launch := { kind := k, tenant := c.tenant, target := x.2.toNat, named := x.1.toNat, missed := true }
    if x.2 ≤ s.epoch then s.applyLaunch l else { s with head := { s.head with launches := s.head.launches ++ [l] } }

/-- What a command comes to: the state, result code and CAUSE, DETAIL, data of its ACK, and further ACKs. -/
structure CmdRes where
  st : State
  code : Nat := 0
  cause : Nat := 0
  detail : Nat := 0
  data : List Byte := []
  more : List (List Byte) := []

/-- Refused with a DETAIL byte 0 and byte 1 (Table 15.6). -/
def CmdRes.no (s : State) (d0 d1 : Nat) : CmdRes := { st := s, detail := d0 + 256 * min d1 255 }

/-- Ends a command: its ACK or response; an accepted one is multicast to its group (R413, R399); a member that has not applied a launch has
missed it. -/
def State.endCmd (c : HwCmd) (r : CmdRes) : State :=
  let s := r.st
  let done := r.code == rcOk && r.detail % 256 == 0
  match c.binding, c.origin with
  | some b, _ =>
    (s.mgmtSend b (vendorReply 2 (mgmtStatus r.code r.cause) (if r.code = rcOk ∨ r.code = rcAuthFail then 0 else r.cause)
      (leBytes 8 r.detail ++ r.data))).mgmtDone b
  | none, none => s
  | none, some o =>
    if o.queue = 64 then (if done then s else s.missLaunch c.cmd)
    else
      let s := s.ack o r.code r.cause r.detail r.data
      let s := r.more.foldl (fun s d => s.ackMore o d) s
      if done = true ∧ c.cmd.group < 64 then
        let m := s.mcastOpen c.cmd.group 2 c.cmd.tenant c.segs.length
        c.segs.foldl (fun s x => s.mcastGive m.2 (recordBytes x)) m.1
      else s

/-- The command at the head of the accepted commands runs if it is of a kind; its reserved fields, its group and the TARGET_EN of a command that is
no launch are checked first (Table 15.4). -/
def State.runCmd (s : State) (cmd : Nat) (f : HwCmd → State → CmdRes) : Out :=
  match s.head.cmds with
  | [] => .next s
  | c :: l =>
    if c.cmd.cmd ≠ cmd then .next s
    else
      let s := { s with head := { s.head with cmds := l } }
      let bad := c.cmd.reserved != 0 || !c.cmd.fits || (decide (64 ≤ c.cmd.group) && c.cmd.group != 0xFFFF) ||
        ((launchKind cmd).isNone && c.cmd.targetEn != 0)
      .next (State.endCmd c (if bad then .no s 0x17 0 else f c s))

/-- The open commands of a tenant (R412), and the one that a record belongs to. -/
def openPort (r : Rec) : Nat := if r.queue = 64 then 64 + 128 * r.key.dev else r.queue
def State.openOf (s : State) (r : Rec) (tag : Nat) : Option OpenCmd :=
  s.head.opens.find? (fun o => o.tenant == r.tenant && o.port == openPort r && o.tag == tag)

/-- What bars a CONTROL record that came to this device itself: the device is not ready for its tenant (R86). -/
def State.unready (s : State) (r : Rec) : Option (Nat × Nat) :=
  if r.queue = 64 then none else s.readiness r.tenant clsControl (s.epochOf r.key.stamp)

/-- A complete command is checked (R413) and joins the accepted ones; one that fails is answered, and a member has missed it. A command may name
only the tenant that owns its port, unless that is 0 with tenancy off. -/
def State.takeCommand (s : State) (r : Rec) (segs : List Rec) : State :=
  let bytes := segs.flatMap (fun (x : Rec) => slice x.payload 16 (leAt x.payload 8 2))
  let c := parseSigned bytes
  let fail := fun (s : State) (code cause : Nat) => if r.queue = 64 then s.missLaunch c else s.ack r code cause 0 []
  if 4 ≤ c.tenant ∨ (s.tenancy = true ∧ c.tenant ≠ r.tenant) then fail s rcRefused 2
  else
    match s.checkCommand c, s.unready r with
    | .error k, _ => fail s rcAuthFail k
    | .ok _, some (rc, k) => fail s rc k
    | .ok s, none => { s with head := { s.head with cmds := s.head.cmds ++ [{ origin := some r, cmd := c, segs := segs }] } }

/-- One segment is held, completes its command, or is refused (R412). -/
def State.takeSegment (s : State) (r : Rec) : State :=
  let p := r.payload
  let tag := leAt p 0 4
  let seg := leAt p 4 1
  let segs := leAt p 5 1
  match segmentFault p with
  | some c => if r.queue = 64 then s else s.ack r rcMalformed c 0 []
  | none =>
    let say := fun (new : State) (d : Nat) => match s.unready r with
      | some (c, k) => s.ack r c k 0 []
      | none => new.ack r rcOk 0 d []
    let put := fun (o : OpenCmd) =>
      let o := if (o.held.find? seg).isSome then o else { o with held := o.held.put seg r }
      let rest := s.head.opens.filter (fun x => !(x.tenant == o.tenant && x.port == o.port && x.tag == o.tag))
      if o.held.length = segs then State.takeCommand { s with head := { s.head with opens := rest } } r (o.held.map (·.2))
      else say { s with head := { s.head with opens := rest ++ [o] } } 0x01
    match s.openOf r tag with
    | some o => if o.segs = segs then put o else say s 0x17
    | none =>
      if 8 ≤ (s.head.opens.filter (fun o => o.tenant == r.tenant)).length then say s 0x19
      else put { tenant := r.tenant, port := openPort r, tag := tag, segs := segs, first := s.now }

/-- Takes the first waiting record of a class; a multicast copy's credit rises (R399). -/
def State.takeHead (s : State) (cls : Nat) : Option (Rec × State) :=
  match s.head.records.find? (fun r => r.cls == cls) with
  | none => none
  | some r =>
    let s := { s with head := { s.head with records := s.head.records.erase r } }
    some (r, if r.queue = 64 then s.mcastTaken r else s)

/-- CONTROL_SEGMENT (R412). -/
def execControlSegment (s : State) : Out := s.gated <|
  match s.takeHead clsControl with
  | none => .next s
  | some (r, s) => .next (s.takeSegment r)

/-- SEGMENT_TIMEOUT (R412): an open command is discarded SEG_TIMEOUT × 1,024 ticks after its first segment. -/
def execSegmentTimeout (tenant port tag : Nat) (s : State) : Out := s.gated <|
  let hit := fun (o : OpenCmd) => o.tenant == tenant && o.port == port && o.tag == tag &&
    decide (o.first + s.fld .hwCfg 0 0 15 0 * 1024 ≤ s.now)
  .next { s with head := { s.head with opens := s.head.opens.filter (fun o => !hit o) } }

/-- The path of a command: 1 for management. -/
def HwCmd.path (c : HwCmd) : Nat := if c.binding.isSome then 1 else 0

/-- Reads register words in ascending order (R550, R553): a fault refuses the whole. -/
def State.readWords (s : State) (path tenant addr : Nat) : Nat → Nat → List Byte → Except (Nat × Nat × Nat) (List Byte × State)
  | 0, _, acc => .ok (acc, s)
  | n + 1, i, acc =>
    match s.readWord path tenant (addr + 4 * i) with
    | .error e => .error (e.1, e.2, i)
    | .ok (w, s) => State.readWords s path tenant addr n (i + 1) (acc ++ leBytes 4 w)

/-- READ_REG (Table 15.5, R550, R553). -/
def execReadReg (s : State) : Out := s.gated <|
  s.runCmd 0x0001 (fun c s =>
    let b := c.cmd.body
    let n := leAt b 4 4
    if b.length ≠ 8 ∨ n < 1 ∨ 1024 < n ∨ leAt b 0 4 % 4 ≠ 0 then .no s 0x17 0
    else
      match s.readWords c.path c.cmd.tenant (leAt b 0 4) n 0 [] with
      | .ok (w, s) => { st := s, data := w }
      | .error (rc, d, i) => if rc = rcOk then .no s d i else { st := s, code := rc, cause := d })

/-- The registers that a key other than the owner key may write with tenancy on (R549). -/
def State.tenantMay (s : State) (t : Nat) (d : RegDesc) (i : Nat) : Bool :=
  let die := fun (x : Nat) => (s.tenantDies t).contains x
  if d.tenant then d.name != .memEddyShare
  else
    match d.name with
    | .tileDieCfg | .muDieCfg => die i
    | .tileStat => die (i / 66)
    | .cntTileCnt => die (i / 528)
    | .muStat => die (i / 9)
    | .cntMuCnt => die (i / 45)
    | .sluBarmask | .sluBarstat => decide (32 ≤ i) && die (i / 16 - 2)
    | .cntSluBarGenErrCnt => decide (2 ≤ i) && die (i - 2)
    | .sluQcfg | .sluQstat | .sluQctl | .cntSluQwaitCnt => decide (64 ≤ i) && die ((i - 64) / 8)
    | .tribPortCfg | .tribPortVlan | .tribPortPfc | .tribPortStat | .tribMacsec => s.portTenant i == t
    | .cntTribPortCnt => s.portTenant (i / 11) == t
    | .braidPortCfg | .braidPortStat => s.fld .braidPortCfg i 0 2 1 == 1 && s.attTenant i == t
    | .cntBraidPortCnt => s.fld .braidPortCfg (i / 9) 0 2 1 == 1 && s.attTenant (i / 9) == t
    | _ => false

/-- WRITE_REG (Table 15.5, R410, R548, R549). -/
def execWriteReg (s : State) : Out := s.gated <|
  s.runCmd 0x0002 (fun c s =>
    let b := c.cmd.body
    let addr := leAt b 0 4
    let t := c.cmd.tenant
    let barred := s.tenancy && c.cmd.keyId != 0 && (match locate addr with | some (d, i, _) => !s.tenantMay t d i | none => false)
    if b.length ≠ 16 ∨ leAt b 12 4 ≠ 0 then .no s 0x17 0
    else if barred then .no (s.writeRefused c.path t addr) 0x18 0
    else
      match s.writeWord c.path t addr (leAt b 8 4) (leAt b 4 4) with
      | .ok s => { st := s }
      | .error (rc, d) =>
        let s := s.writeRefused c.path t addr
        if rc = rcOk then .no s d 0 else { st := s, code := rc, cause := d })

/-- The refusals of every launch (R121): near, far, one of its kind pending. A member tests only that the target has not passed (R122). -/
def State.launchRefused (s : State) (c : HwCmd) (kind : Nat) : Option (Nat × Nat) :=
  let member := match c.origin with | some r => r.queue == 64 | none => false
  let x := s.launchAt c.cmd.tenant kind c.cmd.targetEn
  let lead := x.2 - s.epoch
  if lead < (if member then 1 else (s.fld .timeLaunch 0 0 15 0 : Int)) then some (0x10, 0)
  else if (2 ^ 30 - 1 : Int) < lead then some (0x11, 0)
  else if s.launchPending c.cmd.tenant kind then some (0x12, kind)
  else none

/-- A launch of the command. -/
def State.launchOf (s : State) (c : SignedCmd) (kind : Nat) : Launch :=
  let x := s.launchAt c.tenant kind c.targetEn
  { kind := kind, tenant := c.tenant, target := x.2.toNat, named := x.1.toNat, body := c.body }

/-- Accepts a launch; what it changes of the commit record is written first (R427). -/
def State.addLaunch (s : State) (l : Launch) (commit : Bool) : State :=
  let s := { s with head := { s.head with launches := s.head.launches ++ [l] } }
  if commit then s.writeCommit l.tenant else s

/-- A launch command: its arguments, R121, its own conditions, its acceptance. -/
def launchCmd (kind : Nat) (args : List Byte → Option (Nat × Nat)) (own : State → SignedCmd → Option (Nat × Nat))
    (accept : State → SignedCmd → State) (c : HwCmd) (s : State) : CmdRes :=
  match args c.cmd.body with
  | some e => .no s e.1 e.2
  | none =>
    match s.launchRefused c kind with
    | some e => .no s e.1 e.2
    | none =>
      match own s c.cmd with
      | some e => .no s e.1 e.2
      | none => { st := accept s c.cmd }

/-- A swap or drain swap of the tenant is pending (R421, R268, R319). -/
def swapBars (s : State) (c : SignedCmd) : Option (Nat × Nat) := (s.swapPending c.tenant).map (fun k => (0x12, k))

/-- SWAP (R421). -/
def execSwap (s : State) : Out := s.gated <|
  s.runCmd 0x0010 (launchCmd 1 (fun b => if b.length = 56 then none else some (0x17, 0)) swapBars
    (fun s c => s.addLaunch { s.launchOf c 1 with setId := leAt c.body 0 4, version := leAt c.body 4 4, digest := leAt c.body 8 48 } true))

/-- DRAIN_SWAP (R424): M − N is 1 to 65,535, and the free slot holds the named bundle, checked. -/
def drainBars (s : State) (c : SignedCmd) : Option (Nat × Nat) :=
  let b := c.body
  let m := (leAt b 56 4 + 2 ^ 32 - c.targetEn) % 2 ^ 32
  let x := (s.hwT c.tenant).freeSlot
  let y := bundleOfBytes x.bytes
  match swapBars s c with
  | some e => some e
  | none =>
    if m < 1 ∨ 65535 < m then some (0x17, 0)
    else if x.checked = false ∨ y.setId ≠ leAt b 0 4 ∨ y.setVersion ≠ leAt b 4 4 ∨ y.digest ≠ leAt b 8 48 then some (0x13, 0)
    else none
def execDrainSwap (s : State) : Out := s.gated <|
  s.runCmd 0x0011 (launchCmd 2 (fun b => if b.length = 64 ∧ leAt b 60 4 = 0 then none else some (0x17, 0)) drainBars
    (fun s c =>
      let l := s.launchOf c 2
      let m := (leAt c.body 56 4 + 2 ^ 32 - c.targetEn) % 2 ^ 32
      s.addLaunch { l with setId := leAt c.body 0 4, version := leAt c.body 4 4, digest := leAt c.body 8 48, resumeEn := l.target + m } true))

/-- FREEZE (R135). -/
def execFreeze (s : State) : Out := s.gated <|
  s.runCmd 0x0012 (launchCmd 3 (fun b => if b = [] then none else some (0x17, 0)) (fun _ _ => none) (fun s c => s.addLaunch (s.launchOf c 3) false))

/-- The save manifest of a tenant (R348, Table 12.6), with a set's SET_ID, SET_VERSION and digest. -/
def State.manifestOf (s : State) (t : Nat) (set : Nat × Nat × Nat) : List Byte :=
  let from_ := (s.freezeOf t).from_.getD s.epoch
  let clk := s.rd .pwrClkCfg 0 0
  leBytes 4 0x53464D53 ++ leBytes 1 1 ++ leBytes 1 t ++ leBytes 1 (b2n s.lockstep) ++ leBytes 1 0 ++ leBytes 4 from_ ++ leBytes 4 set.1 ++
  leBytes 4 set.2.1 ++ leBytes 4 0 ++ leBytes 48 set.2.2 ++ leBytes 1 s.epochLog2 ++ leBytes 3 0 ++
  leBytes 4 (s.rd .timeFence 0 0) ++ leBytes 4 (s.rd .timeLock 0 0) ++ leBytes 4 (s.rd .distSettle 0 0) ++ leBytes 4 (keyCheck (s.domKey t)) ++
  leBytes 2 (s.rd .eddyHomeGen t 0) ++ leBytes 2 0 ++ leBytes 4 (clk % 2 ^ 13) ++ leBytes 4 (s.fld .pwrCap 0 0 15 0) ++ leBytes 4 s.device ++
  leBytes 20 0

/-- The manifest that an export carries: with the set in effect at the freeze epoch (R348). -/
def State.manifest (s : State) (t : Nat) : List Byte :=
  let f := s.freezeOf t
  s.manifestOf t (f.set.getD (s.setAt t (f.from_.getD s.epoch)))

/-- The fields that a resume compares, in offset order (Table 12.6, R349). -/
def manifestFields : List (Nat × Nat) :=
  [(0x00, 4), (0x04, 1), (0x05, 1), (0x06, 1), (0x0C, 4), (0x10, 4), (0x18, 48), (0x48, 1), (0x54, 2), (0x58, 4), (0x5C, 2), (0x60, 4), (0x64, 4),
   (0x68, 4)]

/-- RESUME (R135, R190, R349): a manifest is compared with the device's own current values. -/
def resumeBars (s : State) (c : SignedCmd) : Option (Nat × Nat) :=
  if s.eddy.imports.any (fun x => x.tenant == c.tenant) then some (0x16, 0)
  else if c.body = [] then none
  else
    let m := s.manifestOf c.tenant (s.setAt c.tenant s.epoch)
    (manifestFields.find? (fun f => slice c.body f.1 f.2 != slice m f.1 f.2)).map (fun f => (0x15, f.1))
def execResume (s : State) : Out := s.gated <|
  s.runCmd 0x0013 (launchCmd 4 (fun b => if b = [] ∨ b.length = 128 then none else some (0x17, 0)) resumeBars
    (fun s c => s.addLaunch (s.launchOf c 4) false))

/-- Appends an accepted body to the active slot's journal (R428); `none` past 16 MiB. -/
def State.journalAppend (s : State) (l : Launch) : Option State :=
  let h := s.hwT l.tenant
  let x := nth h.slots h.activeSlot {}
  let j := x.journal ++ [{ kind := l.kind, body := l.body, target := l.named }]
  if 2 ^ 24 < (j.map (fun (e : JournalEnt) => e.body.length + 8)).sum then none
  else some (s.setHwT l.tenant (h.putSlot h.activeSlot { x with journal := j }))

/-- The refusals that an edit and a commit share (R268, R319): a swap is pending, or the set differs. -/
def changeBars (s : State) (c : SignedCmd) : Option (Nat × Nat) :=
  match swapBars s c, s.active c.tenant with
  | some e, _ => some e
  | none, none => some (0x13, 0)
  | none, some i => if i.set.setId ≠ leAt c.body 0 4 ∨ i.set.version ≠ leAt c.body 4 4 then some (0x13, 0) else none

/-- The entries of an edit body (Table 9.5). -/
def editEntries (b : List Byte) : List EditEntry := (List.range ((b.length - 16) / 64)).map (fun k => parseEdit (slice b (16 + 64 * k) 64))

/-- One edit entry may be applied with parity `p` (R258, R268): a write goes to a free entry, a delete to one of the current generation. -/
def editOk (i : SetInst) (table p : Nat) (e : EditEntry) : Bool :=
  let us := i.set.partUnits table e.part
  let img := SMap.getD (fun _ => {}) i.units (us.headD 0)
  let old := (img.entries.find? e.addr).getD {}
  !us.isEmpty && decide (e.part < 8) && decide (e.addr < if i.full then 8192 else 4096) && e.reserved == 0 &&
  (if e.op = 1 then (e.key &&& e.mask) == e.key && old.pres == 0
   else e.op == 2 && e.prio == 0 && e.key == 0 && e.mask == 0 && e.value == 0 && bit old.pres (1 - p))

/-- Applies the writes of an edit to every replica, entry by entry (R269): the instance, or the index of the first bad entry. -/
def State.editWrites (s : State) (i : SetInst) (table p : Nat) : List EditEntry → Nat → Except Nat (State × SetInst)
  | [], _ => .ok (s, i)
  | e :: es, k =>
    if editOk i table p e = false then .error k
    else
      let r := s.writePart i table e.part (fun m => applyEdit m e p)
      State.editWrites r.1 r.2 table p es (k + 1)

/-- Changes in order of target; at one target, a rule edit before a capacity commit (R270). -/
def insertChange (x : SetChange) : List SetChange → List SetChange
  | [] => [x]
  | y :: ys => if x.target < y.target ∨ (x.target = y.target ∧ x.kind < y.kind) then x :: y :: ys else y :: insertChange x ys

/-- RULE_EDIT (R268, R269): checked as a whole; journalled; its writes are made on receipt. -/
def execRuleEdit (s : State) : Out := s.gated <|
  s.runCmd 0x0014 (fun c s =>
    let b := c.cmd.body
    let n := (b.length - 16) / 64
    let table := leAt b 8 1
    if b.length < 80 ∨ (b.length - 16) % 64 ≠ 0 ∨ 112 < n ∨ leAt b 9 3 ≠ 0 then .no s 0x17 0
    else
      match s.launchRefused c 5, changeBars s c.cmd, s.active c.cmd.tenant with
      | some e, _, _ => .no s e.1 e.2
      | none, some e, _ => .no s e.1 e.2
      | none, none, none => .no s 0x13 0
      | none, none, some i =>
        if (i.openEdit table).isSome then .no s 0x12 5
        else if (i.set.ruleTable table).isNone then .no s 0x17 0
        else if leAt b 12 4 ≠ i.editCount table then .no s 0x13 0
        else
          let l := s.launchOf c.cmd 5
          let count := i.editCount table + 1
          match s.editWrites i table (count % 2) (editEntries b) 0, s.journalAppend l with
          | .error k, _ => .no s 0x17 k
          | .ok _, none => .no s 0x17 0
          | .ok (w, j), some _ =>
            let x : SetChange := { kind := 5, table := table, target := l.named, due := l.target, count := count, body := b, entries := editEntries b }
            let w := w.setActive c.cmd.tenant { j with changes := insertChange x j.changes }
            { st := ((w.journalAppend l).getD w).addLaunch l true })

/-- The commit count of a set, pending commits included (R319). -/
def SetInst.commits (i : SetInst) : Nat := (i.changes.filter (fun c => c.kind == 6)).length

/-- A commit's entries (R319). -/
def commitEntries (b : List Byte) : List (Nat × Nat × Nat) :=
  (List.range ((b.length - 16) / 8)).map (fun k => (leAt b (16 + 8 * k) 2, leAt b (18 + 8 * k) 2, leAt b (20 + 8 * k) 4))

/-- An entry of a capacity commit may be taken (R319). -/
def commitOk (m : ModelSet) (e : Nat × Nat × Nat) : Bool :=
  let spill := m.policies.any (fun p => p.policy == 3 && p.spill == e.1)
  e.2.1 == 0 && decide (e.2.2 < 2 ^ 24) && ((m.dests.find? e.1).getD {}).valid && (!spill || e.2.2 == 0xFFFFFF)

/-- CAP_COMMIT (R319). -/
def execCapCommit (s : State) : Out := s.gated <|
  s.runCmd 0x0015 (fun c s =>
    let b := c.cmd.body
    let n := (b.length - 16) / 8
    if b.length < 24 ∨ b.length % 8 ≠ 0 ∨ 1016 < n ∨ leAt b 12 4 ≠ 0 then .no s 0x17 0
    else
      match s.launchRefused c 6, changeBars s c.cmd, s.active c.cmd.tenant with
      | some e, _, _ => .no s e.1 e.2
      | none, some e, _ => .no s e.1 e.2
      | none, none, none => .no s 0x13 0
      | none, none, some i =>
        if leAt b 8 4 ≠ i.commits then .no s 0x13 0
        else
          let es := commitEntries b
          let good := (es.takeWhile (commitOk i.set)).length
          let l := s.launchOf c.cmd 6
          if good < es.length then .no s 0x17 good
          else
            match s.journalAppend l with
            | none => .no s 0x17 0
            | some w =>
              let x : SetChange := { kind := 6, target := l.named, due := l.target, count := i.commits + 1, body := b, caps := es.map (fun e => (e.1, e.2.2)) }
              let w := w.setActive c.cmd.tenant { i with changes := insertChange x i.changes }
              { st := w.addLaunch l true })

/-- REPLAY_START (R342). -/
def replayBars (s : State) (c : SignedCmd) : Option (Nat × Nat) :=
  let t := c.tenant
  if s.showDrained t = false ∨ s.showFrozen t = false then some (0x14, 0)
  else if (s.session t).isSome then some (0x16, 0)
  else
    match s.active t with
    | none => some (0x13, 0)
    | some i => if i.digestAt s.epoch ≠ leAt c.body 8 48 then some (0x13, 0) else none
def execReplayStart (s : State) : Out := s.gated <|
  s.runCmd 0x0016 (launchCmd 7 (fun b => if b.length = 56 ∧ leAt b 4 4 = 0 then none else some (0x17, 0)) replayBars
    (fun s c => s.addLaunch { s.launchOf c 7 with resumeEn := (extendEN s.epoch (leAt c.body 0 4)).toNat } false))

/-- REPLAY_END (R347). -/
def execReplayEnd (s : State) : Out := s.gated <|
  s.runCmd 0x0017 (launchCmd 8 (fun b => if b = [] then none else some (0x17, 0))
    (fun s c => if (s.session c.tenant).isSome then none else some (0x16, 0)) (fun s c => s.addLaunch (s.launchOf c 8) false))

/-- REPLAY_DONE (R347): the session's end has come and no epoch of the tenant is live; the tenant stays frozen. -/
def execReplayDone (tenant : Nat) (s : State) : Out := s.gated <|
  match s.session tenant with
  | none => .next s
  | some z =>
    let ended : Bool := match z.e with | some e => decide (e ≤ s.epoch) | none => false
    let busy : Bool := s.weir.hubs.any (fun w => w.recs.any (fun r => r.2.phase != .tail && r.2.r.tenant == tenant)) ||
      s.weir.queues.any (fun q => q.2.any (fun x => x.r.tenant == tenant && !x.ghost))
    if ended = false ∨ busy = true then .next s
    else
      let miss := s.cnt .cntCapCnt (3 * tenant + 2) % 2 ^ 48
      let s := s.setCap tenant { s.capOf tenant with session := none }
      .next (s.event 0x0C03 tenant tenant (detailOf [(4, sat32 z.count), (4, sat32 ((miss + 2 ^ 48 - z.miss0) % 2 ^ 48))]))

/-- What bars a change of the free slot (R415): a swap is pending, or the old half is not yet released. -/
def State.slotBars (s : State) (t : Nat) : Option (Nat × Nat) :=
  match s.swapPending t with
  | some k => some (0x12, k)
  | none => if (s.hwT t).old.isSome then some (0x12, 0) else none

/-- Clears a tenant's shadow half and free bundle slot, with any transfer or load. -/
def HwTenant.discard (h : HwTenant) : HwTenant :=
  { h.putSlot (1 - h.activeSlot) {} with
    xfer := none, shadow := none, loadState := 0
    halves := match h.shadow with | some i => setNth h.halves i.half none | none => h.halves }

/-- DISCARD_SHADOW (Table 15.5, R418). -/
def execDiscardShadow (s : State) : Out := s.gated <|
  s.runCmd 0x0020 (fun c s =>
    if c.cmd.body ≠ [] then .no s 0x17 0
    else
      match s.slotBars c.cmd.tenant with
      | some e => .no s e.1 e.2
      | none => { st := (s.endStreams c.cmd.tenant 4).setHwT c.cmd.tenant (s.hwT c.cmd.tenant).discard })

/-- An export key loaded for a tenant (R471). -/
def State.exportKey? (s : State) (t id : Nat) : Option ExportKey := s.sec.exportKeys.find? (fun k => k.tenant == t && k.id == id)

/-- EXPORT (R188, R348): the manifest in the first ACK, then one ACK a chunk. -/
def execExportStore (s : State) : Out := s.gated <|
  s.runCmd 0x0030 (fun c s =>
    let b := c.cmd.body
    let t := c.cmd.tenant
    if b.length ≠ 8 then .no s 0x17 0
    else if s.showDrained t = false then .no s 0x14 0
    else
      match s.exportKey? t (leAt b 4 4) with
      | none => .no s 0x17 0
      | some k =>
        if s.eddy.exports.any (fun x => x.tenant == t) then .no s 0x16 0
        else
          let m := match s.active t with | some i => i.set | none => {}
          let from_ := (s.freezeOf t).from_.getD s.epoch
          let chunks := s.exportChunks t (leAt b 0 4) from_ k.no k.id m
          let x : ExportSt := { tenant := t, exportId := leAt b 0 4, keyId := k.id, chunks := chunks.length }
          let r := s.eddyRegion t
          { st := ({ s with eddy := { s.eddy with exports := s.eddy.exports ++ [x] } } : State).armExport t r.1 r.2, data := s.manifest t, more := chunks })

/-- EDDY_EXPORT_DONE (R188). -/
def execEddyExportDone (tenant : Nat) (s : State) : Out := s.gated <|
  match s.eddy.exports.find? (fun x => x.tenant == tenant) with
  | none => .next s
  | some x =>
    let s := { s with eddy := { s.eddy with exports := s.eddy.exports.filter (fun y => y.tenant != tenant) } }
    .next ((s.endStreams tenant 6).event 0x0603 tenant tenant (detailOf [(4, x.exportId), (4, x.chunks)]))

/-- The classes and partitions of a tenant's schema, as 12 · class + partition. -/
def State.importParts (s : State) (t : Nat) : List Nat :=
  match s.active t with
  | none => []
  | some i =>
    match i.set.schema with
    | none => []
    | some x => x.classes.flatMap (fun (c : KeyClass) => (List.range 12).map (12 * c.cls + ·))

/-- EDDY_IMPORT_DONE (R190): every class and partition has all its chunks. -/
def State.importDone (s : State) (x : ImportSt) : State :=
  let full := (s.importParts x.tenant).all (fun p =>
    match x.total.find? p with
    | none => false
    | some n => (x.taken.filter (fun c => c.1 == p)).length == n)
  let rest := s.eddy.imports.filter (fun y => y.tenant != x.tenant)
  if full then
    State.event { s with eddy := { s.eddy with imports := rest } } 0x0604 x.tenant x.tenant (detailOf [(4, x.exportId), (4, x.taken.length)])
  else { s with eddy := { s.eddy with imports := rest ++ [x] } }

/-- IMPORT_BEGIN (R190): the tenant's tag arrays are cleared first. -/
def execImportBegin (s : State) : Out := s.gated <|
  s.runCmd 0x0031 (fun c s =>
    let b := c.cmd.body
    let t := c.cmd.tenant
    if b.length ≠ 8 then .no s 0x17 0
    else if s.showDrained t = false then .no s 0x14 0
    else
      match s.exportKey? t (leAt b 4 4) with
      | none => .no s 0x17 0
      | some k =>
        if s.eddy.imports.any (fun x => x.tenant == t) then .no s 0x16 0
        else { st := (s.clearStore t none).importDone { tenant := t, exportId := leAt b 0 4, keyId := k.id, keyNo := k.no } })

/-- IMPORT_CHUNK (R189, R190). -/
def execImportChunk (s : State) : Out := s.gated <|
  s.runCmd 0x0032 (fun c s =>
    let b := c.cmd.body
    let t := c.cmd.tenant
    match s.eddy.imports.find? (fun x => x.tenant == t) with
    | none => .no s 0x16 0
    | some x =>
      if b.length < 80 then .no s 0x17 0
      else
        match Config.openChunk x.keyNo (b.take 64) (b.drop 64) with
        | none => { st := s, code := rcAuthFail, cause := 1 }
        | some plain =>
          let cls := leAt b 7 1
          let part := leAt b 6 1
          let k := match s.active t with | some i => (i.set.keyClass cls).getD { slot := 0xFF } | none => { slot := 0xFF }
          let n := leAt b 0x1E 1
          let size := 72 + 8 * slotBytes k.slot
          if leAt b 0 4 ≠ 0x58454445 ∨ leAt b 4 1 ≠ 1 ∨ 12 ≤ part ∨ leAt b 8 4 ≠ x.exportId then .no s 0x17 0
          else if leAt b 0x18 4 ≠ keyCheck (s.domKey t) ∨ leAt b 0x16 2 ≠ s.rd .eddyHomeGen t 0 % 65536 ∨ leAt b 0x1C 1 ≠ k.slot ∨
              leAt b 0x1D 1 ≠ k.bucketsLog2 then { st := s, code := rcRefused, cause := 2 }
          else if plain.length ≠ n * size ∨ (List.range n).any (fun i => decide (2 ^ k.bucketsLog2 ≤ leAt plain (i * size) 4)) = true then .no s 0x17 0
          else if x.taken.contains (12 * cls + part, leAt b 0xC 4) then { st := s }
          else
            let put := fun (m : SMap EBucket) (i : Nat) =>
              m.put (bucketKey t cls part (leAt plain (i * size) 4)) (bucketOfBytes k.slot (slice plain (i * size + 8) (size - 8)))
            let s := { s with eddy := { s.eddy with buckets := (List.range n).foldl put s.eddy.buckets } }
            let x := { x with taken := x.taken ++ [(12 * cls + part, leAt b 0xC 4)]
                              total := if bit (leAt b 0x1F 1) 0 then x.total.put (12 * cls + part) (leAt b 0x20 4) else x.total }
            { st := s.importDone x })

/-- CAPTURE_READ (Table 15.5, R341): bytes of the ring from CAP_RD + offset. -/
def execCaptureRead (s : State) : Out := s.gated <|
  s.runCmd 0x0040 (fun c s =>
    let b := c.cmd.body
    let x := s.capOf c.cmd.tenant
    let ring := x.ring.flatMap (·.2)
    let off := leAt b 0 8
    let n := leAt b 8 4
    if b.length ≠ 16 ∨ leAt b 12 4 ≠ 0 ∨ 8160 < n ∨ ring.length < off + n then .no s 0x17 0
    else { st := s, data := slice ring off n })

/-- CAPTURE_GAP_ENTRY (R341): one gap entry once space has returned. -/
def execCaptureGapEntry (tenant : Nat) (s : State) : Out := s.gated <|
  if (s.capOf tenant).loss.isNone then .next s
  else
    let r := s.gapEntry tenant
    .next (if r.2 then r.1 else s)

/-- The fault of a chunk's header (R415, Table 15.7): DETAIL 0x17. -/
def State.chunkBad (s : State) (r : Rec) : Bool :=
  let p := r.payload
  let k := leAt p 4 4
  let n := leAt p 8 4
  let d := leAt p 12 2
  let t := leAt p 14 1
  let g := leAt p 16 2
  let room := (if s.tenancy then 2 ^ 30 else 2 ^ 32) - 2 ^ 24
  leAt p 15 1 != 0 || !allZero (slice p 18 14) || decide (n ≤ k) || decide (d < 8) || decide (8160 < d) ||
  (k + 1 != n && d != 8160) || decide (4 ≤ t) || (s.tenancy && t != r.tenant) || (!s.tenancy && t != 0) ||
  (decide (64 ≤ g) && g != 0xFFFF) || decide (room < 8160 * (n - 1) + 8)

/-- The bytes of a complete transfer. -/
def Transfer.bytes (x : Transfer) : List Byte := x.held.flatMap (·.2)

/-- A transfer that has all its chunks is written into the free slot, and its checks begin (R415, R417). -/
def State.transferDone (s : State) (t : Nat) (x : Transfer) : State :=
  let h := s.hwT t
  let b := x.bytes
  let room := (if s.tenancy then 2 ^ 30 else 2 ^ 32) - 2 ^ 24
  let slot : BundleSlot := { bytes := b.take room, complete := true }
  (s.setHwT t { h.putSlot (1 - h.activeSlot) slot with xfer := none, xferNo := x.id, loadState := 2, rejected := false }).writeCommit t

/-- MODEL_CHUNK (R415): a chunk is held, ignored, or refused; a new transfer discards an incomplete one and the shadow set. The record is
multicast to the chunk's group as Headwater takes it (R397). -/
def State.takeChunk (s : State) (r : Rec) : State :=
  let p := r.payload
  let t := leAt p 14 1
  let id := leAt p 0 4
  let k := leAt p 4 4
  let n := leAt p 8 4
  let h := s.hwT t
  let say := fun (s : State) (d0 d1 held : Nat) => s.ack r rcOk 0 (d0 + 256 * d1 + 2 ^ 32 * held) []
  if s.chunkBad r then say s 0x17 0 (match h.xfer with | some x => x.held.length | none => 0)
  else
    let x? : Except (Nat × Nat) (Transfer × State) :=
      match h.xfer.filter (fun x => x.id == id) with
      | some x => if x.chunks = n then .ok (x, s) else .error (0x17, 0)
      | none =>
        match s.slotBars t with
        | some e => .error e
        | none =>
          let g := leAt p 16 2
          let m := if r.queue ≠ 64 ∧ g < 64 then s.mcastOpen g 1 t n else (s, 0)
          let x : Transfer := { id := id, chunks := n, group := if r.queue ≠ 64 then g else 0xFFFF, mcast := m.2 }
          .ok (x, (m.1.endStreams t 4).setHwT t { h.discard with loadState := 1 })
    match x? with
    | .error e => say s e.1 e.2 (match h.xfer with | some x => x.held.length | none => 0)
    | .ok (x, s) =>
      let x := { x with last := s.now }
      let new := (x.held.find? k).isNone
      let x := if new then { x with held := x.held.put k (slice p 32 (leAt p 12 2)) } else x
      let s := if new = true ∧ x.group < 64 then s.mcastGive x.mcast (recordBytes r) else s
      let s := if x.held.length = n then s.transferDone t x else s.setHwT t { s.hwT t with xfer := some x }
      say s (if x.held.length = n then 0x00 else 0x01) 0 x.held.length
def execModelChunk (s : State) : Out := s.gated <|
  match s.takeHead clsModel with
  | none => .next s
  | some (r, s) => .next (s.takeChunk r)

end Sys2Proof.Machine
end

