-- ==== Sys2Proof/Machine/Boot.lean ====
section
/-! DEFINITION. Boot (R407 to R411, R419, R429 to R431): images, the boot steps, and what each reset gives back to the tenants. -/

namespace Sys2Proof.Machine

/-- A boot image from the bytes of its flash device (R407, Table 15.1). -/
def imageOfBytes (b : List Byte) : BootImage :=
  let n := leAt b 6 2
  { magic := leAt b 0 4, version := leAt b 4 1, slot := leAt b 5 1, nsect := n, imageVersion := leAt b 8 4, imageLen := leAt b 0xC 4
    keyId := leAt b 0x10 4, sigOff := leAt b 0x14 4, reserved := leAt b 0x18 40
    sections := (List.range n).map (fun i => sectionOfBytes b (slice b (64 + 64 * i) 64)), signed := b.take (64 + 64 * n)
    sigs := slice b (leAt b 0x14 4) 8192 }

/-- The sections of a type. -/
def BootImage.ofType (x : BootImage) (t : Nat) : List ImgSection := x.sections.filter (fun (e : ImgSection) => e.type == t)

/-- Header and directory hold legal values (R408; R465: IMAGE_LEN stays below the state area). -/
def BootImage.legal (x : BootImage) (dev : Nat) : Bool :=
  x.magic == 0x4D495748 && x.version == 1 && x.slot == dev && decide (3 ≤ x.nsect) && decide (x.nsect ≤ 16) && x.reserved == 0 &&
  decide (x.imageLen < 0x0F800000) && x.sigOff + 8192 == x.imageLen &&
  x.sections.all (fun (e : ImgSection) => decide (1 ≤ e.type) && decide (e.type ≤ 4) && e.reserved == 0 &&
    (if e.type = 3 then decide (e.tenant < 4) else e.tenant == 0))

/-- The keys that may sign boot images (R464): the Jalca boot key while the device is not owned, else entries with PERMS bit 0, which
an Operator's may hold (Table 17.2). -/
def State.imageSigned (s : State) (x : BootImage) : Bool :=
  if s.sec.owner.isNone then blockVerifies Config.jalcaEcdsa Config.jalcaMldsa x.signed x.sigs
  else
    match s.keyEnt? x.keyId with
    | none => false
    | some k => (k.keyId == 0 || (k.role == 2 && bit k.perms 0)) && k.algs % 4 == 3 && blockVerifies k.ecdsa k.mldsa x.signed x.sigs

/-- The first condition of R408 but its last that the image of a flash device fails, 1 to 6; 0 where none up to `last` does. -/
def State.imageFault (s : State) (dev last : Nat) : Nat :=
  let x := imageOfBytes (nth s.head.flash dev [])
  let one := fun (t : Nat) => decide ((x.ofType t).length = 1)
  let checks : List (Nat × Bool) := [(1, x.legal dev),
    (2, one 1 && one 2 && one 4 && decide (((x.ofType 3).map (fun (e : ImgSection) => e.tenant)).Nodup)),
    (3, x.sections.all (fun (e : ImgSection) => decide (e.offset + e.length ≤ x.sigOff))),
    (4, s.imageSigned x), (5, decide (s.sec.minVer ≤ x.imageVersion)),
    (6, x.sections.all (fun (e : ImgSection) => e.hash == hash384 e.data))]
  match checks.find? (fun c => decide (c.1 ≤ last) && !c.2) with
  | some c => c.1
  | none => 0

/-- The image being booted. -/
def State.bootImage (s : State) : BootImage := imageOfBytes (nth s.head.flash (b2n s.head.bootedB) [])

/-- Boot goes on at a step. -/
def State.toStep (s : State) (n : Nat) : State := { s with head := { s.head with step := n } }

/-- Boot stops here; the fault shows only on the management path. -/
def State.bootStop (s : State) : State := { s with head := { s.head with dead := true } }

/-- The reset that this boot follows kept what a warm reset keeps (Table 19.12). -/
def State.warmBoot (s : State) : Bool := decide (6 ≤ s.power.resetCause)

/-- The image proves invalid (R408): boot restarts from the first step with the other one, or stops where that was tried already. A warm boot
never changes the image (R409): it stops (DESIGN CHOICE: the spec does not say what a warm boot does with an image that no longer holds, log 82). -/
def State.imageInvalid (s : State) : State :=
  if s.head.fallback || s.warmBoot then s.bootStop
  else { s with head := { s.head with step := 1, bootedB := !s.head.bootedB, fallback := true, chosen := true } }

/-- Boot step 3 (R408, R409): after a cold reset the image is chosen once, and its header, directory, signatures and version are checked. A warm
boot takes the image of the last cold reset and repeats neither. -/
def State.imageChoice (s : State) : State :=
  if s.warmBoot && s.head.chosen then s.toStep 4 else
  let ok := fun (b : Bool) => s.imageFault (b2n b) 5 == 0
  let vers := fun (k : Nat) => (imageOfBytes (nth s.head.flash k [])).imageVersion
  let first := match s.fld .hwBoot 0 0 1 0 with
    | 1 => false
    | 2 => true
    | _ => if ok false = true ∧ ok true = true then decide (vers 0 < vers 1) else ok true
  let s := if s.head.chosen then s else { s with head := { s.head with chosen := true, bootedB := first } }
  if s.imageFault (b2n s.head.bootedB) 5 = 0 then s.toStep 4 else s.imageInvalid

/-- The module takes the copy of the state area that authenticates with the later sequence (R465), and sets every floor to its reservation
(R466). `bad` names the copies found changed. -/
def State.loadArea (s : State) (bad : List Nat) : State :=
  let x := s.sec
  let x := { x with area0 := { x.area0 with intact := x.area0.intact && !bad.contains 0 }, area1 := { x.area1 with intact := x.area1.intact && !bad.contains 1 } }
  let pick := match x.area0.intact, x.area1.intact with
    | true, true => some (if seqLater x.area0.seq x.area1.seq then x.area1 else x.area0)
    | true, false => some x.area0
    | false, true => some x.area1
    | false, false => none
  match pick with
  | none => { s with sec := { x with keys := [], lost := true } }
  | some a =>
    { s with sec := { x with keys := a.keys.map (fun (k : KeyEnt) => { k with floors := k.reserve }), sigPolicy := a.sigPolicy, tenancy := a.tenancy
                             fallback := !(x.area0.intact && x.area1.intact), lost := false } }

/-- Boot step 4 (R411): the sections read match their hashes; on a cold boot with every check before that one. -/
def State.sectionsHold (s : State) : Bool :=
  if s.warmBoot then s.bootImage.sections.all (fun (e : ImgSection) => e.hash == hash384 e.data) else s.imageFault (b2n s.head.bootedB) 6 == 0

/-- The random generator is seeded from the entropy source where it holds no state (R461, R469): the seed is a free value. -/
def State.seedDrbg (s : State) : State :=
  if s.sec.drbg = 0 then
    let f := s.freshWord
    { f.2 with sec := { f.2.sec with drbg := f.1 + 1 } }
  else s

/-- Boot step 2 (R461): a module in its error state stays there over a warm reset. -/
def State.selfTestBoot (s : State) (b : BootIn) : State :=
  match (if s.sec.error then some s.sec.failTest else b.testFail) with
  | some k => State.bootStop { s with sec := { s.sec with error := true, failTest := k } }
  | none =>
    let s := (if s.warmBoot = true ∧ s.sec.keys ≠ [] then s else s.loadArea b.areaBad).seedDrbg
    State.toStep { s with sec := { s.sec with approved := true } } 3

/-- The stacks that are not lastingly faulty have been trained (R434, Table 16.9). -/
def StackSt.trained (k : StackSt) : StackSt := if k.state = 1 then { k with state := 0 } else k
def State.trainStacks (s : State) : State := { s with mem := { s.mem with stk := s.mem.stk.map StackSt.trained } }

/-- Boot step 5 up to the fill (R411, R449, R455, R490): hard repair and training; the fill runs on, beside step 6. A cold boot marks the units that fail their self-test, and a
hub-to-hub link that fails in the reset that its fault caused stops the boot. -/
def State.memoryBoot (s : State) (b : BootIn) : State :=
  let link := b.failed.contains 0x4010
  if link = true ∧ s.power.resetCause = 9 then s.bootStop
  else
    let s := s.hardPpr
    let s := s.trainStacks
    let s := if s.warmBoot then s
      else (b.failed.filter (fun u => s.unitThere u && u != 0x4010)).foldl (fun s u => s.markLasting u 2) s
    if link then s.markLasting 0x4010 2 else s.toStep 6

/-- Applies one configuration record (R410): tenant 0's copy of a per-tenant register. -/
def State.configRecord (s : State) (r : List Byte) : Option State :=
  if leAt r 12 4 ≠ 0 ∨ r.length ≠ 16 then none
  else
    match s.writeWord 1 0 (leAt r 0 4) (leAt r 8 4) (leAt r 4 4) with
    | .ok s => some s
    | .error _ => none

/-- Applies the configuration section in list order; a record that is refused makes the image invalid. -/
def State.configApply (s : State) (b : List Byte) : Option State :=
  (List.range ((b.length + 15) / 16)).foldl (fun r i => r.bind (fun s => s.configRecord (slice b (16 * i) 16))) (some s)

/-- The tenants in use (R410). -/
def State.tenantsInUse (s : State) : List Nat := if s.tenancy then [0, 1, 2, 3] else [0]

/-- Boot step 6 (R59, R410): the records are applied, the arrangements fixed, admission opened. A section that does not apply whole leaves nothing. -/
def State.configBoot (s : State) : State :=
  match s.configApply (((s.bootImage.ofType 2).map ImgSection.data).headD []) with
  | none => s.imageInvalid
  | some n =>
    let n := { n with trib := { n.trib with arrange := [n.fld .tribCfg 0 0 1 0, n.fld .tribCfg 1 0 1 0] } }
    let n := n.tenantsInUse.foldl (fun n t => n.setFreeze t { from_ := none, drained := false }) n
    n.toStep 7

/-- A set read from a bundle slot, checked under R417 and R55 and placed directly (R419, R472): the instance, the failed check, or the outcome. -/
def State.slotInst (s : State) (t k : Nat) : Except (Nat ⊕ LoadResult × Nat) (SetInst × LoadResult) :=
  let x := nth (s.hwT t).slots k {}
  let f := s.bundleFault t x
  if f ≠ 0 then .error (.inl f)
  else
    let m := (bundleOfBytes x.bytes).modelSet
    let r := s.loadOutcome t true m
    let r : LoadResult := if r.placed ∧ tasksFit m = false then { outcome := loLimit } else r
    if r.placed then .ok (placedSet s.rateEnv m 0 r.outcome (needsFull m), r) else .error (.inr (r, m.setId))

/-- Re-applies one journal entry (R428, Table 15.12): an applied one is in effect, a pending one keeps its target. -/
def State.journalEntry (s : State) (i : SetInst) (e : JournalEnt) : State × SetInst :=
  if e.kind = 5 then
    let table := leAt e.body 8 1
    let count := i.editCount table + 1
    let es := editEntries e.body
    let r := es.foldl (fun a x => a.1.writePart a.2 table x.part (fun m => applyEdit m x (count % 2))) (s, i)
    let c : SetChange := { kind := 5, table := table, target := e.target, due := e.target, count := count, body := e.body, entries := es, done := e.applied }
    let i := { r.2 with changes := insertChange c r.2.changes }
    if e.applied then
      let r := es.foldl (fun a x => a.1.writePart a.2 table x.part (fun m => settleEntry m x.addr (count % 2))) (r.1, i)
      (r.1, { r.2 with editCounts := r.2.editCounts.put table count })
    else (r.1, i)
  else
    let c : SetChange := { kind := 6, target := e.target, due := e.target, count := i.commits + 1, body := e.body
                           caps := (commitEntries e.body).map (fun x => (x.1, x.2.2)), done := e.applied }
    (s, { i with changes := insertChange c i.changes })
def State.journalReplay (s : State) (i : SetInst) (j : List JournalEnt) : State × SetInst := j.foldl (fun a e => a.1.journalEntry a.2 e) (s, i)

/-- The launches of a journal's pending entries. -/
def pendingLaunches (t : Nat) (j : List JournalEnt) : List Launch :=
  (j.filter (fun (e : JournalEnt) => !e.applied)).map (fun (e : JournalEnt) =>
    { kind := e.kind, tenant := t, target := e.target, named := e.target, body := e.body })

/-- The set of a tenant's active slot becomes its active set, with its journal; one that fails leaves the tenant with no set. -/
def State.bootPlace (s : State) (t : Nat) : State :=
  let h := s.hwT t
  let k := h.activeSlot
  let x := nth h.slots k {}
  match s.slotInst t k with
  | .error (.inl f) => (s.setHwT t { h.putSlot k {} with rejected := true }).event 0x0F02 t t (detailOf [(1, f), (3, 0), (4, h.xferNo)])
  | .error (.inr (r, id)) => (s.setHwT t (h.putSlot k {})).loadDone t 0 r id
  | .ok (i, r) =>
    let a := (s.setHwT t (h.putSlot k { x with checked := true })).journalReplay i x.journal
    let s := ((a.1.placeActive t a.2).countLoad a.2.units).loadDone t 0 r i.set.setId
    { s with head := { s.head with launches := s.head.launches ++ pendingLaunches t x.journal } }

/-- Boot step 8 after a cold reset (R419, R430): a tenant's bundle section is copied to its active slot and placed. -/
def State.coldLoad (s : State) (t : Nat) : State :=
  match s.bootImage.sections.find? (fun (e : ImgSection) => e.type == 3 && e.tenant == t) with
  | none => s
  | some e =>
    let h := s.hwT t
    let x : BundleSlot := { bytes := e.data, complete := true }
    let passes : Bool := s.bundleFault t x == 0
    let s := (s.setHwT t (h.putSlot h.activeSlot x)).bootPlace t
    let s := if (s.active t).isSome ∧ bit (s.fld .hwBoot 0 0 7 4) t = true then s.setHwT t ((s.hwT t).missSwap 0) else s
    if passes then s.writeCommit t else s

/-- A drain swap goes straight to placement after a warm reset (Table 15.12): the tenant is frozen from N and drained. -/
def State.drainAgain (s : State) (l : Launch) : State :=
  let s := s.setHwT l.tenant { s.hwT l.tenant with drainSwap := some l, drainPlaced := false }
  s.setFreeze l.tenant { from_ := some l.target, drained := true }

/-- A drain swap whose placement had ended before the reset (R424): its bundle left the free slot for the active one, so admission alone is left
to reopen, at RESUME_EN (DEDUCED, log 111). -/
def State.drainEnded (s : State) (l : Launch) : State :=
  let s := s.drainAgain l
  let s := s.setHwT l.tenant { s.hwT l.tenant with drainPlaced := true }
  (s.drainReopen l.tenant).writeCommit l.tenant

/-- Boot step 8 after a warm reset (R426, R429, Table 15.12): the flags of the commit record say what stood. -/
def State.warmLoad (s : State) (t : Nat) : State :=
  let h := s.hwT t
  let c := h.commit
  if c.valid = false then s
  else
    let k := c.activeSlot % 2
    let flag := fun (i : Nat) => bit c.flags i
    let named := (extendEN s.epoch c.targetEn).toNat
    let free := nth h.slots (1 - k) {}
    let fb := bundleOfBytes free.bytes
    let l : Launch := { kind := 1, tenant := t, target := named, named := named, setId := fb.setId, version := fb.setVersion, digest := fb.digest }
    let d : Launch := { l with kind := 2, resumeEn := (extendEN s.epoch c.resumeEn).toNat }
    if flag 5 then
      let a := match s.slotInst t (1 - k) with
        | .ok (i, _) => let a := s.journalReplay i free.journal; (a.1, some a.2)
        | .error _ => (s, none)
      let d : Launch := { d with setId := c.activeSetId, version := c.activeVersion, digest := c.activeDigest }
      let s := a.1.setHwT t { h with activeSlot := k, placing := true, loadState := 3, drainOld := a.2 }
      let s := if flag 7 then s.setHwT t ((s.hwT t).missSwap named) else s
      let x := nth h.slots k {}
      ((s.drainAgain d).writeCommit t).armLoad t k x.bytes.length (bundleOfBytes x.bytes).modelSet
    else
      let h : HwTenant := { h with activeSlot := k }
      let keep := free.complete && !flag 6
      let s := s.setHwT t (if keep then { h with loadState := if flag 4 then 0 else 2 } else h.putSlot (1 - k) {})
      let s := if flag 0 then s.bootPlace t else s
      let s := if flag 6 then s.event 0x0F05 t t s.now else s
      let s := if flag 7 then s.setHwT t ((s.hwT t).missSwap named) else s
      let s := if flag 3 then
          if named ≤ s.epoch then
            (s.setHwT t ((s.hwT t).missSwap named)).event 0x0F04 t t (detailOf [(1, (s.hwT t).failReason), (3, 0), (4, named)])
          else { s with head := { s.head with launches := s.head.launches ++ [l] } }
        else s
      if flag 4 then
        if s.epoch < named then State.writeCommit { s with head := { s.head with launches := s.head.launches ++ [d] } } t
        else if flag 2 then (s.drainAgain d).drainPlacement t
        else s.drainEnded { d with setId := c.activeSetId, version := c.activeVersion, digest := c.activeDigest }
      else s.writeCommit t

/-- The events that wait for boot step 9: SEC_ZEROISED gives BT now (Table 17.10). -/
def State.bootEvents (s : State) : State :=
  let l := s.power.boot9
  let s := { s with power := { s.power with boot9 := [] } }
  let x := s.bootImage
  let s := s.event 0x0F00 0xFFFF 0xFF (detailOf [(1, b2n s.head.bootedB), (1, b2n s.head.fallback), (2, 0), (4, x.imageVersion)])
  l.foldl (fun s e => s.event e.1 e.2.1 0xFF (if e.1 = 0x1104 then s.now else e.2.2)) s

/-- Boot steps 8 and 9: the tenants in use get their sets back, and the device serves. -/
def State.setsBoot (s : State) : State :=
  let n := s.tenantsInUse.foldl (fun s t => if s.warmBoot then s.warmLoad t else s.coldLoad t) (s.toStep 9)
  s.noteShort n.bootEvents.noteDegraded

/-- BOOT_STEP_COMPLETE (R411): the step that runs completes, if what it waits for is there. Step 5's completion is that of its training: its fill
runs on while step 6 does (Table 15.3 row 6) until MEM_ERASE_DONE, and step 8, which reads external memory, waits for it (R449). -/
def execBootStepComplete (b : BootIn) (s : State) : Out := s.gated <|
  if s.head.dead then .next s
  else
    match s.head.step with
    | 1 =>
      if b.ok = false ∨ b.refs % 4 = 0 then .next s
      else
        let main := bit b.refs 0
        .next (State.toStep { s with power := { s.power with ref := { s.power.ref with red := !main, mainOk := main, redOk := bit b.refs 1 } } } 2)
    | 2 => .next (s.selfTestBoot b)
    | 3 => .next s.imageChoice
    | 4 => .next (if s.sectionsHold then s.toStep 5 else s.imageInvalid)
    | 5 => .next (if b.ok then s.memoryBoot b else s)
    | 6 => .next s.configBoot
    | 7 => .next (if s.time.state = 1 then s.toStep 8 else s)
    | 8 => .next (if s.mem.erased then s.setsBoot else s)
    | _ => .next s

end Sys2Proof.Machine
end

