-- ==== Sys2Proof/Machine/Security.lean ====
section
/-! DEFINITION. The security module's services (R461 to R472, R475, R478, Tables 17.4 and 17.5) and its SPDM responder (R473, R474). -/

namespace Sys2Proof.Machine

/-- What a service comes to: the state, the status of Table 17.4, byte 1, the data. -/
structure SvcRes where
  st : State
  status : Nat := 0
  b1 : Nat := 0
  data : List Byte := []

/-- An answer with a status and byte 1 (Table 17.4). -/
def SvcRes.no (s : State) (status b1 : Nat) : SvcRes := { st := s, status := status, b1 := b1 }

/-- The first header field of a service request that does not hold what R467 says, by its offset; a request of the
unauthenticated role has SIG_ALG 0 and no signature. -/
def svcFault (c : SignedCmd) (open_ : Bool) : Option Nat :=
  if open_ = true ∧ c.sigAlg ≠ 0 then some 2
  else if 4 ≤ c.tenant then some 3
  else if c.group ≠ 0xFFFF then some 4
  else if c.targetEn ≠ 0 then some 0x14
  else if c.fits = false then some 0x18
  else if c.reserved ≠ 0 then some 6
  else if open_ = true ∧ c.sigs ≠ [] then some (min 0xFF (0x20 + c.body.length))
  else none

/-- The offset in the body of the first argument that is missing, or of what follows the last, from the arguments' lengths (Table 17.4). -/
def argsFault : List Nat → Nat → Nat → Option Nat
  | [], off, len => if len = off then none else some (min 0xFF off)
  | n :: l, off, len => if len < off + n then some (min 0xFF off) else argsFault l (off + n) len
/-- One argument of 4 bytes, with 4 bytes of 0 after it; `bad` says that its value is not one the service takes. -/
def oneArgFault (c : SignedCmd) (bad : Bool) : Option Nat :=
  if c.body.length < 4 ∨ bad = true then some 0 else if leAt c.body 4 4 ≠ 0 then some 4 else argsFault [4, 4] 0 c.body.length

/-- The Crypto Officer, and the officer of a tenant (Table 17.2). -/
def KeyEnt.crypto (k : KeyEnt) : Bool := k.keyId == 0
def KeyEnt.officer (k : KeyEnt) (t : Nat) : Bool := k.keyId == 0 || (k.role == 1 && decide (t < 4) && k.tenants == 2 ^ t)

/-- A service with its checks (R461, R467): the module serves in approved mode only, and not while its self-test runs; a role is authenticated as
R413 says, in that order, and then the header's other fields are checked; `role` is what the entry must be. -/
def State.service (s : State) (b code : Nat) (role : Option (SignedCmd → KeyEnt → Bool)) (f : SignedCmd → State → SvcRes) : Out :=
  s.serveMsg b (0x7F, 1, code) (fun m s =>
    let c := parseSigned (m.drop 6)
    let r : SvcRes :=
      if s.sec.approved = false ∨ s.sec.testing.isSome = true then .no s 0x08 0
      else
        match role with
        | none =>
          match svcFault c true with
          | some o => .no s 0x04 o
          | none => f c s
        | some g =>
          match s.authenticate c.keyId c.sigAlg c.tenant c.counter c.signed c.sigs
              (fun k => decide (c.tenant < 4) && g c k && (k.role != 1 || bit k.tenants c.tenant)) with
          | .error k => .no s (mgmtStatus rcAuthFail k) 0
          | .ok s =>
            match svcFault c false with
            | some o => .no s 0x04 o
            | none => f c s
    (r.st, vendorReply 1 r.status r.b1 r.data))

/-- SHOW_STATUS (Table 17.5). -/
def execShowStatus (binding : Nat) (s : State) : Out :=
  s.service binding 0x0001 none (fun c s =>
    match oneArgFault c false, s.keyEnt? (leAt c.body 0 4) with
    | some o, _ => .no s 0x04 o
    | none, none => .no s 0x01 0
    | none, some k =>
      { st := s, data := leBytes 4 s.secWord ++ leBytes 4 (s.show 1 .topId 0 0) ++ leBytes 4 s.sec.minVer ++ k.floors.flatMap (leBytes 8) })

/-- SELF_TEST (R461): it runs from its request until its tests end; `failed` is then the number of the one that failed. -/
def execSelfTest (binding : Nat) (failed : Option Nat) (s : State) : Out :=
  match s.mgmtFront binding with
  | none => .next s
  | some m =>
    if msgAsk m ≠ (0x7F, 1, 0x0002) then .next s
    else if s.sec.testing = some binding then
      let r : SvcRes := match failed with
        | none => { st := { s with sec := { s.sec with testing := none, approved := true } } }
        | some k => .no { s with sec := { s.sec with testing := none, approved := false, error := true, failTest := k } } 0x05 k
      .next ((r.st.mgmtSend binding (vendorReply 1 r.status r.b1 [])).mgmtDone binding)
    else if s.sec.testing.isSome ∨ s.sec.approved = false then .next ((s.mgmtSend binding (vendorReply 1 0x08 0 [])).mgmtDone binding)
    else
      let c := parseSigned (m.drop 6)
      match (svcFault c true).or (argsFault [] 0 c.body.length) with
      | some o => .next ((s.mgmtSend binding (vendorReply 1 0x04 o [])).mgmtDone binding)
      | none => .next { s with sec := { s.sec with testing := some binding } }

/-- KEM_PUBLIC (R470): the encapsulation key, the nonce, and a signature over both. -/
def execKemPublic (binding : Nat) (s : State) : Out :=
  s.service binding 0x0003 none (fun c s =>
    let k := Config.kemPublic s.sec.kemNo
    match argsFault [] 0 c.body.length with
    | some o => .no s 0x04 o
    | none => { st := s, data := k ++ Config.deviceSign k })

/-- The owner key's entry (R464, Table 17.2). -/
def ownerEnt (ecdsa mldsa : List Byte) : KeyEnt := { keyId := 0, role := 0, algs := 3, tenants := 0xF, perms := 0x1FF, ecdsa := ecdsa, mldsa := mldsa }

/-- SET_OWNER (R464): only while the fuses are blank, or with the fused keys once the state area is lost. -/
def execSetOwner (binding : Nat) (s : State) : Out :=
  s.service binding 0x0010 none (fun c s =>
    match argsFault [96, 2592] 0 c.body.length with
    | some o => .no s 0x04 o
    | none =>
      let e := c.body.take 96
      let m := c.body.drop 96
      let h := (hash384 e, hash384 m)
      let ok := match s.sec.owner with | none => true | some o => s.sec.lost && o == h
      if ok = false then .no s 0x07 0
      else
        let keys := ownerEnt e m :: s.sec.keys.filter (fun (k : KeyEnt) => k.keyId != 0)
        { st := State.saveArea { s with sec := { s.sec with owner := some h, lost := false, keys := keys } } })

/-- A key table entry from its bytes (Table 17.3). -/
def keyOfBytes (b : List Byte) : KeyEnt :=
  { keyId := leAt b 0 4, role := leAt b 4 1, algs := leAt b 5 1, tenants := leAt b 6 1, perms := leAt b 8 4, ecdsa := slice b 0x30 96
    mldsa := slice b 0x90 2592 }

/-- The offset of the first field of a new entry that does not hold a legal value (Tables 17.2 and 17.3). -/
def State.entryFault (s : State) (b : List Byte) : Option Nat :=
  let k := keyOfBytes b
  if (s.keyEnt? k.keyId).isSome ∨ k.keyId = 0 then some 0
  else if k.role ≠ 1 ∧ k.role ≠ 2 then some 4
  else if k.algs = 0 ∨ 4 ≤ k.algs then some 5
  else if 16 ≤ k.tenants ∨ (k.role = 1 ∧ k.tenants ∉ [1, 2, 4, 8]) then some 6
  else if leAt b 7 1 ≠ 0 then some 7
  else if 512 ≤ k.perms then some 8
  else if leAt b 0xC 4 ≠ 0 then some 0xC
  else if allZero (slice b 0x10 32) = false then some 0x10
  else none

/-- ENROL_KEY (Table 17.5). -/
def execEnrolKey (binding : Nat) (s : State) : Out :=
  s.service binding 0x0011 (some (fun _ k => k.crypto)) (fun c s =>
    match (argsFault [2736] 0 c.body.length).or (s.entryFault c.body) with
    | some o => .no s 0x04 o
    | none =>
        if 128 ≤ s.sec.keys.length then .no s 0x05 0
        else
          let k := keyOfBytes c.body
          let s := State.saveArea { s with sec := { s.sec with keys := s.sec.keys ++ [k] } }
          { st := s.event 0x1100 0xFFFF 0xFF (detailOf [(4, k.keyId), (1, k.role), (1, k.tenants), (2, 0)]) })

/-- REVOKE_KEY (R472): entry 0 cannot be revoked. -/
def execRevokeKey (binding : Nat) (s : State) : Out :=
  s.service binding 0x0012 (some (fun _ k => k.crypto)) (fun c s =>
    let id := leAt c.body 0 4
    match oneArgFault c (id == 0 || (s.keyEnt? id).isNone) with
    | some o => .no s 0x04 o
    | none =>
      let s := State.saveArea { s with sec := { s.sec with keys := s.sec.keys.filter (fun (k : KeyEnt) => k.keyId != id) } }
      { st := s.event 0x1101 0xFFFF 0xFF id })

/-- RAISE_MIN_VERSION (Table 17.5): one of 64 fused slots. -/
def execRaiseMinVersion (binding : Nat) (s : State) : Out :=
  s.service binding 0x0013 (some (fun _ k => k.crypto)) (fun c s =>
    let v := leAt c.body 0 4
    match oneArgFault c (decide (v ≤ s.sec.minVer)) with
    | some o => .no s 0x04 o
    | none =>
      if 64 ≤ s.sec.minSlots then .no s 0x07 0
      else
        let n := s.sec.minSlots + 1
        let s := { s with sec := { s.sec with minVer := v, minSlots := n } }
        { st := s.event 0x1102 0xFFFF 0xFF (detailOf [(4, v), (1, n), (3, 0)]) })

/-- SET_SIG_POLICY (R472). -/
def execSetSigPolicy (binding : Nat) (s : State) : Out :=
  s.service binding 0x0014 (some (fun _ k => k.crypto)) (fun c s =>
    let v := leAt c.body 0 4
    match oneArgFault c (decide (2 < v)) with
    | some o => .no s 0x04 o
    | none => { st := State.saveArea { s with sec := { s.sec with sigPolicy := v } } })

/-- SET_TENANCY (R475): a change scrubs owners 0 to 3 one after another; the setting takes effect when the last scrub ends. -/
def execSetTenancy (binding : Nat) (s : State) : Out :=
  s.service binding 0x0015 (some (fun _ k => k.crypto)) (fun c s =>
    let v := leAt c.body 0 4
    match oneArgFault c (decide (1 < v)) with
    | some o => .no s 0x04 o
    | none =>
      if s.allDrained = false then .no s 0x06 0
      else if s.sec.pending.isSome then .no s 0x05 2
      else if s.sec.tenancy = (v == 1) then { st := s }
      else
        let s := { s with sec := { s.sec with pending := some (v == 1) } }
        { st := (List.range 4).foldl (fun s t => s.startScrub t) s })

/-- A new ML-KEM key pair and nonce are drawn (R470), and the conditional tests run on them (R461): whether one fails, and which, is open, and a failure
puts the module in its error state. -/
def State.newKemPair (s : State) : State :=
  let n := s.sec.kemNo + 1
  let f := Config.pairFails n
  { s with sec := { s.sec with kemNo := n, error := s.sec.error || f.isSome, approved := s.sec.approved && f.isNone, failTest := f.getD s.sec.failTest } }

/-- The key that an import carries (R470): made to the current encapsulation key and nonce, wrapped for the service and the signing key. -/
def State.importKey (s : State) (c : SignedCmd) (code off : Nat) : Option (List Byte) :=
  if c.body.length ≠ off + 1608 then none
  else Config.unwrapKey s.sec.kemNo (c.body.drop off ++ leBytes 2 code ++ leBytes 4 c.keyId)

/-- LOAD_MACSEC_CAK (R470): the port, the key's name (CKN), the wrapped key. -/
def execLoadMacsecCak (binding : Nat) (s : State) : Out :=
  let tenantOf := fun (p : Nat) => if p < 32 then s.fld .tribPortCfg p 0 5 4 else s.fld .braidPortCfg (p - 64) 0 5 4
  s.service binding 0x0020 (some (fun c k => k.officer (tenantOf (leAt c.body 0 4)))) (fun c s =>
    let p := leAt c.body 0 4
    let bad := if ¬ (p < 32 ∨ (64 ≤ p ∧ p < 76)) then some 0 else if leAt c.body 4 4 ≠ 0 then some 4 else argsFault [4, 4, 32, 1568, 40] 0 c.body.length
    match bad with
    | some o => .no s 0x04 o
    | none =>
      match s.importKey c 0x0020 40 with
      | none => .no s 0x04 40
      | some k => { st := State.newKemPair { s with sec := { s.sec with caks := s.sec.caks.put p (leNat k, slice c.body 8 32) } } })

/-- LOAD_EXPORT_KEY (R471): up to four keys per tenant; a load under an identifier in use replaces the key. -/
def execLoadExportKey (binding : Nat) (s : State) : Out :=
  s.service binding 0x0021 (some (fun c k => k.officer (leAt c.body 4 4))) (fun c s =>
    let id := leAt c.body 0 4
    let t := leAt c.body 4 4
    let rest := s.sec.exportKeys.filter (fun (k : ExportKey) => !(k.tenant == t && k.id == id))
    match (if 4 ≤ t then some 4 else argsFault [4, 4, 1568, 40] 0 c.body.length) with
    | some o => .no s 0x04 o
    | none =>
      match s.importKey c 0x0021 8 with
      | none => .no s 0x04 8
      | some k =>
        if 4 ≤ (rest.filter (fun (k : ExportKey) => k.tenant == t)).length then .no s 0x05 0
        else
          let keys := rest ++ [{ tenant := t, id := id, no := leNat k }]
          { st := State.newKemPair { s with sec := { s.sec with exportKeys := keys } } })

/-- DELETE_EXPORT_KEY (R471): not while an export or import session uses the key. -/
def execDeleteExportKey (binding : Nat) (s : State) : Out :=
  s.service binding 0x0022 (some (fun c k => k.officer (leAt c.body 4 4))) (fun c s =>
    let id := leAt c.body 0 4
    let t := leAt c.body 4 4
    let bad := if 4 ≤ t then some 4 else if (s.exportKey? t id).isNone then some 0 else argsFault [4, 4] 0 c.body.length
    match bad with
    | some o => .no s 0x04 o
    | none =>
    if s.eddy.exports.any (fun x => x.tenant == t && x.keyId == id) || s.eddy.imports.any (fun x => x.tenant == t && x.keyId == id) then .no s 0x05 0
    else { st := { s with sec := { s.sec with exportKeys := s.sec.exportKeys.filter (fun (k : ExportKey) => !(k.tenant == t && k.id == id)) } } })

/-- ROTATE_MEM_KEY (R446, R448). -/
def execRotateMemKey (binding : Nat) (s : State) : Out :=
  s.service binding 0x0030 (some (fun c k => k.officer (leAt c.body 0 4))) (fun c s =>
    let o := leAt c.body 0 4
    match oneArgFault c (decide (4 < o)) with
    | some b => .no s 0x04 b
    | none =>
      match s.rotateRefused o with
      | some (cause, whom) => .no (s.keyRefused o cause whom) 0x05 cause
      | none => { st := s.startRotation o })

/-- The lines of the bundle cache that map a tenant's areas are invalidated, and its placement report is cleared (R478): no set stands any more. -/
def State.releaseViews (s : State) (t : Nat) : State :=
  let s := (List.range 2).foldl (fun s h =>
    let w := s.hub h
    s.setHub h { w with bcache := w.bcache.filter (fun l => s.ownerOf (256 * l) != some t) }) s
  let h := s.hwT t
  s.setHwT t { h with active := none, shadow := none, old := none }

/-- RELEASE_TENANT (R478): export keys zeroised, EDDY_KEYn written 0, the caches' lines and the placement report cleared, the scrub of R450. -/
def execReleaseTenant (binding : Nat) (s : State) : Out :=
  s.service binding 0x0031 (some (fun c k => k.officer (leAt c.body 0 4))) (fun c s =>
    let t := leAt c.body 0 4
    match oneArgFault c (decide (3 < t)) with
    | some o => .no s 0x04 o
    | none =>
      if s.showDrained t = false then .no s 0x06 0
      else
      let s := { s with sec := { s.sec with exportKeys := s.sec.exportKeys.filter (fun (k : ExportKey) => k.tenant != t) }
                        eddy := { s.eddy with domKeys := setNth s.eddy.domKeys t (List.replicate 16 0) } }
      { st := (s.releaseViews t).startScrub t })

/-- ZEROISE (R469): every key, the random generator's state, and the state area except the owner entry; then a cold reset with cause 4. -/
def execZeroise (binding : Nat) (s : State) : Out :=
  s.service binding 0x00F0 (some (fun _ k => k.crypto)) (fun c s =>
    match argsFault [] 0 c.body.length with
    | some o => .no s 0x04 o
    | none =>
      let keep := fun (a : StateArea) => { a with keys := a.keys.filter (fun (k : KeyEnt) => k.keyId == 0), sigPolicy := 0, tenancy := false }
      let s := { s with sec := { s.sec with area0 := keep s.sec.area0, area1 := keep s.sec.area1, drbg := 0 }
                        power := { s.power with boot9 := s.power.boot9 ++ [(0x1104, 0xFFFF, 0)] } }
      { st := s.coldReset 4 0 })

/-- An SPDM message (R473), by `f`; outside approved mode the module serves none (R461), and answers as a device that is not ready (DESIGN CHOICE, log
103). -/
def State.spdmWith (s : State) (b code : Nat) (f : List Byte → State → State × List Byte) : Out :=
  s.serveMsg b (5, 0, code) (fun m s => if s.sec.approved then f m s else (s, notReadyReply m))
def State.spdm (s : State) (b code : Nat) (f : List Byte → List Byte) : Out := s.spdmWith b code (fun m s => (s, f m))

/-- GET_VERSION: version 1.3. -/
def execGetVersion (binding : Nat) (s : State) : Out :=
  s.spdm binding 0x84 (fun _ => leBytes 1 5 ++ leBytes 1 0x10 ++ leBytes 1 0x04 ++ leBytes 2 0 ++ leBytes 1 0 ++ leBytes 1 1 ++ leBytes 2 0x1300)

/-- GET_CAPABILITIES: CERT_CAP, CHAL_CAP, and MEAS_CAP with signature. -/
def execGetCapabilities (binding : Nat) (s : State) : Out :=
  s.spdm binding 0xE1 (fun m => spdmReply 0x61 0 0 (leBytes 1 0 ++ leBytes 1 (leAt m 6 1) ++ leBytes 2 0 ++ leBytes 4 0x16 ++ Config.mgmtBody 0x05E1 m))

/-- NEGOTIATE_ALGORITHMS: ECDSA P-384 and SHA-384. -/
def execNegotiateAlgorithms (binding : Nat) (s : State) : Out :=
  s.spdm binding 0xE3 (fun _ => spdmReply 0x63 0 0 (leBytes 2 36 ++ leBytes 1 1 ++ leBytes 1 0 ++ leBytes 4 4 ++ leBytes 4 0x80 ++ leBytes 4 2 ++
    leBytes 12 0 ++ leBytes 1 0 ++ leBytes 1 0 ++ leBytes 2 0))

/-- GET_DIGESTS: slot 0 alone is populated. -/
def execGetDigests (binding : Nat) (s : State) : Out :=
  s.spdm binding 0x81 (fun _ => spdmReply 0x01 0 1 (leBytes 48 (hash384 Config.certChain)))

/-- GET_CERTIFICATE: a portion of the slot 0 chain; another slot is refused. -/
def execGetCertificate (binding : Nat) (s : State) : Out :=
  s.spdm binding 0x82 (fun m =>
    let off := leAt m 5 2
    let part := slice Config.certChain off (leAt m 7 2)
    if leAt m 3 1 % 16 ≠ 0 ∨ Config.certChain.length ≤ off then spdmReply 0x7F 0x01 0 []
    else spdmReply 0x02 0 0 (leBytes 2 part.length ++ leBytes 2 (Config.certChain.length - off - part.length) ++ part))

/-- A nonce that the random generator draws: free, but for its state, which the draw moves on. -/
def State.nonce (s : State) : List Byte × State :=
  (leBytes 32 (Config.drbgOut s.sec.drbg), { s with sec := { s.sec with drbg := Config.drbgNext s.sec.drbg } })

/-- The measurement blocks (R474, Table 17.6), each a SHA-384 digest taken now. -/
def State.measurement (s : State) (i : Nat) : Nat :=
  let x := s.bootImage
  let sect := fun (t : Nat) => ((x.ofType t).map ImgSection.data).headD []
  let keyBytes := fun (k : KeyEnt) => leBytes 4 k.keyId ++ leBytes 1 k.role ++ leBytes 1 k.algs ++ leBytes 1 k.tenants ++ leBytes 1 0 ++
    leBytes 4 k.perms ++ leBytes 4 0 ++ leBytes 32 0 ++ k.ecdsa ++ k.mldsa
  if i = 1 then hash384 Config.securityFirmware
  else if i = 2 then hash384 (x.signed ++ leBytes 1 (b2n s.head.bootedB))
  else if i = 3 then hash384 (sect 1)
  else if i = 4 then hash384 (sect 2)
  else if i = 5 then hash384 (sect 4)
  else if i = 6 then hash384 (s.sec.keys.flatMap keyBytes)
  else if i = 7 then hash384 (leBytes 4 (s.show 1 .topId 0 0) ++ leBytes 4 s.sec.minVer ++ leBytes 1 s.sec.sigPolicy ++ leBytes 1 (b2n s.sec.tenancy))
  else
    match s.active (i - 8) with
    | some a => a.digestAt s.epoch
    | none => 0

/-- A measurement block: its index, its size, a digest of 48 bytes. -/
def State.measureBlock (s : State) (i : Nat) : List Byte :=
  leBytes 1 i ++ leBytes 1 1 ++ leBytes 2 51 ++ leBytes 1 0 ++ leBytes 2 48 ++ leBytes 48 (s.measurement i)

/-- CHALLENGE: the device identity key signs the challenge. -/
def execChallenge (binding : Nat) (s : State) : Out :=
  s.spdmWith binding 0x83 (fun m s =>
    if leAt m 3 1 ≠ 0 then (s, spdmReply 0x7F 0x01 0 [])
    else
      let n := s.nonce
      let all := if leAt m 4 1 = 0 then [] else leBytes 48 (hash384 ((List.range 11).flatMap (fun i => s.measureBlock (i + 1))))
      let body := leBytes 48 (hash384 Config.certChain) ++ n.1 ++ all ++ leBytes 2 0
      (n.2, spdmReply 0x03 0 1 (body ++ Config.deviceSign (m ++ body))))

/-- GET_MEASUREMENTS (R474): the number of blocks, one block, or all; signed where the request asks for it. -/
def execGetMeasurements (binding : Nat) (s : State) : Out :=
  s.spdmWith binding 0xE0 (fun m s =>
    let op := leAt m 4 1
    let wanted := if op = 0 then [] else if op = 0xFF then (List.range 11).map (· + 1) else [op]
    if 11 < op ∧ op ≠ 0xFF then (s, spdmReply 0x7F 0x01 0 [])
    else
      let blocks := wanted.flatMap s.measureBlock
      let n := s.nonce
      let body := leBytes 1 wanted.length ++ leBytes 3 blocks.length ++ blocks ++ n.1 ++ leBytes 2 0
      let sign := if bit (leAt m 3 1) 0 then Config.deviceSign (m ++ body) else []
      (n.2, spdmReply 0x60 (if op = 0 then 11 else 0) 0 (body ++ sign)))

end Sys2Proof.Machine
end

