-- ==== Sys2Proof/Machine/Mgmt.lean ====
section
/-! DEFINITION. The management path (chapter 20): packets, MCTP control, PLDM monitoring, flash update, resets, Gauge. -/

namespace Sys2Proof.Machine

/-- The controller runs from its boot ROM (R528). -/
def State.inRom (s : State) : Bool := decide (s.head.step ≤ 4)

/-- A whole message from a binding joins its queue, is answered at once, or is discarded (R528, R529, R531). -/
def State.takeMessage (s : State) (b dest : Nat) (m : List Byte) : State :=
  let t := msgType m
  let rom := t == 0 || (t == 1 && decide (leAt m 2 1 % 64 = 0 ∨ leAt m 2 1 % 64 = 2))
  if s.mgmt.eid = 0 ∧ (t ≠ 0 ∨ dest ≠ 0) then s
  else if isRequest m = false ∨ t ∉ [0, 1, 5, 0x7F] then s
  else if (s.inRom && !rom) || decide (8 ≤ (s.mgmt.queue.filter (fun x => x.1 == b)).length) then s.mgmtSend b (notReadyReply m)
  else State.mgmtServe { s with mgmt := { s.mgmt with queue := s.mgmt.queue ++ [(b, m)] } } b 9

/-- MCTP_PACKET (R529, R530): binding 0 is I3C, 1 SGMII; a packet out of size, of another version or destination, or out of sequence is
discarded. -/
def execMctpPacket (binding : Nat) (pkt : List Byte) (s : State) : Out :=
  if 1 < binding ∨ (binding = 1 ∧ (s.fld .mgmtCfg 0 0 0 0 = 0 ∨ s.mgmt.link = false)) then .next s
  else if pkt.length < 5 ∨ (if binding = 1 then 1028 else 68) < pkt.length then
    .next (if binding = 1 then s.tick .cntMgmtBadPktCnt 0 else s)
  else
    let dest := leAt pkt 1 1
    let f := leAt pkt 3 1
    let key := binding * 65536 + leAt pkt 2 1 * 256 + f % 16
    let seq := bits f 5 4
    let body := pkt.drop 4
    let m := if bit f 7 then some body
      else
        match s.mgmt.asm_.find? key with
        | some (n, got) => if n = seq then some (got ++ body) else none
        | none => none
    if leAt pkt 0 1 % 16 ≠ 1 ∨ (dest ≠ 0 ∧ dest ≠ s.mgmt.eid) then .next s
    else
      let rest := s.mgmt.asm_.del key
      match m with
      | none => .next { s with mgmt := { s.mgmt with asm_ := rest } }
      | some m =>
        if bit f 6 then .next (State.takeMessage { s with mgmt := { s.mgmt with asm_ := rest } } binding dest m)
        else .next { s with mgmt := { s.mgmt with asm_ := rest.put key ((seq + 1) % 4, m) } }

/-- SET_ENDPOINT_ID (R529): the same endpoint ID on both bindings. -/
def execSetEndpointId (binding : Nat) (s : State) : Out :=
  s.serveMsg binding (0, 0, 1) (fun m s =>
    let e := leAt m 4 1
    if 1 < leAt m 3 1 % 4 ∨ e < 8 ∨ e = 0xFF then (s, controlReply m 0x02 [])
    else ({ s with mgmt := { s.mgmt with eid := e } }, controlReply m 0 (leBytes 1 0 ++ leBytes 1 e ++ leBytes 1 0)))

/-- GET_ENDPOINT_ID, GET_ENDPOINT_UUID, GET_MCTP_VERSION_SUPPORT, GET_MESSAGE_TYPE_SUPPORT, GET_VENDOR_DEFINED_MESSAGE_SUPPORT (Table 20.2). -/
def execGetEndpointId (binding : Nat) (s : State) : Out :=
  s.serveMsg binding (0, 0, 2) (fun m s => (s, controlReply m 0 (leBytes 1 s.mgmt.eid ++ leBytes 2 0)))
def execGetEndpointUuid (binding : Nat) (s : State) : Out := s.serveMsg binding (0, 0, 3) (fun m s => (s, controlReply m 0 Config.uuid))
def execGetMctpVersionSupport (binding : Nat) (s : State) : Out :=
  s.serveMsg binding (0, 0, 4) (fun m s => (s, controlReply m 0 (Config.mgmtBody 0x0004 m)))
def execGetMessageTypeSupport (binding : Nat) (s : State) : Out :=
  s.serveMsg binding (0, 0, 5) (fun m s => (s, controlReply m 0 (leBytes 1 3 ++ leBytes 1 0x01 ++ leBytes 1 0x05 ++ leBytes 1 0x7F)))
def execGetVendorDefinedMessageSupport (binding : Nat) (s : State) : Out :=
  s.serveMsg binding (0, 0, 6) (fun m s =>
    (s, if leAt m 3 1 = 0 then controlReply m 0 (leBytes 1 0xFF ++ leBytes 1 1 ++ ianaBytes ++ leBytes 2 0) else controlReply m 0x02 []))

/-- GET_TID, GET_PLDM_VERSION, GET_PLDM_TYPES, GET_PLDM_COMMANDS (Table 20.2). -/
def execGetTid (binding : Nat) (s : State) : Out := s.serveMsg binding (1, 0, 2) (fun m s => (s, pldmReply m 0 (Config.mgmtBody 0x0102 m)))
def execGetPldmVersion (binding : Nat) (s : State) : Out :=
  s.serveMsg binding (1, 0, 3) (fun m s => (s, pldmReply m 0 (Config.mgmtBody 0x0103 m)))
def execGetPldmTypes (binding : Nat) (s : State) : Out := s.serveMsg binding (1, 0, 4) (fun m s => (s, pldmReply m 0 (leBytes 8 0x25)))
def execGetPldmCommands (binding : Nat) (s : State) : Out :=
  s.serveMsg binding (1, 0, 5) (fun m s =>
    let t := leAt m 4 1
    if t ∉ [0, 2, 5] then (s, pldmReply m 0x83 [])
    else (s, pldmReply m 0 (leBytes 32 (bitmap ((List.range 256).map (fun c => servedMsgs.contains (1, t, c) && (t, c) != (2, 0x04)))))))

/-- The halt cause of a boot that stopped (sensor 0x0211): 1 image, 2 self-test, 3 hub-to-hub link, 4 supply. The sensor's upper byte names the test
whose failure put the module in its error state (R461; DESIGN CHOICE, log 103). -/
def State.bootHalt (s : State) : Nat :=
  if s.head.dead = false then 0 else if 0 < s.power.bootFail then 4 else if s.sec.error then 2 else if s.head.step = 5 then 3 else 1

/-- A numeric sensor (Table 20.4): its reading, `none` where it is unavailable. The temperatures of the dies are reported through a trip too (R519): their
diodes belong to Gauge. -/
def State.numericSensor (s : State) (id : Nat) : Option (Option Int) :=
  let core := fun (v : Int) => if s.pins.coreEn then some v else none
  if 0x0001 ≤ id ∧ id ≤ 0x000A then some (some (sgn 8 (s.gaugeWord (id - 1))))
  else if 0x0011 ≤ id ∧ id ≤ 0x001C then
    some (if (s.win (0x7000 + (id - 0x11))).lasting then none else some ((nth s.mem.stk (id - 0x11) {}).temp : Int))
  else if 0x0021 ≤ id ∧ id ≤ 0x002A then some (core (codeMv (s.sup (id - 0x21)).setpoint))
  else if 0x0031 ≤ id ∧ id ≤ 0x003A then some (core (s.sup (id - 0x31)).imeas)
  else if id = 0x0040 then some (core s.power.pAvg)
  else if id = 0x0041 then some (core s.power.pMand)
  else if id = 0x0060 then some (some ((s.rel.mirrorEpoch % 2 ^ 32 : Nat) : Int))
  else none

/-- A state sensor (Table 20.4): its state, `none` where it is unavailable; units and degraded states come from the mirror (R499, R536). -/
def State.stateSensor (s : State) (id : Nat) : Option (Option Nat) :=
  if id = 0x0050 then some (some (if s.power.ref.lostAt.isSome then 3 else if s.power.ref.red then 2 else 1))
  else if 0x0200 ≤ id ∧ id ≤ 0x0203 then some (s.rel.mirror.find? (0x20000 + (id - 0x200)))
  else if id = 0x0210 then some (s.rel.mirror.find? 0x20010)
  else if id = 0x0211 then some (some (s.head.step + 16 * s.bootHalt + 256 * (if s.sec.error then s.sec.failTest % 256 else 0)))
  else if 0x1000 ≤ id ∧ id ≤ 0xDFFF ∧ unitNamed id = true then
    some (if (s.win id).lasting || !s.pins.coreEn then none else s.rel.mirror.find? id)
  else none

/-- GET_SENSOR_READING (R535): operational state 0 enabled, 2 unavailable; a 32-bit reading. -/
def execGetSensorReading (binding : Nat) (s : State) : Out :=
  s.serveMsg binding (1, 2, 0x11) (fun m s =>
    match s.numericSensor (leAt m 4 2) with
    | none => (s, pldmReply m 0x80 [])
    | some v =>
      let op := match v with | some _ => 0 | none => 2
      (s, pldmReply m 0 (leBytes 1 5 ++ leBytes 1 op ++ leBytes 4 0 ++ leBytes 4 (wrapI 32 (v.getD 0)))))

/-- GET_STATE_SENSOR_READINGS (R535): one sensor; its state in two bytes. -/
def execGetStateSensorReadings (binding : Nat) (s : State) : Out :=
  s.serveMsg binding (1, 2, 0x21) (fun m s =>
    match s.stateSensor (leAt m 4 2) with
    | none => (s, pldmReply m 0x80 [])
    | some v =>
      let op := match v with | some _ => 0 | none => 2
      (s, pldmReply m 0 (leBytes 1 1 ++ leBytes 1 op ++ leBytes 2 (v.getD 0))))

/-- GET_PDR_REPOSITORY_INFO, GET_PDR (R535): the PDRs of the sensors of Table 20.4, in the form of their standard. -/
def execGetPdrRepositoryInfo (binding : Nat) (s : State) : Out :=
  s.serveMsg binding (1, 2, 0x50) (fun m s => (s, pldmReply m 0 (Config.mgmtBody 0x0250 m)))
def execGetPdr (binding : Nat) (s : State) : Out := s.serveMsg binding (1, 2, 0x51) (fun m s => (s, pldmReply m 0 (Config.mgmtBody 0x0251 m)))

/-- SET_EVENT_RECEIVER (R535): refused with ERROR_UNSUPPORTED_PLDM_CMD. -/
def execSetEventReceiver (binding : Nat) (s : State) : Out := s.serveMsg binding (1, 2, 0x04) (fun m s => (s, pldmReply m 0x05 []))

/-- QUERY_DEVICE_IDENTIFIERS, GET_FIRMWARE_PARAMETERS (R537). -/
def execQueryDeviceIdentifiers (binding : Nat) (s : State) : Out :=
  s.serveMsg binding (1, 5, 0x01) (fun m s => (s, pldmReply m 0 Config.fwIdentifiers))
def execGetFirmwareParameters (binding : Nat) (s : State) : Out :=
  s.serveMsg binding (1, 5, 0x02) (fun m s => (s, pldmReply m 0 (Config.mgmtBody 0x0502 m)))

/-- The flash device that an update writes: the one that did not boot (R409). -/
def State.fwupDev (s : State) : Nat := if s.head.bootedB then 0 else 1

/-- Stores the update's state. -/
def State.setFwup (s : State) (f : FwupSt) : State := { s with mgmt := { s.mgmt with fwup := f } }
def FwupSt.to (f : FwupSt) (n : Nat) : FwupSt := { f with state := n, prev := f.state }

/-- REQUEST_UPDATE (R537). -/
def execRequestUpdate (binding : Nat) (s : State) : Out :=
  s.serveMsg binding (1, 5, 0x10) (fun m s =>
    let f := s.mgmt.fwup
    if s.fld .mgmtCfg 0 0 1 1 = 0 ∨ f.state ≠ 0 ∨ s.sec.approved = false then (s, pldmReply m 0x04 [])
    else (s.setFwup { f.to 1 with binding := binding, applied := false, verified := false }, pldmReply m 0 (leBytes 3 0)))

/-- The component classification "Firmware" of DSP0267 (R537; PRESUMED, log 47). -/
def fwClass : Nat := 0x000A

/-- PASS_COMPONENT_TABLE (R537): the table ends with its last, or its one, component. -/
def execPassComponentTable (binding : Nat) (s : State) : Out :=
  s.serveMsg binding (1, 5, 0x13) (fun m s =>
    let f := s.mgmt.fwup
    if f.state ≠ 1 then (s, pldmReply m (if f.state = 0 then 0x80 else 0x84) [])
    else
      let last := leAt m 4 1 == 4 || leAt m 4 1 == 5
      let known := leAt m 5 2 == fwClass && leAt m 7 2 == 1
      (if last then s.setFwup (f.to 2) else s, pldmReply m 0 (leBytes 1 (b2n (!known)) ++ leBytes 1 (if known then 0 else 6))))

/-- UPDATE_COMPONENT (R537, R538): an image that would reach the state area is refused; the target flash device is erased. -/
def execUpdateComponent (binding : Nat) (s : State) : Out :=
  s.serveMsg binding (1, 5, 0x14) (fun m s =>
    let f := s.mgmt.fwup
    let size := leAt m 13 4
    if f.state ≠ 2 then (s, pldmReply m (if f.state = 0 then 0x80 else 0x84) [])
    else if 0x0F800000 ≤ size ∨ leAt m 4 2 ≠ fwClass ∨ leAt m 6 2 ≠ 1 then (s, pldmReply m 0x02 [])
    else
      let s := { s with head := { s.head with flash := setNth s.head.flash s.fwupDev [] } }
      (s.setFwup { f.to 3 with size := size, offset := 0, verified := false, applied := false, pending := false }, pldmReply m 0 (leBytes 8 0)))

/-- A PLDM type 5 request of the device. -/
def fwupRequest (cmd : Nat) (data : List Byte) : List Byte := leBytes 1 1 ++ leBytes 1 0x80 ++ leBytes 1 5 ++ leBytes 1 cmd ++ data

/-- REQUEST_FIRMWARE_DATA (R537): the device asks for the next bytes; what returns is written to the target flash device. -/
def execRequestFirmwareData (binding : Nat) (data : Option (List Byte)) (s : State) : Out :=
  let f := s.mgmt.fwup
  if f.state ≠ 3 ∨ f.binding ≠ binding ∨ f.size ≤ f.offset then .next s
  else
    let n := min (f.size - f.offset) 1024
    let s := s.mgmtSend binding (fwupRequest 0x15 (leBytes 4 f.offset ++ leBytes 4 n))
    let d := (data.getD []).take n
    let k := s.fwupDev
    let s := { s with head := { s.head with flash := setNth s.head.flash k (nth s.head.flash k [] ++ d) } }
    .next (s.setFwup { f with offset := f.offset + d.length })

/-- TRANSFER_COMPLETE (R537): every byte of the component is written. -/
def execTransferComplete (binding : Nat) (s : State) : Out :=
  let f := s.mgmt.fwup
  if f.state ≠ 3 ∨ f.binding ≠ binding ∨ f.offset < f.size then .next s
  else .next ((s.mgmtSend binding (fwupRequest 0x16 (leBytes 1 0))).setFwup (f.to 4))

/-- VERIFY_COMPLETE (R537): every check of R408 but the application of configuration records. -/
def execVerifyComplete (binding : Nat) (s : State) : Out :=
  let f := s.mgmt.fwup
  if f.state ≠ 4 ∨ f.binding ≠ binding then .next s
  else
    let k := s.imageFault s.fwupDev 6
    let s := s.mgmtSend binding (fwupRequest 0x17 (leBytes 1 (if k = 0 then 0 else 1)))
    if k = 0 then .next (s.setFwup { f.to 5 with verified := true }) else .next (s.fwupFail 2 k)

/-- APPLY_COMPLETE (R537). -/
def execApplyComplete (binding : Nat) (s : State) : Out :=
  let f := s.mgmt.fwup
  if f.state ≠ 5 ∨ f.binding ≠ binding then .next s
  else .next ((s.mgmtSend binding (fwupRequest 0x18 (leBytes 3 0))).setFwup { f.to 2 with applied := true })

/-- ACTIVATE_FIRMWARE (R537): never self-contained; FWUP_PENDING waits for a cold reset. -/
def execActivateFirmware (binding : Nat) (s : State) : Out :=
  s.serveMsg binding (1, 5, 0x1A) (fun m s =>
    let f := s.mgmt.fwup
    if f.state = 0 then (s, pldmReply m 0x80 [])
    else if f.state ≠ 2 ∨ f.applied = false then (s, pldmReply m 0x85 [])
    else if leAt m 4 1 ≠ 0 then (s, pldmReply m 0x8C [])
    else
      let k := s.fwupDev
      let s := s.setFwup { f.to 0 with pending := true }
      (s.event 0x1400 0xFFFF 0xFF (detailOf [(1, k), (3, 0), (4, (imageOfBytes (nth s.head.flash k [])).imageVersion)]), pldmReply m 0 (leBytes 2 0)))

/-- GET_STATUS (R537). -/
def execGetStatus (binding : Nat) (s : State) : Out :=
  s.serveMsg binding (1, 5, 0x1B) (fun m s =>
    (s, pldmReply m 0 (leBytes 1 s.mgmt.fwup.state ++ leBytes 1 s.mgmt.fwup.prev ++ leBytes 1 3 ++ leBytes 1 0 ++ leBytes 1 0x65 ++ leBytes 5 0)))

/-- CANCEL_UPDATE (R538): the target image is left invalid. -/
def execCancelUpdate (binding : Nat) (s : State) : Out :=
  s.serveMsg binding (1, 5, 0x1D) (fun m s =>
    if s.mgmt.fwup.state = 0 then (s, pldmReply m 0x80 []) else (s.fwupFail 1 0, pldmReply m 0 (leBytes 9 0)))

/-- MGMT_WARM_RESET and MGMT_COLD_RESET (R542): a write of MGMT_CTL; with both bits the cold reset is performed. -/
def execMgmtWarmReset (value : Nat) (s : State) : Out :=
  .next (if bit value 1 then s.coldReset 3 0 else if bit value 0 then s.warmReset 7 0 else s)
def execMgmtColdReset (value : Nat) (s : State) : Out := .next (if bit value 1 then s.coldReset 3 0 else s)

/-- GAUGE_SAMPLE (R539): each diode of a die, `none` for one that fails its self-check; a diode that fails anew is counted. -/
def execGaugeSample (die : Nat) (temps : List (Option Int)) (s : State) : Out :=
  if 10 ≤ die ∨ temps.length ≠ (if die < 8 then 12 else 20) then .next s
  else
    let was := SMap.getD (fun _ => []) s.mgmt.gauge die
    let anew := ((List.range temps.length).filter (fun i => (nth temps i (some 0)).isNone && (nth was i (some 0)).isSome)).length
    let s := s.count .cntGaugeDiodeFailCnt 0 anew
    .next { s with mgmt := { s.mgmt with gauge := s.mgmt.gauge.put die temps } }

/-- DYNAMIC_ADDRESS_ASSIGNMENT (R529): an ENTDAA or SETDASA gives the device its dynamic address. -/
def execDynamicAddressAssignment (addr : Nat) (s : State) : Out :=
  if addr = 0 ∨ 0x7E ≤ addr then .next s else .next { s with mgmt := { s.mgmt with i3cAddr := addr, i3cDyn := true } }

/-- SGMII_LINK_CHANGE (R543): MGMT_STAT.LINK follows the link. -/
def execSgmiiLinkChange (up : Bool) (s : State) : Out := .next { s with mgmt := { s.mgmt with link := up } }

end Sys2Proof.Machine
end

