-- ==== Sys2Proof/Machine/Pins.lean ====
section
/-! DEFINITION. Pins: power-up, the reset signals, AUX_PG, and the test logic (R567 to R571). -/

namespace Sys2Proof.Machine

/-- The device leaves a held cold reset (R568, R570) once COLD_RST_N and AUX_PG are high and no trip holds it: CORE_EN rises, the straps are sampled,
boot step 1 starts. -/
def State.release (s : State) : State :=
  if s.pins.coldN = true ∧ s.pins.auxPg = true ∧ s.power.trip.isNone = true then
    let s := { s with pins := { s.pins with coreEn := true, held := false, straps := s.pins.pinStraps } }
    s.putStraps s.pins.pinStraps
  else s

/-- A cold reset that a pin holds (R567, R571), with CORE_EN low. -/
def State.holdCold (s : State) : State :=
  let s := s.coldReset 2 0
  { s with pins := { s.pins with coreEn := false, held := true, warmHeld := false } }

/-- POWER_UP (R570): VAON comes into range with COLD_RST_N low; `flash` is what the flash devices hold below the state area, `straps` the strap levels. -/
def execPowerUp (straps : List Nat) (flash : List (List Byte)) (s : State) : Out :=
  let s := { s with pins := { pinStraps := straps }, power := { s.power with trip := none, boot9 := [] }, mgmt := { s.mgmt with fwup := {}, link := false, gauge := [] } }
  let n := s.coldReset 1 0
  .next { n with head := { n.head with flash := flash }
                 mem := { n.mem with stk := List.replicate 12 {}, restarted := false }
                 pins := { n.pins with coldN := false, auxPg := false, coreEn := false, held := true } }

/-- COLD_RST_N_ASSERT (R567, R571). -/
def execColdRstNAssert (s : State) : Out :=
  if s.pins.coldN = false then .next s
  else .next (State.holdCold { s with pins := { s.pins with coldN := false } })

/-- COLD_RST_N_DEASSERT (R570). -/
def execColdRstNDeassert (s : State) : Out :=
  if s.pins.coldN then .next s else .next (State.release { s with pins := { s.pins with coldN := true } })

/-- WARM_RST_N_ASSERT (R567): dropped during a cold reset that a pin or a trip holds; else the warm reset is held until the signal rises. -/
def execWarmRstNAssert (s : State) : Out :=
  if s.pins.warmN = false then .next s
  else
    let s := { s with pins := { s.pins with warmN := false } }
    if s.pins.held then .next s
    else
      let n := s.warmReset 6 0
      .next { n with pins := { n.pins with warmHeld := true } }

/-- WARM_RST_N_DEASSERT (R567). -/
def execWarmRstNDeassert (s : State) : Out := .next { s with pins := { s.pins with warmN := true, warmHeld := false } }

/-- AUX_PG_FALL (R571): CORE_EN drops and the device holds in cold reset. -/
def execAuxPgFall (s : State) : Out :=
  if s.pins.auxPg = false then .next s
  else .next (State.holdCold { s with pins := { s.pins with auxPg := false } })

/-- AUX_PG_RISE (R571). -/
def execAuxPgRise (s : State) : Out :=
  if s.pins.auxPg then .next s else .next (State.release { s with pins := { s.pins with auxPg := true } })

/-- TRST_N_ASSERT and TRST_N_DEASSERT (R569): a test-logic reset selects BYPASS. -/
def execTrstNAssert (s : State) : Out := .next { s with pins := { s.pins with trstN := false, ir := 0 } }
def execTrstNDeassert (s : State) : Out := .next { s with pins := { s.pins with trstN := true } }

/-- A JTAG instruction is loaded, unless TRST_N holds the test logic in reset (R569): 0 BYPASS, 1 SAMPLE/PRELOAD, 2 EXTEST, 3 EXTEST_PULSE,
4 EXTEST_TRAIN, 5 CLAMP, 6 HIGHZ. -/
def State.loadIr (s : State) (k : Nat) : State := if s.pins.trstN then { s with pins := { s.pins with ir := k } } else s

/-- The instruction that acts (R569): one that drives lands acts only while COLD_RST_N is low, and else as BYPASS. -/
def State.jtagActs (s : State) : Nat := if 2 ≤ s.pins.ir ∧ s.pins.coldN = true then 0 else s.pins.ir

/-- BYPASS, SAMPLE/PRELOAD, EXTEST, EXTEST_PULSE, EXTEST_TRAIN, CLAMP, HIGHZ (R569). -/
def execJtagBypass (s : State) : Out := .next (s.loadIr 0)
def execJtagSamplePreload (s : State) : Out := .next (s.loadIr 1)
def execJtagExtest (s : State) : Out := .next (s.loadIr 2)
def execJtagExtestPulse (s : State) : Out := .next (s.loadIr 3)
def execJtagExtestTrain (s : State) : Out := .next (s.loadIr 4)
def execJtagClamp (s : State) : Out := .next (s.loadIr 5)
def execJtagHighz (s : State) : Out := .next (s.loadIr 6)

end Sys2Proof.Machine
end

