-- ==== Sys2Proof/Machine/Dispatch.lean ====
section
/-! DEFINITION. The dispatch: one arm per command, each one direct call of its meaning. -/

namespace Sys2Proof.Machine

/-- The effect of one command on everything but the queue. -/
def exec (i : Instr) (s : State) : Host.Outcome State Fault Refusal :=
  match i with
  | .frameReceived port sub f => Sys2Proof.Machine.execFrameReceived port sub f s
  | .losslessFrameParse port sub classB => Sys2Proof.Machine.execLosslessFrameParse port sub classB s
  | .pfcFrameReceived port sub enable quanta => Sys2Proof.Machine.execPfcFrameReceived port sub enable quanta s
  | .controlProtocolFrame port sub c => Sys2Proof.Machine.execControlProtocolFrame port sub c s
  | .ptpMessage port m => Sys2Proof.Machine.execPtpMessage port m s
  | .recordPortUp port sub => Sys2Proof.Machine.execRecordPortUp port sub s
  | .recordPortDown port sub => Sys2Proof.Machine.execRecordPortDown port sub s
  | .macsecKeyChange port sub => Sys2Proof.Machine.execMacsecKeyChange port sub s
  | .sessionIdleExpiry hub key => Sys2Proof.Machine.execSessionIdleExpiry hub key s
  | .replyCoalesceExpiry port sub dest => Sys2Proof.Machine.execReplyCoalesceExpiry port sub dest s
  | .lockstepReleaseTick => Sys2Proof.Machine.execLockstepReleaseTick s
  | .epochStart => Sys2Proof.Machine.execEpochStart s
  | .epochNoLongerLive epoch => Sys2Proof.Machine.execEpochNoLongerLive epoch s
  | .timeWordSend port => Sys2Proof.Machine.execTimeWordSend port s
  | .timeWordReceived port w => Sys2Proof.Machine.execTimeWordReceived port w s
  | .holdoverEntry => Sys2Proof.Machine.execHoldoverEntry s
  | .holdoverExpiry => Sys2Proof.Machine.execHoldoverExpiry s
  | .rootSwitch => Sys2Proof.Machine.execRootSwitch s
  | .rootBtStart => Sys2Proof.Machine.execRootBtStart s
  | .admissionHeadAdmit queue => Sys2Proof.Machine.execAdmissionHeadAdmit queue s
  | .admissionDeadlineExpiry queue => Sys2Proof.Machine.execAdmissionDeadlineExpiry queue s
  | .streamElementIssue hub stream pick => Sys2Proof.Machine.execStreamElementIssue hub stream pick s
  | .fetchReadComplete hub engine addr ok => Sys2Proof.Machine.execFetchReadComplete hub engine addr ok s
  | .streamCountEnd hub stream => Sys2Proof.Machine.execStreamCountEnd hub stream s
  | .fetchRearm hub stream base count => Sys2Proof.Machine.execFetchRearm hub stream base count s
  | .stageBufferIssue hub rec => Sys2Proof.Machine.execStageBufferIssue hub rec s
  | .abortComplete hub stream => Sys2Proof.Machine.execAbortComplete hub stream s
  | .drainDone tenant => Sys2Proof.Machine.execDrainDone tenant s
  | .drainTimeout tenant => Sys2Proof.Machine.execDrainTimeout tenant s
  | .bwDeadlock hub group => Sys2Proof.Machine.execBwDeadlock hub group s
  | .eddyReq port q => Sys2Proof.Machine.execEddyReq port q s
  | .eddyFenceRelease hub => Sys2Proof.Machine.execEddyFenceRelease hub s
  | .eddySnap port b => Sys2Proof.Machine.execEddySnap port b s
  | .snapshotWaitExpiry hub ent => Sys2Proof.Machine.execSnapshotWaitExpiry hub ent s
  | .exportStore => Sys2Proof.Machine.execExportStore s
  | .eddyExportDone tenant => Sys2Proof.Machine.execEddyExportDone tenant s
  | .importBegin => Sys2Proof.Machine.execImportBegin s
  | .importChunk => Sys2Proof.Machine.execImportChunk s
  | .veBatchWaitExpiry hub batch => Sys2Proof.Machine.execVeBatchWaitExpiry hub batch s
  | .veBatchLaunch hub engine batch => Sys2Proof.Machine.execVeBatchLaunch hub engine batch s
  | .veBatchComplete hub engine => Sys2Proof.Machine.execVeBatchComplete hub engine s
  | .veSpareIn hub engine => Sys2Proof.Machine.execVeSpareIn hub engine s
  | .veNop hub engine => Sys2Proof.Machine.execVeNop hub engine s
  | .veLoop hub engine => Sys2Proof.Machine.execVeLoop hub engine s
  | .veEndl hub engine => Sys2Proof.Machine.execVeEndl hub engine s
  | .veAdd hub engine => Sys2Proof.Machine.execVeAdd hub engine s
  | .veSub hub engine => Sys2Proof.Machine.execVeSub hub engine s
  | .veAdds hub engine => Sys2Proof.Machine.execVeAdds hub engine s
  | .veSubs hub engine => Sys2Proof.Machine.execVeSubs hub engine s
  | .veAddus hub engine => Sys2Proof.Machine.execVeAddus hub engine s
  | .veSubus hub engine => Sys2Proof.Machine.execVeSubus hub engine s
  | .veMul hub engine => Sys2Proof.Machine.execVeMul hub engine s
  | .veMulhu hub engine => Sys2Proof.Machine.execVeMulhu hub engine s
  | .veMulhs hub engine => Sys2Proof.Machine.execVeMulhs hub engine s
  | .veMins hub engine => Sys2Proof.Machine.execVeMins hub engine s
  | .veMaxs hub engine => Sys2Proof.Machine.execVeMaxs hub engine s
  | .veMinu hub engine => Sys2Proof.Machine.execVeMinu hub engine s
  | .veMaxu hub engine => Sys2Proof.Machine.execVeMaxu hub engine s
  | .veAbs hub engine => Sys2Proof.Machine.execVeAbs hub engine s
  | .veDivu hub engine => Sys2Proof.Machine.execVeDivu hub engine s
  | .veDivs hub engine => Sys2Proof.Machine.execVeDivs hub engine s
  | .veAnd hub engine => Sys2Proof.Machine.execVeAnd hub engine s
  | .veOr hub engine => Sys2Proof.Machine.execVeOr hub engine s
  | .veXor hub engine => Sys2Proof.Machine.execVeXor hub engine s
  | .veAndn hub engine => Sys2Proof.Machine.execVeAndn hub engine s
  | .veShl hub engine => Sys2Proof.Machine.execVeShl hub engine s
  | .veShr hub engine => Sys2Proof.Machine.execVeShr hub engine s
  | .veSar hub engine => Sys2Proof.Machine.execVeSar hub engine s
  | .veBfx hub engine => Sys2Proof.Machine.execVeBfx hub engine s
  | .veBfi hub engine => Sys2Proof.Machine.execVeBfi hub engine s
  | .vePopc hub engine => Sys2Proof.Machine.execVePopc hub engine s
  | .veClz hub engine => Sys2Proof.Machine.execVeClz hub engine s
  | .veMovi hub engine => Sys2Proof.Machine.execVeMovi hub engine s
  | .veMov hub engine => Sys2Proof.Machine.execVeMov hub engine s
  | .veClrm hub engine => Sys2Proof.Machine.execVeClrm hub engine s
  | .veSetm hub engine => Sys2Proof.Machine.execVeSetm hub engine s
  | .veSel hub engine => Sys2Proof.Machine.execVeSel hub engine s
  | .veFadd hub engine => Sys2Proof.Machine.execVeFadd hub engine s
  | .veFsub hub engine => Sys2Proof.Machine.execVeFsub hub engine s
  | .veFmul hub engine => Sys2Proof.Machine.execVeFmul hub engine s
  | .veFmin hub engine => Sys2Proof.Machine.execVeFmin hub engine s
  | .veFmax hub engine => Sys2Proof.Machine.execVeFmax hub engine s
  | .veFabs hub engine => Sys2Proof.Machine.execVeFabs hub engine s
  | .veFneg hub engine => Sys2Proof.Machine.execVeFneg hub engine s
  | .veFdiv hub engine => Sys2Proof.Machine.execVeFdiv hub engine s
  | .veFsqrt hub engine => Sys2Proof.Machine.execVeFsqrt hub engine s
  | .veFrcp hub engine => Sys2Proof.Machine.execVeFrcp hub engine s
  | .veFexp2 hub engine => Sys2Proof.Machine.execVeFexp2 hub engine s
  | .veFlog2 hub engine => Sys2Proof.Machine.execVeFlog2 hub engine s
  | .veCvtif hub engine => Sys2Proof.Machine.execVeCvtif hub engine s
  | .veCvtfi hub engine => Sys2Proof.Machine.execVeCvtfi hub engine s
  | .veCmp hub engine => Sys2Proof.Machine.execVeCmp hub engine s
  | .vePlog hub engine => Sys2Proof.Machine.execVePlog hub engine s
  | .vePwl hub engine => Sys2Proof.Machine.execVePwl hub engine s
  | .veBkt hub engine => Sys2Proof.Machine.execVeBkt hub engine s
  | .veLd hub engine => Sys2Proof.Machine.execVeLd hub engine s
  | .veStf hub engine => Sys2Proof.Machine.execVeStf hub engine s
  | .veStf2 hub engine => Sys2Proof.Machine.execVeStf2 hub engine s
  | .veMissf hub engine => Sys2Proof.Machine.execVeMissf hub engine s
  | .veStc hub engine => Sys2Proof.Machine.execVeStc hub engine s
  | .veStr hub engine => Sys2Proof.Machine.execVeStr hub engine s
  | .veRdf hub engine => Sys2Proof.Machine.execVeRdf hub engine s
  | .eval die unit hub ent opt order upsets => Sys2Proof.Machine.execEval die unit hub ent opt order upsets s
  | .evalComplete die unit hub ent opt => Sys2Proof.Machine.execEvalComplete die unit hub ent opt s
  | .preload die hub ent opt => Sys2Proof.Machine.execPreload die hub ent opt s
  | .drain die unit hub ent opt => Sys2Proof.Machine.execDrain die unit hub ent opt s
  | .clear die unit hub ent opt => Sys2Proof.Machine.execClear die unit hub ent opt s
  | .poolUnitTake die tile owner hub ent opt first count => Sys2Proof.Machine.execPoolUnitTake die tile owner hub ent opt first count s
  | .spillWindowFilled die unit idx => Sys2Proof.Machine.execSpillWindowFilled die unit idx s
  | .diePartialReturn die hub => Sys2Proof.Machine.execDiePartialReturn die hub s
  | .ruleSearch hub ent slot upsets => Sys2Proof.Machine.execRuleSearch hub ent slot upsets s
  | .muScrubCompare die unit upset => Sys2Proof.Machine.execMuScrubCompare die unit upset s
  | .tileSpareLoaded die tile => Sys2Proof.Machine.execTileSpareLoaded die tile s
  | .tileSlotRemapped die tile => Sys2Proof.Machine.execTileSlotRemapped die tile s
  | .muSpareLoaded die unit => Sys2Proof.Machine.execMuSpareLoaded die unit s
  | .muRemapped die unit => Sys2Proof.Machine.execMuRemapped die unit s
  | .ruleEdit => Sys2Proof.Machine.execRuleEdit s
  | .ruleEditSettle tenant table => Sys2Proof.Machine.execRuleEditSettle tenant table s
  | .settlementOpen tenant epoch => Sys2Proof.Machine.execSettlementOpen tenant epoch s
  | .orderedProcedureEnd tenant epoch => Sys2Proof.Machine.execOrderedProcedureEnd tenant epoch s
  | .lateRecordSettle tenant epoch => Sys2Proof.Machine.execLateRecordSettle tenant epoch s
  | .lateCmdlistPart tenant dest => Sys2Proof.Machine.execLateCmdlistPart tenant dest s
  | .settlementClose tenant epoch => Sys2Proof.Machine.execSettlementClose tenant epoch s
  | .capCommit => Sys2Proof.Machine.execCapCommit s
  | .captureGapEntry tenant => Sys2Proof.Machine.execCaptureGapEntry tenant s
  | .captureRead => Sys2Proof.Machine.execCaptureRead s
  | .replayStart => Sys2Proof.Machine.execReplayStart s
  | .replayHeadRelease queue => Sys2Proof.Machine.execReplayHeadRelease queue s
  | .replayEnd => Sys2Proof.Machine.execReplayEnd s
  | .replayDone tenant => Sys2Proof.Machine.execReplayDone tenant s
  | .qSig q id amount flags arg => Sys2Proof.Machine.execQSig q id amount flags arg s
  | .qWait q id amount flags arg => Sys2Proof.Machine.execQWait q id amount flags arg s
  | .waitGrant sem => Sys2Proof.Machine.execWaitGrant sem s
  | .qDec q id amount flags arg => Sys2Proof.Machine.execQDec q id amount flags arg s
  | .qSset q id amount flags arg => Sys2Proof.Machine.execQSset q id amount flags arg s
  | .qBar q id amount flags arg => Sys2Proof.Machine.execQBar q id amount flags arg s
  | .qBarnw q id amount flags arg => Sys2Proof.Machine.execQBarnw q id amount flags arg s
  | .barrierRelease bar => Sys2Proof.Machine.execBarrierRelease bar s
  | .barrierFullRelease bar => Sys2Proof.Machine.execBarrierFullRelease bar s
  | .qWaitbt q id amount flags arg => Sys2Proof.Machine.execQWaitbt q id amount flags arg s
  | .waitbtReached q => Sys2Proof.Machine.execWaitbtReached q s
  | .qRearm q id amount flags arg => Sys2Proof.Machine.execQRearm q id amount flags arg s
  | .qRsig q id amount flags arg => Sys2Proof.Machine.execQRsig q id amount flags arg s
  | .sluiceSignal port dev flags id value => Sys2Proof.Machine.execSluiceSignal port dev flags id value s
  | .sluiceArrival dev bar gen a => Sys2Proof.Machine.execSluiceArrival dev bar gen a s
  | .domainBarrierRelease k => Sys2Proof.Machine.execDomainBarrierRelease k s
  | .sluDbarStalled k => Sys2Proof.Machine.execSluDbarStalled k s
  | .semCountWrite sem value => Sys2Proof.Machine.execSemCountWrite sem value s
  | .barrierMaskWrite bar word value => Sys2Proof.Machine.execBarrierMaskWrite bar word value s
  | .dbarcfgWrite k value => Sys2Proof.Machine.execDbarcfgWrite k value s
  | .queueHold q on => Sys2Proof.Machine.execQueueHold q on s
  | .queueResume q => Sys2Proof.Machine.execQueueResume q s
  | .queueFlush q => Sys2Proof.Machine.execQueueFlush q s
  | .braidBringupStepDone port => Sys2Proof.Machine.execBraidBringupStepDone port s
  | .braidBringupTimeout port => Sys2Proof.Machine.execBraidBringupTimeout port s
  | .identityWord port w => Sys2Proof.Machine.execIdentityWord port w s
  | .flitReplay e => Sys2Proof.Machine.execFlitReplay e s
  | .braidPortDown port cause => Sys2Proof.Machine.execBraidPortDown port cause s
  | .braidRecord port m ago => Sys2Proof.Machine.execBraidRecord port m ago s
  | .braidReply port m => Sys2Proof.Machine.execBraidReply port m s
  | .mcast port m => Sys2Proof.Machine.execMcast port m s
  | .mcastCredit port m => Sys2Proof.Machine.execMcastCredit port m s
  | .mcastChunkSend xfer => Sys2Proof.Machine.execMcastChunkSend xfer s
  | .mcastPrune xfer hop => Sys2Proof.Machine.execMcastPrune xfer hop s
  | .mcastOutOfSet xfer => Sys2Proof.Machine.execMcastOutOfSet xfer s
  | .repairReq port m => Sys2Proof.Machine.execRepairReq port m s
  | .mcastRepairSend xfer => Sys2Proof.Machine.execMcastRepairSend xfer s
  | .mcastRetentionExpiry xfer => Sys2Proof.Machine.execMcastRetentionExpiry xfer s
  | .cmdlist port m => Sys2Proof.Machine.execCmdlist port m s
  | .attEgressTimeout port => Sys2Proof.Machine.execAttEgressTimeout port s
  | .bootStepComplete b => Sys2Proof.Machine.execBootStepComplete b s
  | .controlSegment => Sys2Proof.Machine.execControlSegment s
  | .segmentTimeout tenant port tag => Sys2Proof.Machine.execSegmentTimeout tenant port tag s
  | .readReg => Sys2Proof.Machine.execReadReg s
  | .writeReg => Sys2Proof.Machine.execWriteReg s
  | .swap => Sys2Proof.Machine.execSwap s
  | .drainSwap => Sys2Proof.Machine.execDrainSwap s
  | .freeze => Sys2Proof.Machine.execFreeze s
  | .resume => Sys2Proof.Machine.execResume s
  | .discardShadow => Sys2Proof.Machine.execDiscardShadow s
  | .modelChunk => Sys2Proof.Machine.execModelChunk s
  | .bundleIdleExpiry tenant => Sys2Proof.Machine.execBundleIdleExpiry tenant s
  | .bundleCheckComplete tenant => Sys2Proof.Machine.execBundleCheckComplete tenant s
  | .loadPlacementComplete tenant => Sys2Proof.Machine.execLoadPlacementComplete tenant s
  | .oldHalfRelease tenant => Sys2Proof.Machine.execOldHalfRelease tenant s
  | .drainSwapPlacementComplete tenant => Sys2Proof.Machine.execDrainSwapPlacementComplete tenant s
  | .sectorRead reader hub addr who badOwn badOther => Sys2Proof.Machine.execSectorRead reader hub addr who badOwn badOther s
  | .sectorWrite writer hub addr who data => Sys2Proof.Machine.execSectorWrite writer hub addr who data s
  | .hbmErrorPoll stack rows => Sys2Proof.Machine.execHbmErrorPoll stack rows s
  | .hbmRetrain stack pc => Sys2Proof.Machine.execHbmRetrain stack pc s
  | .rowRepair stack row spare => Sys2Proof.Machine.execRowRepair stack row spare s
  | .sweepPageDone stack page => Sys2Proof.Machine.execSweepPageDone stack page s
  | .memEraseDone => Sys2Proof.Machine.execMemEraseDone s
  | .memScrubDone tenant => Sys2Proof.Machine.execMemScrubDone tenant s
  | .showStatus binding => Sys2Proof.Machine.execShowStatus binding s
  | .selfTest binding failed => Sys2Proof.Machine.execSelfTest binding failed s
  | .kemPublic binding => Sys2Proof.Machine.execKemPublic binding s
  | .setOwner binding => Sys2Proof.Machine.execSetOwner binding s
  | .enrolKey binding => Sys2Proof.Machine.execEnrolKey binding s
  | .revokeKey binding => Sys2Proof.Machine.execRevokeKey binding s
  | .raiseMinVersion binding => Sys2Proof.Machine.execRaiseMinVersion binding s
  | .setSigPolicy binding => Sys2Proof.Machine.execSetSigPolicy binding s
  | .setTenancy binding => Sys2Proof.Machine.execSetTenancy binding s
  | .loadMacsecCak binding => Sys2Proof.Machine.execLoadMacsecCak binding s
  | .loadExportKey binding => Sys2Proof.Machine.execLoadExportKey binding s
  | .deleteExportKey binding => Sys2Proof.Machine.execDeleteExportKey binding s
  | .rotateMemKey binding => Sys2Proof.Machine.execRotateMemKey binding s
  | .releaseTenant binding => Sys2Proof.Machine.execReleaseTenant binding s
  | .zeroise binding => Sys2Proof.Machine.execZeroise binding s
  | .getVersion binding => Sys2Proof.Machine.execGetVersion binding s
  | .getCapabilities binding => Sys2Proof.Machine.execGetCapabilities binding s
  | .negotiateAlgorithms binding => Sys2Proof.Machine.execNegotiateAlgorithms binding s
  | .getDigests binding => Sys2Proof.Machine.execGetDigests binding s
  | .getCertificate binding => Sys2Proof.Machine.execGetCertificate binding s
  | .challenge binding => Sys2Proof.Machine.execChallenge binding s
  | .getMeasurements binding => Sys2Proof.Machine.execGetMeasurements binding s
  | .correctableError e => Sys2Proof.Machine.execCorrectableError e s
  | .uncorrectableError unit detail => Sys2Proof.Machine.execUncorrectableError unit detail s
  | .relUnitReset unit pass => Sys2Proof.Machine.execRelUnitReset unit pass s
  | .unitRetire unit => Sys2Proof.Machine.execUnitRetire unit s
  | .unitReinstate unit pass => Sys2Proof.Machine.execUnitReinstate unit pass s
  | .unitReset unit => Sys2Proof.Machine.execUnitReset unit s
  | .relCoreReset core => Sys2Proof.Machine.execRelCoreReset core s
  | .watchdogExpiry => Sys2Proof.Machine.execWatchdogExpiry s
  | .avsCurrentRead domain cur => Sys2Proof.Machine.execAvsCurrentRead domain cur s
  | .adaptiveVoltageStep domain margin => Sys2Proof.Machine.execAdaptiveVoltageStep domain margin s
  | .setpointReached domain reported => Sys2Proof.Machine.execSetpointReached domain reported s
  | .vwarnCrossing domain mv => Sys2Proof.Machine.execVwarnCrossing domain mv s
  | .stretchRelease domain mv above margin ok => Sys2Proof.Machine.execStretchRelease domain mv above margin ok s
  | .vrstCrossing domain mv => Sys2Proof.Machine.execVrstCrossing domain mv s
  | .pwrRegFault domain cause => Sys2Proof.Machine.execPwrRegFault domain cause s
  | .refInputLost red => Sys2Proof.Machine.execRefInputLost red s
  | .refRevert good => Sys2Proof.Machine.execRefRevert good s
  | .refHoldExpiry => Sys2Proof.Machine.execRefHoldExpiry s
  | .adaptiveClockStep die limit => Sys2Proof.Machine.execAdaptiveClockStep die limit s
  | .timingEmergency domain margin => Sys2Proof.Machine.execTimingEmergency domain margin s
  | .thermalReading die => Sys2Proof.Machine.execThermalReading die s
  | .tripRestore temps stacks_ => Sys2Proof.Machine.execTripRestore temps stacks_ s
  | .capPeriodEnd core share cur => Sys2Proof.Machine.execCapPeriodEnd core share cur s
  | .gaugeSample die temps => Sys2Proof.Machine.execGaugeSample die temps s
  | .mctpPacket binding pkt => Sys2Proof.Machine.execMctpPacket binding pkt s
  | .setEndpointId binding => Sys2Proof.Machine.execSetEndpointId binding s
  | .getEndpointId binding => Sys2Proof.Machine.execGetEndpointId binding s
  | .getEndpointUuid binding => Sys2Proof.Machine.execGetEndpointUuid binding s
  | .getMctpVersionSupport binding => Sys2Proof.Machine.execGetMctpVersionSupport binding s
  | .getMessageTypeSupport binding => Sys2Proof.Machine.execGetMessageTypeSupport binding s
  | .getVendorDefinedMessageSupport binding => Sys2Proof.Machine.execGetVendorDefinedMessageSupport binding s
  | .getTid binding => Sys2Proof.Machine.execGetTid binding s
  | .getPldmVersion binding => Sys2Proof.Machine.execGetPldmVersion binding s
  | .getPldmTypes binding => Sys2Proof.Machine.execGetPldmTypes binding s
  | .getPldmCommands binding => Sys2Proof.Machine.execGetPldmCommands binding s
  | .getSensorReading binding => Sys2Proof.Machine.execGetSensorReading binding s
  | .getStateSensorReadings binding => Sys2Proof.Machine.execGetStateSensorReadings binding s
  | .getPdrRepositoryInfo binding => Sys2Proof.Machine.execGetPdrRepositoryInfo binding s
  | .getPdr binding => Sys2Proof.Machine.execGetPdr binding s
  | .setEventReceiver binding => Sys2Proof.Machine.execSetEventReceiver binding s
  | .queryDeviceIdentifiers binding => Sys2Proof.Machine.execQueryDeviceIdentifiers binding s
  | .getFirmwareParameters binding => Sys2Proof.Machine.execGetFirmwareParameters binding s
  | .requestUpdate binding => Sys2Proof.Machine.execRequestUpdate binding s
  | .passComponentTable binding => Sys2Proof.Machine.execPassComponentTable binding s
  | .updateComponent binding => Sys2Proof.Machine.execUpdateComponent binding s
  | .requestFirmwareData binding data => Sys2Proof.Machine.execRequestFirmwareData binding data s
  | .transferComplete binding => Sys2Proof.Machine.execTransferComplete binding s
  | .verifyComplete binding => Sys2Proof.Machine.execVerifyComplete binding s
  | .applyComplete binding => Sys2Proof.Machine.execApplyComplete binding s
  | .activateFirmware binding => Sys2Proof.Machine.execActivateFirmware binding s
  | .getStatus binding => Sys2Proof.Machine.execGetStatus binding s
  | .cancelUpdate binding => Sys2Proof.Machine.execCancelUpdate binding s
  | .mgmtWarmReset value => Sys2Proof.Machine.execMgmtWarmReset value s
  | .mgmtColdReset value => Sys2Proof.Machine.execMgmtColdReset value s
  | .registerWrite path tenant addr mask value => Sys2Proof.Machine.execRegisterWrite path tenant addr mask value s
  | .word0ReadLatch path tenant addr => Sys2Proof.Machine.execWord0ReadLatch path tenant addr s
  | .coldRstNAssert => Sys2Proof.Machine.execColdRstNAssert s
  | .coldRstNDeassert => Sys2Proof.Machine.execColdRstNDeassert s
  | .warmRstNAssert => Sys2Proof.Machine.execWarmRstNAssert s
  | .warmRstNDeassert => Sys2Proof.Machine.execWarmRstNDeassert s
  | .auxPgFall => Sys2Proof.Machine.execAuxPgFall s
  | .auxPgRise => Sys2Proof.Machine.execAuxPgRise s
  | .trstNAssert => Sys2Proof.Machine.execTrstNAssert s
  | .jtagBypass => Sys2Proof.Machine.execJtagBypass s
  | .jtagSamplePreload => Sys2Proof.Machine.execJtagSamplePreload s
  | .jtagExtest => Sys2Proof.Machine.execJtagExtest s
  | .jtagExtestPulse => Sys2Proof.Machine.execJtagExtestPulse s
  | .jtagExtestTrain => Sys2Proof.Machine.execJtagExtestTrain s
  | .jtagClamp => Sys2Proof.Machine.execJtagClamp s
  | .jtagHighz => Sys2Proof.Machine.execJtagHighz s
  | .powerUp straps flash => Sys2Proof.Machine.execPowerUp straps flash s
  | .trstNDeassert => Sys2Proof.Machine.execTrstNDeassert s
  | .dynamicAddressAssignment addr => Sys2Proof.Machine.execDynamicAddressAssignment addr s
  | .sgmiiLinkChange up => Sys2Proof.Machine.execSgmiiLinkChange up s
  | .stackTemperatureReport stack temp => Sys2Proof.Machine.execStackTemperatureReport stack temp s
  | .hbmRefresh stack perBank rfm => Sys2Proof.Machine.execHbmRefresh stack perBank rfm s
  | .dieLinkTrainingComplete link => Sys2Proof.Machine.execDieLinkTrainingComplete link s
  | .mkaFrame port sub m => Sys2Proof.Machine.execMkaFrame port sub m s
  | .lldpTransmit port sub => Sys2Proof.Machine.execLldpTransmit port sub s
  | .ptpLockLoss => Sys2Proof.Machine.execPtpLockLoss s
  | .supplyRangeTimeout domain => Sys2Proof.Machine.execSupplyRangeTimeout domain s
  | .replyLeftPort port sub events startedAgo => Sys2Proof.Machine.execReplyLeftPort port sub events startedAgo s

end Sys2Proof.Machine
end

