-- ==== Sys2Proof/Machine/Tick.lean ====
section
/-! DEFINITION. One tick of the block with no command waiting: what happens with time alone and has no command of the table. -/

namespace Sys2Proof.Machine

/-- The credit-stall counters of a Braid port over a tick (R405): the hub cycles in which a message of a channel waits for credit, in the egress queue of
an attached port, or as the head of a command queue. DESIGN CHOICE (log 81): the spec names the counters and does not say what they count. -/
def State.creditTick (s : State) (b : Nat) : State :=
  let x := s.brPort b
  let heads := s.slu.queues.any (fun q => (q.2.wait == .credit || q.2.wait == .link) && s.routePort (q.1 / 32) ((q.2.cmds.headD {}).arg % 8192) == some b)
  let waits := fun (v : Nat) => (x.step == 6 && x.egress.any (fun m => m.flags % 4 == v)) || (v == 0 && heads)
  ((List.range 4).filter waits).foldl (fun s v => s.count .cntBraidPortCnt (b * 9 + 5 + v) (s.cyclesNow (8 + b / 6))) s

/-- The egress of one Braid port over a tick: what it sent is acknowledged, the endpoints attached to it return credit, and what waited leaves
(R383, R403); what it discarded in an epoch that is over is raised. -/
def State.flushPort (s : State) (b : Nat) : State :=
  let s := s.attDropDue b
  let x := s.brPort b
  if x.step = 6 then (s.setBrPort b { x with unacked := [] }).brPump b true else s

/-- The ATTN and DEGRADED bits of the tenants at the end of a tick, for frames that begin in it and leave later (R84); those of the last 4,096 ticks
are kept while a frame waits. -/
def State.sampleBits (s : State) : State :=
  if s.trib.evtQueue.isEmpty && s.trib.ports.all (fun p => p.2.txq.isEmpty) then { s with trib := { s.trib with sampled := [] } }
  else
    let v := bitmap ((List.range 4).map s.attn ++ (List.range 4).map s.degraded)
    let l := s.trib.sampled
    let l := if (l.getLast?.map Prod.snd) = some v then l else l ++ [(s.now, v)]
    let old := l.filter (fun x => decide (x.1 + 4096 < s.now))
    { s with trib := { s.trib with sampled := l.drop (old.length - 1) } }

/-- The stall counters of the streams over a tick (R147): each hub cycle in which a stream issues no element counts. -/
def State.stallTick (s : State) : State :=
  (List.range 2).foldl (fun s h =>
    (s.hub h).streams.foldl (fun s e =>
      let n := s.cyclesNow (8 + h) - e.2.sent
      let t := if e.2.state = 0 ∨ n = 0 then s else s.count .cntStallCnt ((512 * h + e.1) * 9 + s.stallCause h e.1 e.2) n
      t.setStream h e.1 { e.2 with sent := 0 }) s) s

/-- The cause of a tile's idle lane cycles where no context of its own waits (R250): only spilled trees are pending; or pending trees of another tile
could be pooled, but no range of accumulators is free. -/
def State.idleCause (s : State) (d t : Nat) : Option Nat :=
  let mine := s.die.ins.filter (fun x => x.die == d && x.phys == t)
  if mine.any (fun x => !x.spills.isEmpty) then some 4
  else if s.fld .tileDieCfg d 0 0 0 == 1 && s.die.ins.any (fun x => x.die == d && x.phys != t && decide (x.unit < 66) && !x.pool && !x.todo.isEmpty &&
      (s.ent? x.hub x.ent).any (fun e => !e.lock) && (s.accFit d t (x.acc.length * accWidth x.path)).isNone) then some 5
  else none
/-- A tile holds pairs of its own that have not ended. -/
def State.lanesPend (s : State) (d t : Nat) : Bool := s.die.ins.any (fun x => x.die == d && x.phys == t && !x.todo.isEmpty)
/-- The lane cycles of one tile over a tick (R250): those that its evaluations counted pass first; the rest are idle. While contexts wait, how many of
them lost a read to a conflict and how many waited for the leaf path is free (DESIGN CHOICE, log 91), and the others had no pair to work on. -/
def State.idleTile (s : State) (p : Nat) : State :=
  let all := 128 * s.cyclesNow (p / 66)
  let owed := SMap.getD (fun _ => 0) s.die.lanes p
  let idle := all - owed
  let s := { s with die := { s.die with lanes := SMap.setD (fun _ => 0) s.die.lanes p (owed - all) } }
  if s.lanesPend (p / 66) (p % 66) then
    let a := s.freshWord
    let b := a.2.freshWord
    let bank := a.1 % (idle + 1)
    (b.2.count .cntTileCnt (p * 8 + 2) bank).count .cntTileCnt (p * 8 + 3) (b.1 % (idle - bank + 1))
  else
    match s.idleCause (p / 66) (p % 66) with
    | some k => s.count .cntTileCnt (p * 8 + k) idle
    | none => s
def State.idleTick (s : State) : State :=
  (((s.die.ins.filter (fun (x : TileIns) => decide (x.phys < 66))).map (fun (x : TileIns) => 66 * x.die + x.phys)) ++ s.die.lanes.map Prod.fst).dedup.foldl
    (fun s p => s.idleTile p) s

/-- The tile cycles in which the issue logic of a die waits for entries of a bank (R290). -/
def State.bankTick (s : State) : State :=
  ((s.die.recs.filter (fun x => !x.held && (!x.todo.isEmpty || x.needPre) && (s.takeBank x).isNone)).map DieRec.die).dedup.foldl (fun s d =>
    s.count .cntWsmCnt (d * 2 + 1) (s.cyclesNow d)) s

/-- The cycles in which a queue is in one of the states 2 to 5 (Table 13.9). -/
def State.queueTick (s : State) : State :=
  (s.slu.queues.filter (fun x => x.2.wait != .none && !x.2.halted && !s.queHeld x.1)).foldl (fun s x =>
    s.count .cntSluQwaitCnt x.1 (s.cyclesNow (if x.1 < 64 then 8 + x.1 / 32 else (x.1 - 64) / 8))) s

/-- A tick begins on a hub die: it has served no head yet (R134). -/
def WeirHub.newTick (w : WeirHub) : WeirHub := { w with heads := 0 }

/-- What the parts of the device do in a tick that no reset holds: acknowledgements and credit come back; the heads that a hub die has served in a tick
start from 0 (R134); stalled streams, idle tiles, waits for banks, queues that wait, stretched islands and Backwater's counters count; streams that a drain
has emptied go to IDLE (R155), and complete partials that waited are sent; queue heads that wait for a re-arm or for credit try again. -/
def State.partsTick (s : State) : State :=
  let s := (List.range 12).foldl (fun s b => (s.creditTick b).flushPort b) s
  let s := { s with weir := { s.weir with hubs := s.weir.hubs.map WeirHub.newTick } }
  let s := s.stallTick.idleTick.bankTick.queueTick.bwTick
  let s := (List.range 4).foldl (fun s t => s.idleStreams t) s.reapTails
  s.sweepTick.pumpPartials.clockTick.retryQueues

/-- While the device serves, a change of REL_DEGn that no command has reported is reported (R497). -/
def State.degradedTick (s : State) : State := if s.head.step = 9 then s.noteDegraded else s

/-- One tick: BT counts, and unless a reset is held the parts run. -/
def State.tickOne (s : State) : State :=
  let s := s.sampleBits
  let s := { s with time := { s.time with bt := s.time.bt + 1 } }
  if s.pins.held || s.pins.warmHeld then s else s.partsTick.degradedTick

end Sys2Proof.Machine
end

