-- ==== Sys2Proof/Safety.lean ====
section
/-! DEFINITION. What counts as a well-kept state, in the terms the statements use. -/

namespace Sys2Proof

/-- The commands that act while a reset is held: pins, the always-on domain and the management path (R528, R554, R567, R571), and, while a warm one
is held, the readings of dies and stacks (R517, R518). -/
def Instr.inReset : Instr → Bool
  | .showStatus _ | .selfTest _ _ | .kemPublic _ | .setOwner _ | .enrolKey _ | .revokeKey _ | .raiseMinVersion _ | .setSigPolicy _
  | .setTenancy _ | .loadMacsecCak _ | .loadExportKey _ | .deleteExportKey _ | .rotateMemKey _ | .releaseTenant _ | .zeroise _
  | .getVersion _ | .getCapabilities _ | .negotiateAlgorithms _ | .getDigests _ | .getCertificate _ | .challenge _
  | .getMeasurements _ | .pwrRegFault _ _ | .refInputLost _ | .refRevert _ | .refHoldExpiry | .tripRestore _ _ | .gaugeSample _ _
  | .mctpPacket _ _ | .setEndpointId _ | .getEndpointId _ | .getEndpointUuid _ | .getMctpVersionSupport _
  | .getMessageTypeSupport _ | .getVendorDefinedMessageSupport _ | .getTid _ | .getPldmVersion _ | .getPldmTypes _
  | .getPldmCommands _ | .getSensorReading _ | .getStateSensorReadings _ | .getPdrRepositoryInfo _ | .getPdr _
  | .setEventReceiver _ | .queryDeviceIdentifiers _ | .getFirmwareParameters _ | .requestUpdate _ | .passComponentTable _
  | .updateComponent _ | .requestFirmwareData _ _ | .transferComplete _ | .verifyComplete _ | .applyComplete _
  | .activateFirmware _ | .getStatus _ | .cancelUpdate _ | .mgmtWarmReset _ | .mgmtColdReset _ | .registerWrite _ _ _ _ _
  | .word0ReadLatch _ _ _ | .coldRstNAssert | .coldRstNDeassert | .warmRstNAssert | .warmRstNDeassert | .auxPgFall | .auxPgRise
  | .trstNAssert | .jtagBypass | .jtagSamplePreload | .jtagExtest | .jtagExtestPulse | .jtagExtestTrain | .jtagClamp | .jtagHighz
  | .powerUp _ _ | .trstNDeassert | .dynamicAddressAssignment _ | .sgmiiLinkChange _ | .thermalReading _ | .stackTemperatureReport _ _ => true
  | _ => false

/-- The commands that can change the stored bytes of memory: accesses and error reports, the erase, the scrub, and what can reset the device cold. -/
def Instr.movesMemory : Instr → Bool
  | .sectorRead _ _ _ _ _ _ | .sectorWrite _ _ _ _ _ | .hbmErrorPoll _ _ | .memEraseDone | .memScrubDone _ | .bootStepComplete _ | .writeReg
  | .registerWrite _ _ _ _ _ | .zeroise _ | .thermalReading _ | .stackTemperatureReport _ _ | .mgmtWarmReset _ | .mgmtColdReset _
  | .coldRstNAssert | .auxPgFall | .powerUp _ _ => true
  | _ => false

namespace Machine

/-- No reset is held: the parts of the device outside the always-on domain run (R528, R567, R571). -/
def State.runs (s : State) : Prop := s.pins.held = false ∧ s.pins.warmHeld = false

/-- The sparse stores that hold registers, counters and memory bytes are in canonical form: keys rise strictly, and no entry equals
what its key reads as when unlisted. -/
def State.canon (s : State) : Prop :=
  SMap.wfD regDefault s.regs = true ∧ SMap.wfD (fun _ => 0) s.cnts = true ∧ Memory.wf s.mem.data = true

/-- The fused grade is one of the product's two grades (R2). -/
def State.gradeLegal (s : State) : Prop := s.fuse.grade = 1 ∨ s.fuse.grade = 2

/-- What every step keeps: the stores are canonical and the grade is legal. -/
def State.Inv (s : State) : Prop := s.canon ∧ s.gradeLegal

/-- What no command changes: the queue of waiting commands and the fused values; and the numbers of free values read only rise, so that no free
value is read twice. -/
def State.Outside (s t : State) : Prop := t.pending = s.pending ∧ t.fuse = s.fuse ∧ s.free ≤ t.free

/-- A command of a kind stands first among the commands that Headwater has accepted, with its fields in good form (Table 15.4). -/
def State.firstCmd (s : State) (kind : Nat) (c : HwCmd) (l : List HwCmd) : Prop :=
  s.head.cmds = c :: l ∧ c.cmd.cmd = kind ∧ c.cmd.reserved = 0 ∧ c.cmd.fits = true ∧ (c.cmd.group < 64 ∨ c.cmd.group = 0xFFFF) ∧
  (launchKind kind = none → c.cmd.targetEn = 0)

/-- The state once the first accepted command is taken. -/
def State.leaving (s : State) (l : List HwCmd) : State := { s with head := { s.head with cmds := l } }

/-- An engine is in a run that stands at an instruction of an opcode. -/
def State.runAt (s : State) (hub engine op : Nat) (r : VeRun) : Prop :=
  (s.veHub hub).runs.find? engine = some r ∧ r.pc < r.prog.code.length ∧ r.ins.op = op

/-- The state with an engine's run as given. -/
def State.ranTo (s : State) (hub engine : Nat) (r : VeRun) : State :=
  s.setVe hub { s.veHub hub with runs := (s.veHub hub).runs.put engine r }

/-- A run past an instruction that does something in every lane whose guard holds (R200). -/
def VeRun.stepped (r : VeRun) (f : LoopFrame → VIns → Lane → Lane) : VeRun :=
  { r with
    pc := r.pc + 1
    cycles := r.cycles + vCycles r.ins
    lanes := r.lanes.map (fun l => if l.guard r.ins then f r.frame r.ins l else l) }

/-- A vector engine command carries out its opcode: an engine that stands at it goes one instruction on, with the lane operation done. -/
def carriesOut (c : Nat → Nat → Instr) (op : Nat) (f : LoopFrame → VIns → Lane → Lane) : Prop :=
  ∀ (hub engine : Nat) (r : VeRun) (s : State), s.runs → s.runAt hub engine op r →
    exec (c hub engine) s = .next (s.ranTo hub engine (r.stepped f))

/-- A queue that would run a command at once: enabled, not held, not halted, waiting for nothing, and empty. -/
def State.queueFree (s : State) (q : Nat) : Prop :=
  q < 128 ∧ s.queEn q = true ∧ s.queHeld q = false ∧ (s.que q).halted = false ∧ (s.que q).wait = .none ∧ (s.que q).cmds = []

/-- The state with one command in a queue. -/
def State.queued (s : State) (q : Nat) (c : QCmd) : State := s.setQue q { s.que q with cmds := [c] }

/-- A binding's front request, and what it asks for. -/
def State.asked (s : State) (b : Nat) (ask : Nat × Nat × Nat) (m : List Byte) : Prop := s.mgmtFront b = some m ∧ msgAsk m = ask

/-- The state with a binding's request answered and taken off its queue. -/
def State.answered (s : State) (b : Nat) (reply : List Byte) : State := (s.mgmtSend b reply).mgmtDone b

/-- The services of the unauthenticated role (Table 17.5): SHOW_STATUS, SELF_TEST, KEM_PUBLIC, SET_OWNER. -/
def openService (code : Nat) : Bool := code == 1 || code == 2 || code == 3 || code == 0x10

/-- The security module serves a request of a service: it is in approved mode, no self-test runs, and the request's fields are in form. -/
def State.serves (s : State) (b code : Nat) (c : SignedCmd) : Prop :=
  ∃ m : List Byte, s.asked b (0x7F, 1, code) m ∧ c = parseSigned (m.drop 6) ∧ s.sec.approved = true ∧ s.sec.testing = none ∧
    svcFault c (openService code) = none

/-- A service's command is authenticated for a tenant by a key that a role allows (R413, R467). -/
def State.proves (s : State) (c : SignedCmd) (role : KeyEnt → Bool) (n : State) : Prop :=
  s.authenticate c.keyId c.sigAlg c.tenant c.counter c.signed c.sigs (fun k => decide (c.tenant < 4) && role k && (k.role != 1 || bit k.tenants c.tenant)) = .ok n

/-- The body of a service request is one argument of 4 bytes and 4 bytes of 0. -/
def oneArg (c : SignedCmd) : Bool := c.body.length == 8 && leAt c.body 4 4 == 0

/-- The answer of a service. -/
def SvcRes.sent (r : SvcRes) (b : Nat) : State := r.st.answered b (vendorReply 1 r.status r.b1 r.data)

/-- The instructions of the vector engines, but LOOP and ENDL. -/
def veGuarded : List (Nat → Nat → Instr) :=
  [.veNop, .veAdd, .veSub, .veAdds, .veSubs, .veAddus, .veSubus, .veMul, .veMulhu, .veMulhs, .veMins, .veMaxs, .veMinu, .veMaxu, .veAbs, .veDivu,
   .veDivs, .veAnd, .veOr, .veXor, .veAndn, .veShl, .veShr, .veSar, .veBfx, .veBfi, .vePopc, .veClz] ++
  [.veFadd, .veFsub, .veFmul, .veFmin, .veFmax, .veFabs, .veFneg, .veFdiv, .veFsqrt, .veFrcp, .veFexp2, .veFlog2, .veCvtif, .veCvtfi] ++
  [.veMovi, .veMov, .veClrm, .veSetm, .veSel, .veCmp, .vePlog, .vePwl, .veBkt, .veLd, .veStf, .veStf2, .veMissf, .veStc, .veStr, .veRdf]

end Machine

end Sys2Proof
end

