-- ==== Sys2Proof/Certificates/Slice0/Obligations.lean ====
section
/-! DEFINITION. The statements about the model. -/

open Sys2Proof Sys2Proof.Machine

/-- The model's queue (log 1): a step with a command in front is that command's meaning on the queue's rest. -/
def Obligations.StepRunsFront : Prop :=
  ∀ (c : Instr) (rest : List Instr) (s : State), step { s with pending := c :: rest } = exec c { s with pending := rest }

/-- The model's idle step (log 1): with no command waiting a tick passes, and while a reset is held nothing else
happens in it, but that frames still waiting keep their samples of ATTN and DEGRADED (log 76). -/
def Obligations.IdleStepIsTick : Prop :=
  (∀ s : State, s.pending = [] → step s = .next s.tickOne) ∧
  (∀ s : State, ¬ s.runs →
    s.tickOne = { s with time := { s.time with bt := s.time.bt + 1 }, trib := { s.trib with sampled := s.sampleBits.trib.sampled } })

/-- No command touches the queue or the fused values, and no free value is read twice (the model's own frame, logs 1, 4 and 7). -/
def Obligations.CommandsKeepOutside : Prop :=
  ∀ (c : Instr) (s t : State), exec c s = .next t → s.Outside t

/-- Every step keeps the stores canonical and the grade legal. -/
def Obligations.StepKeepsInv : Prop :=
  ∀ (s t : State), s.Inv → step s = .next t → t.Inv

/-- The state after reset meets the invariant that every step keeps. -/
def Obligations.ResetInv : Prop := State.reset.Inv

/-- While a reset is held (R528, R554, R567, R571), the commands of the parts in reset change nothing; a cold one holds the readings of dies and
stacks back too (that they go on through a warm one is the model's choice of log 87). -/
def Obligations.HeldResetStopsParts : Prop :=
  (∀ (c : Instr) (s : State), c.inReset = false → ¬ s.runs → exec c s = .next s) ∧
  (∀ (die stack temp : Nat) (s : State), s.pins.held = true →
    exec (.thermalReading die) s = .next s ∧ exec (.stackTemperatureReport stack temp) s = .next s)

/-- Frames at record ports (R61, R63, R65 to R67, R69, R92, R131): what is taken, what is discarded and counted. -/
def Obligations.FramesAtPorts : Prop :=
  (∀ (port sub : Nat) (f : RxFrame) (h : IpHead) (payload : List Byte) (sas : List SecAssoc) (s : State), s.runs →
    s.portUsed (2 * port + sub) = true → s.portCfg (2 * port + sub) 0 0 = 1 → (s.port (2 * port + sub)).up = true →
    64 ≤ f.len → f.len ≤ 9216 → f.tags = [] → f.len ≤ s.classShare (2 * port + sub) none → f.fcsOk = true →
    s.macsecCheck (2 * port + sub) f.secTag = some sas → f.body = .ip h payload →
    s.portCfg (2 * port + sub) (if h.v6 then 2 else 1) (if h.v6 then 2 else 1) = 1 → h.own = true → h.plain = true → h.udp = true →
    (if h.csumZero then !h.v6 else h.csumOk) = true → h.dstPort = s.fld .tribCfg ((2 * port + sub) / 16) 0 31 16 →
    let p := 2 * port + sub
    let n := ((s.discard p 0).count .cntTribPortCnt (p * 11 + 2) f.fecCorr).count .cntTribPortCnt (p * 11 + 3) f.fecUncorr
    let w := n.setPort p { s.port p with rxSa := sas }
    exec (.frameReceived port sub f) s = .next (w.acceptFrame p none f.len (s.now - f.ago) h payload)) ∧
  (∀ (port sub : Nat) (f : RxFrame) (s : State), s.runs →
    s.portUsed (2 * port + sub) = true → s.portCfg (2 * port + sub) 0 0 = 1 → (s.port (2 * port + sub)).up = true → f.len < 64 →
    let p := 2 * port + sub
    let n := ((s.discard p 0).count .cntTribPortCnt (p * 11 + 2) f.fecCorr).count .cntTribPortCnt (p * 11 + 3) f.fecUncorr
    exec (.frameReceived port sub f) s = .next (n.discard p 10)) ∧
  (∀ (port sub : Nat) (w : WaitFrame) (l : List WaitFrame) (s : State), s.runs → (s.port (2 * port + sub)).waitA = w :: l →
    qLen (s.queue (2 * port + sub)) + (parseJrfHead w.payload).records ≤ s.queueCap (2 * port + sub) →
    let p := 2 * port + sub
    exec (.losslessFrameParse port sub false) s =
      .next (((s.setPort p { s.port p with waitA := l }).pfcCheck p false).takeFrame p w.stamp w.dest w.verdict false w.payload)) ∧
  (∀ (port sub : Nat) (enable : BitVec 8) (quanta : PfcQuanta) (sas : List SecAssoc) (s : State), s.runs → s.portUsed (2 * port + sub) = true →
    (s.port (2 * port + sub)).up = true → s.macsecCheck (2 * port + sub) quanta.tag = some sas →
    let p := 2 * port + sub
    let n := s.discard p 0
    let x := { s.port p with rxSa := sas }
    exec (.pfcFrameReceived port sub enable quanta) s = .next (n.setPort p (n.paused p enable quanta.quanta x)) ∧
    (s.portCfg p 11 10 = 1 → bit enable.toNat (s.portCfg p 14 12) = true →
      s.paused p enable quanta.quanta x = { x with pausedA := s.pauseEnd p (nth quanta.quanta (s.portCfg p 14 12) 0) })) ∧
  (∀ (port sub : Nat) (enable : BitVec 8) (quanta : PfcQuanta) (s : State), s.runs → s.portUsed (2 * port + sub) = true →
    (s.port (2 * port + sub)).up = true → s.macsecCheck (2 * port + sub) quanta.tag = none →
    exec (.pfcFrameReceived port sub enable quanta) s = .next ((s.discard (2 * port + sub) 0).discard (2 * port + sub) 4)) ∧
  (∀ (port sub : Nat) (tag : Option SecTag) (sas : List SecAssoc) (s : State), s.runs → s.portUsed (2 * port + sub) = true →
    (s.port (2 * port + sub)).up = true → s.portCfg (2 * port + sub) 1 1 = 1 → s.macsecCheck (2 * port + sub) tag = some sas →
    let n := s.discard (2 * port + sub) 0
    let q := (n.setPort (2 * port + sub) { s.port (2 * port + sub) with rxSa := sas }).protect (2 * port + sub)
    exec (.controlProtocolFrame port sub { kind := .arp, tag := tag }) s =
      .next { q.1 with trib := { q.1.trib with out := q.1.trib.out ++ [TxOut.ctrl port sub 1 q.2] } })

/-- Record ports come up and go down, and their MACsec channels change keys (R61 to R64). -/
def Obligations.PortStates : Prop :=
  (∀ (port sub : Nat) (s : State), s.runs → s.portUsed (2 * port + sub) = true → s.portCfg (2 * port + sub) 0 0 = 1 → 6 ≤ s.head.step →
    s.sec.error = false → s.portCfg (2 * port + sub) 3 3 = 0 →
    exec (.recordPortUp port sub) s = .next (s.setPort (2 * port + sub) { s.port (2 * port + sub) with up := true })) ∧
  (∀ (port sub : Nat) (s : State), s.runs →
    exec (.recordPortDown port sub) s =
      .next (s.setPort (2 * port + sub) { s.port (2 * port + sub) with up := false, pausedA := 0, pausedB := 0 })) ∧
  (∀ (port sub : Nat) (a : SecAssoc) (s : State), s.runs → (s.port (2 * port + sub)).txSa = some a → 2 ^ 62 < a.pn →
    (s.port (2 * port + sub)).keyChange = false →
    let n := s.setPort (2 * port + sub) { s.port (2 * port + sub) with keyChange := true }
    exec (.macsecKeyChange port sub) s = .next { n with trib := { n.trib with out := n.trib.out ++ [TxOut.mka port sub ((a.an + 1) % 4)] } }) ∧
  (∀ (port sub an key : Nat) (ckn : List Byte) (s : State), s.runs → s.sec.caks.find? (2 * port + sub) = some (key, ckn) →
    s.portUsed (2 * port + sub) = true → s.sec.error = false →
    exec (.mkaFrame port sub { auth := true, ckn := ckn, tx := some an, rx := none }) s =
      .next ((s.discard (2 * port + sub) 0).setPort (2 * port + sub) { s.port (2 * port + sub) with
        txSa := some { an := an % 4, sci := Config.portSci (2 * port + sub), pn := 1, live := true }, keyChange := false })) ∧
  (∀ (port sub : Nat) (m : MkaMsg) (s : State), s.runs → s.portUsed (2 * port + sub) = true →
    (∀ k, s.sec.caks.find? (2 * port + sub) = some k → m.auth = true → s.sec.error = false → k.2 ≠ m.ckn) →
    exec (.mkaFrame port sub m) s = .next (s.discard (2 * port + sub) 0)) ∧
  (∀ (port sub : Nat) (s : State), s.runs → s.mayTransmit (2 * port + sub) = true →
    let q := s.protect (2 * port + sub)
    exec (.lldpTransmit port sub) s = .next { q.1 with trib := { q.1.trib with out := q.1.trib.out ++ [TxOut.lldp port sub q.2] } })

/-- Sessions end, and replies leave (R75, R81 to R83, R123). -/
def Obligations.RepliesLeave : Prop :=
  (∀ (hub : Nat) (key : SessionKey) (s : State), s.runs →
    let idle := s.rd .tribSess hub 0 + 2 ^ 32 * (s.rd .tribSess hub 1 % 65536)
    ∃ t, exec (.sessionIdleExpiry hub key) s = .next t ∧
      t = { s with trib := { s.trib with sessions := t.trib.sessions } } ∧
      t.trib.sessions = setNth s.trib.sessions hub
        ((nth s.trib.sessions hub []).filter (fun e => !(decide (e.key = key) && decide (e.lastBt + idle ≤ s.now))))) ∧
  (∀ (port sub : Nat) (dest : Dest) (f : TxFrame) (s : State), s.runs →
    (s.port (2 * port + sub)).gather.find? (fun f => f.dest = dest) = some f → f.first + s.coalesce ((2 * port + sub) / 16) ≤ s.now →
    let x := s.port (2 * port + sub)
    exec (.replyCoalesceExpiry port sub dest) s =
      .next (s.setPort (2 * port + sub) { x with gather := x.gather.filter (fun g => g.dest ≠ dest), txq := x.txq ++ [f] })) ∧
  (∀ s : State, s.runs →
    ∃ t, exec .lockstepReleaseTick s = .next t ∧
      t.trib.held = s.trib.held.filter (fun r => match r.release with | some t => !decide (t ≤ s.now) | none => false)) ∧
  (∀ (port sub ago : Nat) (f : TxFrame) (l : List TxFrame) (s : State), s.runs → s.mayTransmit (2 * port + sub) = true →
    s.replyPaused (2 * port + sub) = false → (s.port (2 * port + sub)).txq = f :: l →
    exec (.replyLeftPort port sub false ago) s =
      .next ((s.setPort (2 * port + sub) { s.port (2 * port + sub) with txq := l }).sendFrame (2 * port + sub) f (s.now - ago))) ∧
  (∀ (port sub ago : Nat) (s : State), s.runs → s.mayTransmit (2 * port + sub) = true →
    s.replyPaused (2 * port + sub) = false → s.fld .tribEvt 0 4 19 16 = port →
    s.fld .tribEvt 0 4 20 20 = sub → exec (.replyLeftPort port sub true ago) s = .next (s.sendEvents (2 * port + sub) (s.now - ago)))

/-- Braid time without the root (R97, R99, R100, R106, R112, R114, R340): epochs, time words, holdover. -/
def Obligations.TimeFollows : Prop :=
  (∀ s : State, s.runs → s.time.started < s.epoch → exec .epochStart s = .next s.startEpoch) ∧
  (∀ (epoch : Nat) (s : State), s.runs → epoch ∈ s.weir.live → epoch < s.epoch → s.epochEmpty epoch = true →
    exec (.epochNoLongerLive epoch) s =
      .next ((List.range 4).foldl (fun s t => s.endEpoch t epoch) { s with weir := { s.weir with live := s.weir.live.filter (· ≠ epoch) } })) ∧
  (∀ (t epoch : Nat) (s : State), (∀ z, s.session t = some z → epoch < z.m) → s.endEpoch t epoch = s.epochMarker t epoch) ∧
  (∀ (t epoch : Nat) (z : Session12) (s : State), s.session t = some z → z.m ≤ epoch → (s.capOf t).digests.find? epoch = none →
    s.endEpoch t epoch = s.epochMarker t (epoch - z.m + z.n)) ∧
  (∀ (port : Nat) (w : TimeWord) (s : State), s.runs → (s.brPort port).step = 6 → s.fld .braidPortCfg port 0 2 1 = 0 → w.onAlt = false →
    s.iAmRoot = false → s.parentPort = some port →
    exec (.timeWordReceived port w) s = .next ((s.timed port w).1.parentWord port (s.timed port w).2)) ∧
  (∀ s : State, s.runs → s.time.state = 1 → s.iAmRoot = false → s.time.lastWord + 8192 ≤ s.now →
    let n := { s with time := { s.time with state := 2, holdFrom := s.now } }
    exec .holdoverEntry s = .next (n.event 0x0401 (s.parentPort.getD (match s.firstHop s.device s.rootId with
      | some d => torusPort 0 d.1 d.2 | none => 0xF)) 0xFF s.now).noteDegraded) ∧
  (∀ s : State, s.runs → s.time.state = 2 → s.time.holdFrom + 2 ^ 23 ≤ s.now →
    let n := s.enterAcquire
    exec .holdoverExpiry s = .next ({ n with time := { n.time with expiring := true } }.event 0x0402 0xFFFF 0xFF n.now))

/-- The root of Braid time (R99, R101, R102, R104, R105, R396): its time words, its start, its steering by PTP, and the switch to the alternate. -/
def Obligations.TimeOfRoot : Prop :=
  (∀ (port : Nat) (s : State), s.runs → (s.brPort port).step = 6 →
    (∀ t, s.time.sentAt.find? port = some t → t + 1024 ≤ s.now) →
    ∃ w : TimeWord, w.bt = s.now ∧ w.btFrac < 64 ∧
      w.turn = (match s.time.rx64.find? port with | some rx => (64 * s.now + w.btFrac - rx) % 2 ^ 32 | none => 0) ∧ w.valid = s.time.valid ∧ w.state = s.time.state ∧ w.root = s.rootId ∧ w.wall = s.time.wall ∧
      w.heartbeat = (if s.iAmRoot then (s.time.beat + 1) % 65536 else s.time.beat) ∧
      exec (.timeWordSend port) s = .next { s with
        free := s.free + 1
        time := { s.time with
          beat := w.heartbeat, sentAt := s.time.sentAt.put port s.now, tx64 := s.time.tx64.put port (64 * s.now + w.btFrac)
          words := s.time.words ++ [(port, w)] } }) ∧
  (∀ s : State, s.runs → s.iAmRoot = true → s.time.state = 0 → 6 < s.head.step → s.time.firstUp = none →
    (∀ b < 12, s.fld .braidPortCfg b 0 0 0 = 0) → exec .rootBtStart s = .next ((s.setBt 0).enterLocked)) ∧
  (∀ (t : Nat) (s : State), s.runs → s.iAmRoot = true → s.time.state = 0 → 6 < s.head.step → s.time.firstUp = some t → t + 2 ^ 24 ≤ s.now →
    s.time.heard = [] → exec .rootBtStart s = .next ((s.setBt 0).enterLocked)) ∧
  (∀ s : State, s.runs → s.altEn = true → s.time.onAlt = false → s.iAmRoot = false → s.time.lastBeat + 2 ^ 20 ≤ s.now →
    exec .rootSwitch s = .next s.followAlt ∧ s.followAlt.time.onAlt = true ∧
    (s.device = s.fld .timeCfg 0 0 30 18 → s.time.state = 1 ∨ s.time.state = 2 → s.followAlt.time.state = 1 ∧ s.followAlt.time.isRoot = true)) ∧
  (∀ (port : Nat) (m : PtpMsg) (r : List Nat) (sas : List SecAssoc) (s : State), s.runs → s.portUsed (2 * port) = true →
    (s.port (2 * port)).up = true → s.macsecCheck (2 * port) m.tag = some sas → bit (s.rd .timePtp 0 0) 0 = true → s.time.isRoot = true →
    bits (s.rd .timePtp 0 0) 4 1 = port → bits (s.rd .timePtp 0 0) 6 5 = m.transport → bits (s.rd .timePtp 0 0) 14 7 = m.domain →
    m.kind = .announce r →
    let n := (s.discard (2 * port) 0).setPort (2 * port) { s.port (2 * port) with rxSa := sas }
    exec (.ptpMessage port m) s = .next { n with time := { s.time with ptpMasters := s.time.ptpMasters.put m.source r } }) ∧
  (∀ s : State, s.runs → s.time.isRoot = true →
    exec .ptpLockLoss s = .next { s with time := { s.time with ptpLocked := false, ptpMasters := [] } })

/-- Admission (R132 to R134, R344): the head of a queue is admitted, times out, or is released in a replay session. -/
def Obligations.AdmissionHeads : Prop :=
  (∀ (queue : Nat) (n s : State), s.runs → s.mayServe queue = true → s.admitHead queue = some n →
    exec (.admissionHeadAdmit queue) s = .next (n.headServed queue)) ∧
  (∀ (queue : Nat) (x : QEnt) (l : List QEnt) (s : State), s.runs → s.mayServe queue = true → s.queue queue = x :: l →
    s.pastDeadline x.at_ = true → x.outcome = none → s.pastReplay x = false →
    let n := s.capture x.r rcAdmitTimeout 0
    let m := if x.r.replay then n.tick .cntCapCnt (x.r.tenant * 3 + 2) else n
    exec (.admissionDeadlineExpiry queue) s =
      .next (((m.putQueue queue l).refuseRec x.r x.at_ rcAdmitTimeout 0).headServed queue)) ∧
  (∀ (queue : Nat) (x : QEnt) (l : List QEnt) (n s : State), s.runs → s.queue queue = x :: l → x.r.replay = true →
    s.mayServe queue = true → s.admitHead queue = some n → exec (.replayHeadRelease queue) s = .next (n.headServed queue))

/-- Streams (R141, R143 to R145, R153): elements are issued, counts end, re-arms take effect, reads return, aborts complete. -/
def Obligations.StreamsRun : Prop :=
  (∀ (hub stream pick : Nat) (x : StreamSt) (s : State), s.runs → s.stream? hub stream = some x → x.state = 1 → x.elem < x.desc.count →
    3 ≤ x.desc.kind → s.engineReads hub x.desc.engine < 512 → (x.desc.kind = 3 → s.spillNext hub stream x = true) →
    let addr := x.desc.base + 256 * (if x.desc.kind = 3 then nth (spillBlocks (s.streamSet x) x.replica) x.elem 0 else x.elem)
    let n := s.setStream hub stream { x with elem := x.elem + 1, sent := x.sent + 1 }
    exec (.streamElementIssue hub stream pick) s =
      .next (if placeOf addr = [] then n.readFault hub addr stream (0x6000 + 16 * hub + x.desc.engine)
        else n.fetchLine hub x.desc.engine stream x.elem addr (x.desc.kind == 3 || x.desc.kind == 4))) ∧
  (∀ (hub stream pick rep : Nat) (x : StreamSt) (e : RecEnt) (s : State), s.runs → s.stream? hub stream = some x → x.state = 1 →
    x.elem < x.desc.count → x.desc.kind = 1 → s.ent? hub pick = some e → e.phase = .stage → e.stage = 0 → x.desc.stage = 0 →
    (s.recPipe e).cascade = x.desc.cascade → e.r.tenant = x.tenant →
    s.replicaFor hub e 1 x.desc.cascade 0 (s.recStage e).ensemble = some rep → rep = x.replica →
    exec (.streamElementIssue hub stream pick) s = .next (s.issueStage hub pick e)) ∧
  (∀ (hub engine addr : Nat) (ok : Bool) (r : FetchRead) (s : State), s.runs →
    (s.hub hub).reads.find? (fun r => r.engine == engine && r.addr == addr) = some r →
    let kind := fun (u : Nat × Nat) => match (s.hub hub).streams.find? u.1 with | some x => x.desc.kind | none => 0
    let lines := (s.hub hub).bcache ++ [addr / 256]
    let c := (s.copies hub addr ++ placeOf addr).headD (0, 0)
    (ok = true → exec (.fetchReadComplete hub engine addr ok) s =
      .next (r.uses.foldl (fun s u => s.gotElem hub u.1 u.2) (s.setHub hub { s.hub hub with
        reads := (s.hub hub).reads.erase r
        bcache := if r.uses.any (fun u => kind u == 3 || kind u == 4) then lines.drop (lines.length - 131072) else (s.hub hub).bcache }))) ∧
    (ok = false → exec (.fetchReadComplete hub engine addr ok) s =
      .next ((r.uses.map Prod.fst).dedup.foldl (fun s st => s.readFault hub addr st (0x7000 + c.1))
        ((s.setHub hub { s.hub hub with reads := (s.hub hub).reads.erase r }).sectorCount
          (if r.uses.all (fun u => kind u == 4) then 3 else 1) addr c none)))) ∧
  (∀ (hub stream : Nat) (x : StreamSt) (s : State), s.runs → s.stream? hub stream = some x → x.state = 1 → x.desc.count ≤ x.elem →
    let y : StreamSt := match x.rearm with
      | some (b, c) => x.rearmNow b c
      | none => if x.desc.persist = 0 then { x with state := 0 } else if x.desc.persist = 1 then { x with elem := 0 } else { x with state := 2 }
    let n := s.setStream hub stream y
    exec (.streamCountEnd hub stream) s = .next (if x.desc.semEn then n.semAdd (512 * hub + x.desc.sem) 1 else n)) ∧
  (∀ (hub stream base count : Nat) (n s : State), s.runs → s.rearm hub stream base count = some n →
    exec (.fetchRearm hub stream base count) s = .next n) ∧
  (∀ (hub rec_ : Nat) (e : RecEnt) (s : State), s.runs → s.ent? hub rec_ = some e → e.phase = .stage → 0 < e.stage →
    exec (.stageBufferIssue hub rec_) s = .next (s.issueStage hub rec_ e)) ∧
  (∀ (hub stream : Nat) (x : StreamSt) (s : State), s.runs → s.stream? hub stream = some x → x.state = 3 → x.rearm = none →
    let n := { s with die := { s.die with ins := s.die.ins.filter (fun t => !(t.hub == hub && t.stream == stream && t.gen != x.gen)) } }
    exec (.abortComplete hub stream) s = .next (n.trimBufs.setStream hub stream { x with state := 1 }))

/-- Freezes drain or time out, and Backwater ends a deadlock (R135, R155, R156, R370 to R372). A timeout
with no task to name raises no event: the model's choice of log 105. -/
def Obligations.DrainsEnd : Prop :=
  (∀ (tenant : Nat) (s : State), s.runs → s.frozenAt tenant s.epoch = true → s.drainDue tenant = true →
    (s.freezeOf tenant).drained = false → (s.hwT tenant).drainSwap = none →
    exec (.drainDone tenant) s = .next (s.drainDone tenant)) ∧
  (∀ (tenant n : Nat) (s : State), s.runs → (s.freezeOf tenant).from_ = some n → (s.freezeOf tenant).drained = false →
    (∀ h < 2, h ∉ (s.freezeOf tenant).timedOut ∧ n * s.epochLen + s.rd .weirDrain h 0 ≤ s.now ∧ s.busyTasks tenant h = []) →
    exec (.drainTimeout tenant) s = .next (s.setFreeze tenant { s.freezeOf tenant with timedOut := (s.freezeOf tenant).timedOut ++ [0, 1] })) ∧
  (∀ (hub group m : Nat) (s : State), s.runs → s.fld .bwCfg hub 0 0 0 ≠ 0 →
    2 ^ s.fld .bwCfg hub 0 5 1 ≤ SMap.getD (fun _ => 0) s.slu.bw (32 * hub + group) → s.groupBlocked hub group = true →
    s.youngest hub group = some m → m < 512 →
    let k := 32 * hub + group
    let a := { s with slu := { s.slu with bw := SMap.setD (fun _ => 0) s.slu.bw k 0, snaps := s.slu.snaps.put hub (group + 32 * m + 2 ^ 15) } }
    let b := (a.abortTask hub m .backwater).tick .cntBwAbortCnt hub
    exec (.bwDeadlock hub group) s =
      .next ((b.latch (some (b.groupTenant group)) attnDeadlock).event 0x0D07 hub
        ((b.latch (some (b.groupTenant group)) attnDeadlock).groupTenant group) (detailOf [(1, group), (2, m), (5, 0)])))

/-- Eddy's requests and bodies (R117, R118, R162, R173, R175, R177, R178): a request is queued in order, applied at its fence; a body is joined. -/
def Obligations.EddyServes : Prop :=
  (∀ (q : EddyReq) (x : Nat × EddyReq) (s : State), s.runs → (nth s.eddy.queues (q.part / 6) []).length < 65536 →
    s.eddy.handed.find? (fun x => x.2 = q) = some x →
    let n := { s with eddy := { s.eddy with handed := s.eddy.handed.erase x } }
    n.now < n.fenceAt q → n.homeMismatch q = false → q.part ∉ n.eddy.lost →
    exec (.eddyReq none q) s = .next (n.orderReq q none)) ∧
  (∀ (p : Nat) (q : EddyReq) (s : State), s.runs → (nth s.eddy.queues (q.part / 6) []).length < 65536 → (s.brPort p).step = 6 →
    s.time.state ≠ 0 → s.now < s.fenceAt q → s.homeMismatch q = false → q.part ∉ s.eddy.lost →
    exec (.eddyReq (some p) q) s = .next (s.orderReq q (some p))) ∧
  (∀ (p : Nat) (q : EddyReq) (s : State), s.runs → (nth s.eddy.queues (q.part / 6) []).length < 65536 → (s.brPort p).step = 6 →
    s.time.state ≠ 0 → s.fenceAt q ≤ s.now → exec (.eddyReq (some p) q) s = .next (s.lateReq q)) ∧
  (∀ (hub : Nat) (x : OrderEnt) (s : State), s.runs → firstReq (nth s.eddy.queues hub []) = some x → s.fenceAt x.q ≤ s.now →
    exec (.eddyFenceRelease hub) s =
      .next (State.applyReq { s with eddy := { s.eddy with queues := setNth s.eddy.queues hub ((nth s.eddy.queues hub []).erase x) } } x.q)) ∧
  (∀ (b : SnapBody) (s : State), s.runs → b ∈ s.eddy.back →
    exec (.eddySnap none b) s = .next (State.arriveSnap { s with eddy := { s.eddy with back := s.eddy.back.erase b } } b)) ∧
  (∀ (p : Nat) (b : SnapBody) (s : State), s.runs → (s.brPort p).step = 6 → exec (.eddySnap (some p) b) s = .next (s.arriveSnap b)) ∧
  (∀ (hub ent : Nat) (e : RecEnt) (s : State), s.runs → s.ent? hub ent = some e → e.phase = .snaps →
    e.at_ + s.fence + s.fld .eddyCfg 0 0 15 0 ≤ s.now →
    exec (.snapshotWaitExpiry hub ent) s = .next (if e.late then s.endRec hub ent rcFaultRetry 0xC
      else (s.setEnt hub ent { e with want := [], snaps := givenUp e }).snapsReady hub ent))

/-- Export and import of a tenant's Eddy store (R188 to R190). -/
def Obligations.EddyMoves : Prop :=
  (∀ (c : HwCmd) (l : List HwCmd) (k : ExportKey) (s : State), s.runs → s.firstCmd 0x0030 c l → c.cmd.body.length = 8 →
    let n := s.leaving l
    let t := c.cmd.tenant
    let id := leAt c.cmd.body 0 4
    n.showDrained t = true → n.exportKey? t (leAt c.cmd.body 4 4) = some k → n.eddy.exports.any (fun x => x.tenant == t) = false →
    let m := match n.active t with | some i => i.set | none => {}
    let chunks := n.exportChunks t id ((n.freezeOf t).from_.getD n.epoch) k.no k.id m
    let x : ExportSt := { tenant := t, exportId := id, keyId := k.id, chunks := chunks.length }
    let st := { n with eddy := { n.eddy with exports := n.eddy.exports ++ [x] } }
    exec .exportStore s = .next (State.endCmd c { st := st.armExport t (n.eddyRegion t).1 (n.eddyRegion t).2, data := n.manifest t, more := chunks })) ∧
  (∀ (tenant : Nat) (x : ExportSt) (s : State), s.runs → s.eddy.exports.find? (fun x => x.tenant == tenant) = some x →
    exec (.eddyExportDone tenant) s = .next (State.event
      (({ s with eddy := { s.eddy with exports := s.eddy.exports.filter (fun y => y.tenant != tenant) } } : State).endStreams tenant 6)
      0x0603 tenant tenant (detailOf [(4, x.exportId), (4, x.chunks)]))) ∧
  (∀ (c : HwCmd) (l : List HwCmd) (k : ExportKey) (s : State), s.runs → s.firstCmd 0x0031 c l → c.cmd.body.length = 8 →
    let n := s.leaving l
    let t := c.cmd.tenant
    n.showDrained t = true → n.exportKey? t (leAt c.cmd.body 4 4) = some k → n.eddy.imports.any (fun x => x.tenant == t) = false →
    let x : ImportSt := { tenant := t, exportId := leAt c.cmd.body 0 4, keyId := k.id, keyNo := k.no }
    exec .importBegin s = .next (State.endCmd c { st := (n.clearStore t none).importDone x })) ∧
  (∀ (c : HwCmd) (l : List HwCmd) (x : ImportSt) (s : State), s.runs → s.firstCmd 0x0032 c l → 80 ≤ c.cmd.body.length →
    let n := s.leaving l
    n.eddy.imports.find? (fun x => x.tenant == c.cmd.tenant) = some x →
    Config.openChunk x.keyNo (c.cmd.body.take 64) (c.cmd.body.drop 64) = none →
    exec .importChunk s = .next (State.endCmd c { st := n, code := rcAuthFail, cause := 1 })) ∧
  (∀ (c : HwCmd) (l : List HwCmd) (x : ImportSt) (plain : List Byte) (s : State), s.runs → s.firstCmd 0x0032 c l → 80 ≤ c.cmd.body.length →
    let n := s.leaving l
    let b := c.cmd.body
    let t := c.cmd.tenant
    let cls := leAt b 7 1
    let part := leAt b 6 1
    let k := match n.active t with | some i => (i.set.keyClass cls).getD { slot := 0xFF } | none => { slot := 0xFF }
    let count := leAt b 0x1E 1
    let size := 72 + 8 * slotBytes k.slot
    n.eddy.imports.find? (fun x => x.tenant == t) = some x → Config.openChunk x.keyNo (b.take 64) (b.drop 64) = some plain →
    leAt b 0 4 = 0x58454445 → leAt b 4 1 = 1 → part < 12 → leAt b 8 4 = x.exportId → leAt b 0x18 4 = keyCheck (n.domKey t) →
    leAt b 0x16 2 = n.rd .eddyHomeGen t 0 % 65536 → leAt b 0x1C 1 = k.slot → leAt b 0x1D 1 = k.bucketsLog2 → plain.length = count * size →
    (∀ i < count, leAt plain (i * size) 4 < 2 ^ k.bucketsLog2) → x.taken.contains (12 * cls + part, leAt b 0xC 4) = false →
    let put := fun (m : SMap EBucket) (i : Nat) =>
      m.put (bucketKey t cls part (leAt plain (i * size) 4)) (bucketOfBytes k.slot (slice plain (i * size + 8) (size - 8)))
    let st := { n with eddy := { n.eddy with buckets := (List.range count).foldl put n.eddy.buckets } }
    let y := { x with taken := x.taken ++ [(12 * cls + part, leAt b 0xC 4)]
                      total := if bit (leAt b 0x1F 1) 0 then x.total.put (12 * cls + part) (leAt b 0x20 4) else x.total }
    exec .importChunk s = .next (State.endCmd c { st := st.importDone y }))

/-- The runs of the vector engines (R196, R198, R209, R210, R219): batches come due, start and end; lanes start clear; loops
open and close; a spare joins. -/
def Obligations.VeRunsGo : Prop :=
  (∀ (hub batch : Nat) (b : VeBatch) (s : State), s.runs → (s.veHub hub).batches[batch]? = some b →
    b.opened + s.fld .veCfg hub 0 7 0 ≤ s.hubCycles hub →
    exec (.veBatchWaitExpiry hub batch) s =
      .next (s.setVe hub { s.veHub hub with batches := setNth (s.veHub hub).batches batch { b with due := true } })) ∧
  (∀ (hub engine batch i : Nat) (b : VeBatch) (e : RecEnt) (es : List (Nat × RecEnt)) (s : State), s.runs →
    (s.veHub hub).batches[batch]? = some b → (s.engine hub engine).state = 0 → (s.veHub hub).runs.find? engine = none →
    s.nextBatch hub b = true → s.avoided hub engine b = false →
    (b.recs.take 32).filterMap (fun i => (s.ent? hub i).map (fun e => (i, e))) = (i, e) :: es →
    let p := ((if b.kind = 1 then (s.recSet e).featProg b.prog else (s.recSet e).finProg b.prog).getD {} : VProg)
    let run : VeRun := { tenant := b.tenant, kind := b.kind, prog := p, recs := i :: es.map (fun x => x.1),
                         lanes := ((i, e) :: es).map (fun x => s.startLane x.2 p (b.kind == 2)), cycles := 4,
                         half := b.half }
    let n := s.setVe hub { s.veHub hub with batches := (s.veHub hub).batches.eraseIdx batch, runs := (s.veHub hub).runs.put engine run }
    exec (.veBatchLaunch hub engine batch) s =
      .next (((i, e) :: es).foldl (fun s x => s.setEnt hub x.1 { x.2 with phase := if b.kind = 1 then .featRun else .finRun }) n)) ∧
  (∀ (hub engine : Nat) (r : VeRun) (s : State), s.runs → (s.veHub hub).runs.find? engine = some r → r.prog.code.length ≤ r.pc →
    let n := (s.setVe hub { s.veHub hub with runs := (s.veHub hub).runs.del engine }).countRun hub engine r
    exec (.veBatchComplete hub engine) s = .next ((r.recs.zip r.lanes).foldl (fun s x => s.deliver hub x.1 r x.2) n)) ∧
  (∀ (hub engine v : Nat) (s : State), s.runs → (s.engine hub engine).loading = some v →
    let n := s.setEngine hub engine { s.engine hub engine with state := 0, loading := none, held := some v }
    exec (.veSpareIn hub engine) s = .next (if (List.range 4).any s.bundleBad = true then s.markLasting (0x5000 + 34 * hub + engine) 2
      else (n.event 0x0701 (34 * hub + engine) 0xFF (detailOf [(2, 34 * hub + v), (6, 0)])).noteDegraded)) ∧
  (∀ (hub engine : Nat) (r : VeRun) (s : State), s.runs → s.runAt hub engine 0x02 r →
    let fr : LoopFrame := { start := r.pc + 1, i := 0, count := r.ins.imm % 4096 + 1, bstride := r.ins.imm / 2 ^ 12 % 1024
                            istride := r.ins.imm / 2 ^ 22 % 256 }
    exec (.veLoop hub engine) s = .next (s.ranTo hub engine { r with pc := r.pc + 1, cycles := r.cycles + 1, loops := fr :: r.loops })) ∧
  (∀ (hub engine : Nat) (r : VeRun) (fr : LoopFrame) (rest : List LoopFrame) (s : State), s.runs → s.runAt hub engine 0x03 r →
    r.loops = fr :: rest →
    exec (.veEndl hub engine) s = .next (s.ranTo hub engine (
      if fr.i + 1 < fr.count then { r with pc := fr.start, loops := { fr with i := fr.i + 1 } :: rest }
      else { r with pc := r.pc + 1, loops := rest }))) ∧
  carriesOut .veNop 0x00 (fun _ _ l => l) ∧
  (∀ (e : RecEnt) (p : VProg) (finish : Bool) (s : State),
      let l := s.startLane e p finish
      let ft := (s.recSet e).ftable
      (∀ i : Nat, 1 ≤ i → i ≤ 31 → l.reg i = (0, false)) ∧ (∀ i : Nat, 1 ≤ i → i ≤ 7 → l.pred i = false) ∧ l.flags = 0 ∧
      (finish = false → ∀ i : Nat, i < 16 → nth l.carry i (1, true) = (0, false)) ∧
      (finish = false → bit p.flags 0 = false ∨ e.keys ≠ [] → l.feats = List.replicate ft.length (0, true)) ∧
      (finish = false → bit p.flags 0 = true → e.keys = [] → ∀ f : Nat, f < ft.length → nth l.feats f (0, true) =
        (leAt e.r.payload (featOffset ft f) (featWidth (nth ft f 0)), bit (leAt e.r.payload (featBytes ft + f / 8) 1) (f % 8))))

/-- The integer, logical and float instructions of the vector engines are carried out in every lane whose guard holds (R200, R206, R207). -/
def Obligations.VeArithmetic : Prop :=
  carriesOut .veAdd 0x10 (fun _ i l => laneBin opAdd i l) ∧ carriesOut .veSub 0x11 (fun _ i l => laneBin opSub i l) ∧
  carriesOut .veAdds 0x12 (fun _ i l => laneBin opAdds i l) ∧ carriesOut .veSubs 0x13 (fun _ i l => laneBin opSubs i l) ∧
  carriesOut .veAddus 0x14 (fun _ i l => laneBin opAddus i l) ∧ carriesOut .veSubus 0x15 (fun _ i l => laneBin opSubus i l) ∧
  carriesOut .veMul 0x16 (fun _ i l => laneBin opMul i l) ∧ carriesOut .veMulhu 0x17 (fun _ i l => laneBin opMulhu i l) ∧
  carriesOut .veMulhs 0x18 (fun _ i l => laneBin opMulhs i l) ∧ carriesOut .veMins 0x19 (fun _ i l => laneBin opMins i l) ∧
  carriesOut .veMaxs 0x1A (fun _ i l => laneBin opMaxs i l) ∧ carriesOut .veMinu 0x1B (fun _ i l => laneBin opMinu i l) ∧
  carriesOut .veMaxu 0x1C (fun _ i l => laneBin opMaxu i l) ∧ carriesOut .veAbs 0x1D (fun _ i l => laneUn opAbs i l) ∧
  carriesOut .veDivu 0x1E (fun _ i l => laneBin opDivu i l) ∧ carriesOut .veDivs 0x1F (fun _ i l => laneBin opDivs i l) ∧
  carriesOut .veAnd 0x20 (fun _ i l => laneBin opAnd i l) ∧ carriesOut .veOr 0x21 (fun _ i l => laneBin opOr i l) ∧
  carriesOut .veXor 0x22 (fun _ i l => laneBin opXor i l) ∧ carriesOut .veAndn 0x23 (fun _ i l => laneBin opAndn i l) ∧
  carriesOut .veShl 0x24 (fun _ i l => laneBin opShl i l) ∧ carriesOut .veShr 0x25 (fun _ i l => laneBin opShr i l) ∧
  carriesOut .veSar 0x26 (fun _ i l => laneBin opSar i l) ∧ carriesOut .veBfx 0x27 (fun _ i l => laneUn (opBfx i) i l) ∧
  carriesOut .veBfi 0x28 (fun _ i l => laneBfi i l) ∧ carriesOut .vePopc 0x29 (fun _ i l => laneUn opPopc i l) ∧
  carriesOut .veClz 0x2A (fun _ i l => laneUn opClz i l) ∧
  carriesOut .veFadd 0x30 (fun _ i l => laneBin fAdd i l) ∧ carriesOut .veFsub 0x31 (fun _ i l => laneBin fSub i l) ∧
  carriesOut .veFmul 0x32 (fun _ i l => laneBin fMul i l) ∧ carriesOut .veFmin 0x33 (fun _ i l => laneBin (fun a b => (fMin a b, 0)) i l) ∧
  carriesOut .veFmax 0x34 (fun _ i l => laneBin (fun a b => (fMax a b, 0)) i l) ∧
  carriesOut .veFabs 0x35 (fun _ i l => laneUn (fun a => (fAbs a, 0)) i l) ∧
  carriesOut .veFneg 0x36 (fun _ i l => laneUn (fun a => (fNegate a, 0)) i l) ∧ carriesOut .veFdiv 0x37 (fun _ i l => laneBin fDiv i l) ∧
  carriesOut .veFsqrt 0x38 (fun _ i l => laneUn fSqrt i l) ∧ carriesOut .veFrcp 0x39 (fun _ i l => laneUn fRcp i l) ∧
  carriesOut .veFexp2 0x3A (fun _ i l => laneUn fExp2 i l) ∧ carriesOut .veFlog2 0x3B (fun _ i l => laneUn fLog2 i l) ∧
  carriesOut .veCvtif 0x3C (fun _ i l => laneUn (fun a => (cvtIF i.m a, 0)) i l) ∧
  carriesOut .veCvtfi 0x3D (fun _ i l => laneUn (cvtFI i.m) i l)

/-- The moves, selections, compares, tables, loads and stores of the vector engines (R199 to R203, R206, R208, R212, R213). -/
def Obligations.VeLaneOps : Prop :=
  carriesOut .veMovi 0x2B (fun _ i l => l.setReg i.d (BitVec.ofNat 32 i.imm, false)) ∧
  carriesOut .veMov 0x2C (fun _ i l => l.setReg i.d (l.reg i.a)) ∧
  carriesOut .veClrm 0x2D (fun _ i l => l.setReg i.d ((l.reg i.a).1, false)) ∧
  carriesOut .veSetm 0x2E (fun _ i l => l.setReg i.d ((l.reg i.a).1, true)) ∧
  carriesOut .veSel 0x2F (fun _ i l => l.setReg i.d (if l.pred (i.m % 8) != bit i.m 3 then l.reg i.a else l.opB i)) ∧
  carriesOut .veCmp 0x40 (fun _ i l => laneCmp i l) ∧ carriesOut .vePlog 0x41 (fun _ i l => lanePlog i l) ∧
  carriesOut .vePwl 0x48 (fun _ i l => laneUn (opPwl l.const i.imm) i l) ∧
  carriesOut .veBkt 0x49 (fun _ i l => laneUn (opBkt l.const i.imm (i.m % 4)) i l) ∧
  carriesOut .veLd 0x50 (fun fr i l => laneLd fr i l) ∧
  carriesOut .veStf 0x58 (fun fr i l => l.setFeat (i.imm % 4096 + idxTerm fr i) (l.reg i.a).1.toNat (l.reg i.a).2) ∧
  carriesOut .veStf2 0x59 (fun fr i l =>
    (l.setFeat (i.imm % 4096 + idxTerm fr i) ((l.reg i.a).1.toNat % 65536) (l.reg i.a).2).setFeat
      (i.imm % 4096 + idxTerm fr i + 1) ((l.reg i.a).1.toNat / 65536) (l.reg i.a).2) ∧
  carriesOut .veMissf 0x5A (fun fr i l => l.setFeat (i.imm % 4096 + idxTerm fr i) 0 true) ∧
  carriesOut .veStc 0x5B (fun fr i l => { l with carry := setNth l.carry (i.imm % 16 + idxTerm fr i) (l.reg i.a) }) ∧
  carriesOut .veStr 0x5C (fun fr i l => { l with res := setNth l.res (i.imm % 64 + idxTerm fr i) (l.reg i.a).1 }) ∧
  carriesOut .veRdf 0x5D (fun _ i l =>
    let t := l.setReg i.d (BitVec.ofNat 32 l.flags, false)
    if bit i.m 0 then { t with flags := 0 } else t)

/-- The integer results of Table 7.6 as 32-bit arithmetic. -/
def Obligations.VeIntegerResults : Prop :=
  ∀ a b : Word,
    opAdd a.toNat b.toNat = ((a + b).toNat, 0) ∧ opSub a.toNat b.toNat = ((a - b).toNat, 0) ∧
    (opAdds a.toNat b.toNat).1 = (BitVec.ofInt 32 (max (-2147483648) (min 2147483647 (a.toInt + b.toInt)))).toNat ∧
    ((opAdds a.toNat b.toNat).2 = 0 ↔ (a + b).toInt = a.toInt + b.toInt) ∧
    (opSubs a.toNat b.toNat).1 = (BitVec.ofInt 32 (max (-2147483648) (min 2147483647 (a.toInt - b.toInt)))).toNat ∧
    ((opSubs a.toNat b.toNat).2 = 0 ↔ (a - b).toInt = a.toInt - b.toInt) ∧
    (opAddus a.toNat b.toNat).1 = min 4294967295 (a.toNat + b.toNat) ∧ (opSubus a.toNat b.toNat).1 = a.toNat - b.toNat ∧
    opMul a.toNat b.toNat = ((a * b).toNat, 0) ∧ (opMulhu a.toNat b.toNat).1 = a.toNat * b.toNat / 2 ^ 32 ∧
    ((opMulhs a.toNat b.toNat).1 : Int) = (a.toInt * b.toInt / 2 ^ 32) % 2 ^ 32 ∧
    (opMins a.toNat b.toNat).1 = (if a.slt b then a else b).toNat ∧ (opMaxs a.toNat b.toNat).1 = (if a.slt b then b else a).toNat ∧
    (opAbs a.toNat).1 = (if a = 0x80000000#32 then 0x7FFFFFFF#32 else a.abs).toNat ∧
    opDivu a.toNat b.toNat = (if b = 0 then (0, 4) else ((a / b).toNat, 0)) ∧
    (opDivs a.toNat b.toNat).1 =
      (if a = 0x80000000#32 ∧ b = 0xFFFFFFFF#32 then 0x7FFFFFFF#32 else a.sdiv b).toNat ∧
    (opAnd a.toNat b.toNat).1 = (a &&& b).toNat ∧ (opOr a.toNat b.toNat).1 = (a ||| b).toNat ∧ (opXor a.toNat b.toNat).1 = (a ^^^ b).toNat ∧
    (opAndn a.toNat b.toNat).1 = (a &&& ~~~b).toNat ∧ (opShl a.toNat b.toNat).1 = (a <<< (b.toNat % 32)).toNat ∧
    (opShr a.toNat b.toNat).1 = (a >>> (b.toNat % 32)).toNat ∧ (opSar a.toNat b.toNat).1 = (a.sshiftRight (b.toNat % 32)).toNat

/-- EVAL on a tile and on a match unit (R227 to R229, R234, R236, R262, R285, R290): one instruction with its entries at 0, its vector in the record
buffer, the on-chip trees or selectors that have reached the leaf path summed into it, spilled trees waiting but for the one in the window; while bank,
accumulator or record buffer entries lack, nothing is taken. -/
def Obligations.EvalRuns : Prop :=
  (∀ (die unit hub ent phys acc : Nat) (opt : Option Nat) (order : List Nat) (ups : List (Nat × Nat × MuEntry)) (x y : DieRec) (e : RecEnt)
    (run : StageRun) (s w : State), s.runs → s.dieRec? die hub ent opt = some x → s.ent? hub ent = some e → e.runOf opt = some run →
    let c := s.evalCtx e x.ens
    s.physOf c.m die unit = some phys → unit ∈ x.todo → s.replicaOk c.m x.ens run.replica = true → s.takeBank x = some y →
    s.accFit die phys (x.sums.length * accWidth x.path) = some acc → s.vectorIn x c e run.replica unit phys = some w →
    let r := c.runIn die unit y.ens
    let sp := fun (i : Nat) => decide (unit < 66) && (dirAt (c.m.slotImg (66 * die + unit)) i).spill
    let chip := r.indices.filter (fun i => !sp i)
    let ready := laneOrder c.lock (if unit < 66 then w.pairsAhead die phys (fun _ => false) else []) r.first chip order
    let set := (w.recInst e).getD {}
    let hosted := if unit < 66 then (w.tile die phys).hosted == some unit else (w.mu die (phys - 66)).hosted == some (unit - 66)
    let t : TileIns := { die := die, unit := unit, phys := phys, hub := hub, ent := ent, stream := y.stream, gen := y.gen, opt := opt, ens := y.ens,
                         path := y.path, half := if set.full then 0 else if hosted then 1 - set.half else set.half,
                         rbuf := (w.bufFit die phys hub ent 0).getD 0, accBase := acc, acc := List.replicate y.sums.length 0, dirFirst := r.first,
                         dirCount := r.count, todo := chip.filter (fun i => !ready.contains i), spills := r.indices.filter sp }
    let a := w.setDieRec { y with todo := y.todo.filter (· ≠ unit), expected := y.expected + 1, taken := true }
    let n := { a with die := { a.die with ins := a.die.ins ++ [t] } }
    let q := n.evalTrees c t ready
    (unit < 66 → q.1.windowTree c q.2 = none → exec (.eval die unit hub ent opt order ups) s = .next (q.1.putIns q.2)) ∧
    (∀ i : Nat, unit < 66 → q.1.windowTree c q.2 = some i →
      exec (.eval die unit hub ent opt order ups) s =
        .next ((q.1.evalTree c q.2 i).1.putIns { (q.1.evalTree c q.2 i).2 with spills := (q.1.evalTree c q.2 i).2.spills.filter (· ≠ i) })) ∧
    (∀ (m : State) (u : TileIns), 66 ≤ unit → n.evalSels c ups t ready = (m, some u) →
      exec (.eval die unit hub ent opt order ups) s = .next (m.putIns u).trimBufs) ∧
    (∀ m : State, 66 ≤ unit → n.evalSels c ups t ready = (m, none) → exec (.eval die unit hub ent opt order ups) s = .next m)) ∧
  (∀ (die unit hub ent phys : Nat) (opt : Option Nat) (order : List Nat) (ups : List (Nat × Nat × MuEntry)) (x : DieRec) (e : RecEnt)
    (run : StageRun) (s : State), s.runs → s.dieRec? die hub ent opt = some x → s.ent? hub ent = some e → e.runOf opt = some run →
    s.physOf (s.evalCtx e x.ens).m die unit = some phys →
    s.takeBank x = none ∨ s.accFit die phys (x.sums.length * accWidth x.path) = none ∨
      s.vectorIn x (s.evalCtx e x.ens) e run.replica unit phys = none →
    exec (.eval die unit hub ent opt order ups) s = .next s)

/-- The end of an instruction, PRELOAD, DRAIN and CLEAR (R227, R228, R234, R286 to R288, R290, R291): sums pass to the Watersmeet
once each, and what an instruction held goes back. -/
def Obligations.DieSumsPass : Prop :=
  (∀ (die unit hub ent : Nat) (opt : Option Nat) (t : TileIns) (e : RecEnt) (s : State), s.runs → unit < 66 →
    s.die.ins.find? (fun t => t.is die unit hub ent opt && !t.pool && !t.done) = some t → s.ent? hub ent = some e → s.genNow t = true →
    t.spills = [] → t.pooled = 0 →
    contextFree (s.evalCtx e t.ens).lock (s.pairsAhead die t.phys (fun x => x == t)) (t.todo.map (· - t.dirFirst)) = true →
    let r := s.evalTrees (s.evalCtx e t.ens) t t.todo
    exec (.evalComplete die unit hub ent opt) s = .next (r.1.putIns { r.2 with todo := [], done := true }).trimBufs) ∧
  (∀ (die unit hub ent : Nat) (opt : Option Nat) (t : TileIns) (e : RecEnt) (s : State), s.runs →
    s.die.ins.find? (fun t => t.is die unit hub ent opt && !t.pool && !t.done) = some t → s.ent? hub ent = some e → s.genNow t = false →
    exec (.evalComplete die unit hub ent opt) s =
      .next (s.putIns { t with todo := [], spills := [], pooled := 0, done := true }).trimBufs) ∧
  (∀ (die unit hub ent : Nat) (opt : Option Nat) (t u : TileIns) (e : RecEnt) (s m : State), s.runs → 66 ≤ unit →
    s.die.ins.find? (fun t => t.is die unit hub ent opt && !t.pool && !t.done) = some t → s.ent? hub ent = some e → s.genNow t = true →
    t.spills = [] → t.pooled = 0 → s.evalSels (s.evalCtx e t.ens) [] t t.todo = (m, some u) →
    exec (.evalComplete die unit hub ent opt) s = .next (m.putIns { u with todo := [], done := true }).trimBufs) ∧
  (∀ (die hub ent : Nat) (opt : Option Nat) (x y : DieRec) (e : RecEnt) (run : StageRun) (s : State), s.runs →
    s.dieRec? die hub ent opt = some x → s.ent? hub ent = some e → e.runOf opt = some run → x.needPre = true →
    s.takeBank x = some y → exec (.preload die hub ent opt) s = .next (s.sendPartial { y with needPre := false, sums := run.pre })) ∧
  (∀ (die unit hub ent : Nat) (opt : Option Nat) (t : TileIns) (x : DieRec) (s : State), s.runs →
    s.die.ins.find? (fun t => t.is die unit hub ent opt && t.done) = some t → s.dieRec? die hub ent opt = some x → x.gen = t.gen →
    x.needPre = false →
    let left := dropFirst (fun t => t.is die unit hub ent opt && t.done) s.die.ins
    let n := { s with die := { s.die with ins := if t.pool then left.map (fun (y : TileIns) =>
      if y.is die unit hub ent opt && !y.pool && y.gen == t.gen then ({ y with pooled := y.pooled - 1 } : TileIns) else y) else left } }
    exec (.drain die unit hub ent opt) s = .next ((n.count .cntWsmCnt (die * 2) (t.acc.length * accWidth t.path)).sendPartial
      { x with expected := x.expected - 1, sums := List.zipWith (fun a b => addSum t.path a b) x.sums t.acc })) ∧
  (∀ (die unit hub ent : Nat) (opt : Option Nat) (t : TileIns) (x : DieRec) (s : State), s.runs →
    s.die.ins.find? (fun t => t.is die unit hub ent opt && t.done) = some t → s.dieRec? die hub ent opt = some x → x.gen ≠ t.gen →
    let n := { s with die := { s.die with ins := dropFirst (fun t => t.is die unit hub ent opt && t.done) s.die.ins } }
    exec (.drain die unit hub ent opt) s = .next (n.count .cntWsmCnt (die * 2) (t.acc.length * accWidth t.path))) ∧
  (∀ (die unit hub ent : Nat) (opt : Option Nat) (s : State), s.runs →
    let old := fun (t : TileIns) => t.is die unit hub ent opt && (match s.stream? hub t.stream with | some x => x.gen != t.gen | none => true)
    exec (.clear die unit hub ent opt) s =
      .next ({ s with die := { s.die with ins := dropFirst old s.die.ins } } : State).trimBufs)

/-- Pooled trees, spill windows, and the return of a die's sums to a stage (R235, R243, R292, R293). -/
def Obligations.DiesReturn : Prop :=
  (∀ (die tile owner hub ent first count acc : Nat) (opt : Option Nat) (t : TileIns) (x : DieRec) (e : RecEnt) (sl : Nat) (s : State), s.runs →
    s.die.ins.find? (fun t => t.die == die && t.phys == owner && t.hub == hub && t.ent == ent && t.opt == opt && !t.pool && !t.todo.isEmpty) = some t →
    s.ent? hub ent = some e → s.dieRec? die hub ent opt = some x → x.gen = t.gen → s.genNow t = true → e.lock = false → s.fld .tileDieCfg die 0 0 0 ≠ 0 →
    (s.tile die tile).state = 0 → (s.tile die tile).resetting = false → (s.tile die tile).held = some sl →
    ((s.evalCtx e t.ens).m.slots.find? (66 * die + sl)).isSome = true →
    s.die.ins.any (fun x => x.die == die && x.phys == tile && !(x.todo.isEmpty && x.spills.isEmpty)) = false →
    (∀ p < 66, s.pendingPairs die p t < s.pendingPairs die owner t ∨ (s.pendingPairs die p t = s.pendingPairs die owner t ∧ owner ≤ p)) →
    (t.todo.drop first).take (min count 32) ≠ [] → tile ≠ owner → t.unit < 66 →
    s.accFit die tile (t.acc.length * accWidth t.path) = some acc →
    let take := (t.todo.drop first).take (min count 32)
    let n := s.putIns { t with todo := t.todo.filter (fun i => !take.contains i), pooled := t.pooled + 1 }
    let p : TileIns := { t with phys := tile, accBase := acc, acc := List.replicate t.acc.length 0, todo := [], spills := [], pool := true, pooled := 0, done := true }
    let r := n.evalTrees (s.evalCtx e t.ens) p take
    let m := r.1.setDieRec { x with expected := x.expected + 1 }
    exec (.poolUnitTake die tile owner hub ent opt first count) s = .next { m with die := { m.die with ins := m.die.ins ++ [r.2] } }) ∧
  (∀ (die unit idx h st : Nat) (x : StreamSt) (s : State), s.runs → s.filledWindow die unit idx = some (h, st, x) →
    let m := s.streamSet x
    let n := s.setStream h st { x with win := { pos := (x.win.pos + 1) % max 1 (spillTrees m x.replica).length, got := [], cur := some idx } }
    exec (.spillWindowFilled die unit idx) s = .next ((n.meetSpill idx (n.die.ins.filter (fun t =>
      m.homeSlot (66 * t.die + t.unit) == x.replica && !t.pool && t.spills.contains idx && n.ofSet x t.hub t.ent))).trimBufs)) ∧
  (∀ (die hub : Nat) (p : DiePart) (e : RecEnt) (x : StreamSt) (s : State), s.runs →
    s.die.parts.find? (fun p => p.die == die && p.hub == hub) = some p →
    let n := { s with die := { s.die with parts := s.die.parts.erase p } }
    n.ent? hub p.ent = some e → n.stream? hub p.stream = some x → p.opt = none → x.gen = p.gen → e.run.gen = p.gen → e.run.stream = p.stream →
    e.run.issued = true → die ∈ e.run.left →
    let run := { e.run with left := e.run.left.erase die, sums := List.zipWith (fun a b => addSum e.run.path a b) e.run.sums p.sums }
    let en := ((n.recSet e).ensemble run.ens).getD {}
    let o := readouts en run.path run.sums
    exec (.diePartialReturn die hub) s = .next (if run.left.isEmpty then
        ((n.count .cntAccCnt (hub * 2) o.sats).count .cntAccCnt (hub * 2 + 1) o.clamps).stageDone hub p.ent { e with run := run } en o
      else n.setEnt hub p.ent { e with run := run }).pumpPartials)

/-- Rule searches and the scrub of match units (R259, R263, R264, R266, R271): a search ends with the winner of its parts or the default. -/
def Obligations.RulesSearched : Prop :=
  (∀ (hub ent slot r : Nat) (ups : List (Nat × Nat × MuEntry)) (x : SearchSt) (e f : RecEnt) (parts : List (Nat × Nat × MuEntry)) (s n : State),
    s.runs → s.ent? hub ent = some e → e.searches.find? (fun x => x.slot == slot && x.issued && !x.done) = some x →
    let m := s.recSet e
    let inst := (s.recInst e).getD {}
    (∃ k < m.tableReplicas x.table, s.tableLost m x.table k = false) → s.searchReplica e m x = some r →
    s.ruleRoom m hub ent (ceilDiv e.vec.length 256) (m.tableUnits x.table r) = true →
    let w := s.setEnt hub ent { e with searches := e.searches.map (fun q => if q.slot = slot then { x with replica := r } else q) }
    w.searchParts e m inst.units x.table (inst.editCountAt x.table (s.epochOf e.r.key.stamp) % 2) ups (m.tableUnits x.table r) [] = (n, some parts) →
    n.ent? hub ent = some f →
    let y : SearchSt := match combineParts parts with
      | some (a, w) => { x with done := true, hit := true, value := w.result % 2 ^ 32, addr := a, replica := r }
      | none => { x with done := true, hit := false, value := ((m.ruleTable x.table).getD {}).dflt, addr := 2 ^ 32 - 1, replica := r }
    exec (.ruleSearch hub ent slot ups) s =
      .next ((n.setEnt hub ent { f with searches := f.searches.map (fun q => if q.slot = slot then y else q) }).trimBufs.finishReady hub ent)) ∧
  (∀ (hub ent slot : Nat) (ups : List (Nat × Nat × MuEntry)) (x : SearchSt) (e : RecEnt) (s : State), s.runs → s.ent? hub ent = some e →
    e.searches.find? (fun x => x.slot == slot && x.issued && !x.done) = some x →
    (∀ k < (s.recSet e).tableReplicas x.table, s.tableLost (s.recSet e) x.table k = true) →
    exec (.ruleSearch hub ent slot ups) s = .next (s.endRec hub ent rcFaultRetry 2)) ∧
  (∀ (die unit : Nat) (upset : Option MuEntry) (s : State), s.runs → unit < 9 → (s.mu die unit).state ≠ 3 →
    (s.mu die unit).resetting = false →
    let a := (s.mu die unit).scrub
    let n := s.setMu die unit { s.mu die unit with scrub := (a + 1) % 8192 }
    let k := n.tick .cntMuCnt ((9 * die + unit) * 5 + 3)
    exec (.muScrubCompare die unit upset) s = .next (
      if upset = none ∨ upset = some (n.copyRow die unit a) then n
      else (k.event 0x0901 (9 * die + unit) (k.dieOwner die) (detailOf [(2, a), (6, k.now)])).countErr (0x2000 + 9 * die + unit) true))

/-- Spares and remaps of tiles and match units come into service (R248, R249, R274, R275, R486). -/
def Obligations.SparesServe : Prop :=
  (∀ (die tile sl : Nat) (s : State), s.runs → (s.tile die tile).loading = some sl → (s.tile die tile).state = 2 →
    s.bundleBad (s.dieOwner die) = false →
    let u := s.tile die tile
    let n := s.setTile die tile { u with state := 0, held := some sl, loading := none }
    exec (.tileSpareLoaded die tile) s = .next (n.event 0x0801
      (66 * die + tile) (n.dieOwner die) (detailOf [(2, 66 * die + sl), (2, 66 * die + u.failed), (4, sat32 (n.now - u.since))])).noteDegraded) ∧
  (∀ (die tile sl : Nat) (s : State), s.runs → (s.tile die tile).loading = some sl → (s.tile die tile).state = 0 →
    s.tileCanHost die tile = true →
    let u := s.tile die tile
    let n := s.setTile die tile { u with hosted := some sl, loading := none }
    exec (.tileSlotRemapped die tile) s = .next (n.event 0x0802
      (66 * die + tile) (n.dieOwner die) (detailOf [(2, 66 * die + sl), (2, 66 * die + u.failed), (4, sat32 (n.now - u.since))])).noteDegraded) ∧
  (∀ (die unit l : Nat) (s : State), s.runs → (s.mu die unit).loading = some l → (s.mu die unit).state = 2 → s.bundleBad (s.dieOwner die) = false →
    let u := s.mu die unit
    let h := s.hwT (s.dieOwner die)
    let n := (h.active.toList ++ h.old.toList ++ h.shadow.toList).foldl (fun s i => s.countWrites die unit l i.units)
      (s.setMu die unit { u with state := 0, held := some l, loading := none })
    exec (.muSpareLoaded die unit) s = .next (n.event 0x0903
      (9 * die + unit) (n.dieOwner die) (detailOf [(2, 9 * die + u.failed), (1, l), (1, 0), (4, sat32 (n.now - u.since))])).noteDegraded) ∧
  (∀ (die unit l : Nat) (s : State), s.runs → (s.mu die unit).loading = some l → (s.mu die unit).state = 0 →
    s.muCanHost die unit = true →
    let u := s.mu die unit
    let a := s.setMu die unit { u with hosted := some l, loading := none }
    let o := a.dieOwner die
    let n := (a.active o).toList.foldl (fun s i => (s.setHwT o { s.hwT o with active := some { i with rate := { i.rate with
      hosts := i.rate.hosts ++ u.held.toList.map (fun k => (9 * die + l, 9 * die + k)) } } }).countWrites die unit l i.units) a
    exec (.muRemapped die unit) s = .next (n.event 0x0904
      (9 * die + unit) (n.dieOwner die) (detailOf [(2, 9 * die + u.failed), (1, l), (1, 0), (4, sat32 (n.now - u.since))])).noteDegraded)

/-- A rule edit and a cap commit are accepted as launches, and an edit settles once its target has passed (R121, R268, R269, R319, R428). -/
def Obligations.SetsChange : Prop :=
  (∀ (c : HwCmd) (l : List HwCmd) (i j : SetInst) (w v : State) (s : State), s.runs → s.firstCmd 0x0014 c l →
    let n := s.leaving l
    let b := c.cmd.body
    let table := leAt b 8 1
    let a := n.launchOf c.cmd 5
    let count := i.editCount table + 1
    80 ≤ b.length → (b.length - 16) % 64 = 0 → (b.length - 16) / 64 ≤ 112 → leAt b 9 3 = 0 → n.launchRefused c 5 = none → changeBars n c.cmd = none →
    n.active c.cmd.tenant = some i → i.openEdit table = none → (i.set.ruleTable table).isSome = true → leAt b 12 4 = i.editCount table →
    n.editWrites i table (count % 2) (editEntries b) 0 = .ok (w, j) → n.journalAppend a = some v →
    let x : SetChange := { kind := 5, table := table, target := a.named, due := a.target, count := count, body := b, entries := editEntries b }
    let m := w.setActive c.cmd.tenant { j with changes := insertChange x j.changes }
    exec .ruleEdit s = .next (State.endCmd c { st := ((m.journalAppend a).getD m).addLaunch a true })) ∧
  (∀ (tenant table : Nat) (i : SetInst) (c : SetChange) (s : State), s.runs → s.active tenant = some i → i.openEdit table = some c →
    s.passed c.due = true →
    let r := c.entries.foldl (fun a e => a.1.writePart a.2 table e.part (fun m => settleEntry m e.addr (c.count % 2))) (s, i)
    let j := { r.2 with editCounts := r.2.editCounts.put table c.count
                        changes := r.2.changes.map (fun d => if d = c then { c with done := true } else d) }
    let l := (j.set.partUnits table 0).headD 0
    let u := match s.servingUnits j.set l with | p :: _ => 9 * (l / 9) + p | [] => l
    let n := (r.1.setActive tenant j).journalApplied tenant c.body
    exec (.ruleEditSettle tenant table) s =
      .next (n.event 0x0902 u tenant (detailOf [(1, table), (3, 0), (4, c.count)]))) ∧
  (∀ (c : HwCmd) (l : List HwCmd) (i : SetInst) (w : State) (s : State), s.runs → s.firstCmd 0x0015 c l →
    let n := s.leaving l
    let b := c.cmd.body
    let a := n.launchOf c.cmd 6
    24 ≤ b.length → b.length % 8 = 0 → (b.length - 16) / 8 ≤ 1016 → leAt b 12 4 = 0 → n.launchRefused c 6 = none → changeBars n c.cmd = none →
    n.active c.cmd.tenant = some i → leAt b 8 4 = i.commits → (∀ e ∈ commitEntries b, commitOk i.set e = true) → n.journalAppend a = some w →
    let x : SetChange := { kind := 6, target := a.named, due := a.target, count := i.commits + 1, body := b,
                           caps := (commitEntries b).map (fun e => (e.1, e.2.2)) }
    let m := w.setActive c.cmd.tenant { i with changes := insertChange x i.changes }
    exec .capCommit s = .next (State.endCmd c { st := m.addLaunch a true }))

/-- Settlement (R310, R316, R317, R322): an epoch's records are settled in order when it opens, late ones singly, and it closes. -/
def Obligations.EpochsSettle : Prop :=
  (∀ (tenant epoch : Nat) (s : State), s.runs → s.settleOpenAt epoch ≤ s.now → s.now < s.settleCloseAt epoch → s.settlement? tenant epoch = none →
    tenant < 4 →
    let mine := fun (x : SetlRec) => x.tenant == tenant && x.epoch == epoch
    let late := s.dist.waiting.filter (fun x => mine x && x.late)
    let o := settleOrdered ((s.settleInst tenant epoch).capAt (s.origEpoch tenant epoch)) s.countSide (s.settleCycles epoch)
      (s.dist.waiting.filter (fun x => mine x && !x.late))
    let x : Settlement := { tenant := tenant, epoch := epoch, bank := o.bank, recs := o.recs, overrun := o.overrun, overrun1 := o.overrun1,
                            endAt := [s.hubCycles 0 + o.cycles, s.hubCycles 1 + o.cycles], late := late, lateCount := late.length }
    exec (.settlementOpen tenant epoch) s =
      .next { s with dist := { s.dist with waiting := s.dist.waiting.filter (fun x => !mine x), open_ := s.dist.open_ ++ [x] } }) ∧
  (∀ (tenant epoch : Nat) (x : Settlement) (s : State), s.runs → s.settlement? tenant epoch = some x → x.ended = false →
    s.settleOpenAt epoch < s.now → (∀ h < 2, nth x.endAt h 0 ≤ s.hubCycles h) →
    exec (.orderedProcedureEnd tenant epoch) s = .next (s.endOrdered x)) ∧
  (∀ (tenant epoch : Nat) (x : Settlement) (y : SetlRec) (l : List SetlRec) (s : State), s.runs → s.settlement? tenant epoch = some x →
    x.ended = true → x.late = y :: l → exec (.lateRecordSettle tenant epoch) s = .next (s.settleOneLate x y)) ∧
  (∀ (tenant dest : Nat) (p : CmdPart) (s : State), s.runs → s.dist.lateParts.find? (fun p => p.tenant == tenant && p.dest == dest) = some p →
    (∀ t, s.dist.lateSent.find? (tenant * 65536 + dest) = some t → 256 ≤ s.hubCycles (dest % 2) - t) →
    let same := fun (q : CmdPart) => q.tenant == tenant && q.dest == dest && q.policy == p.policy && q.epoch == p.epoch
    let rest := s.dist.lateParts.filter (fun q => !same q) ++ (s.dist.lateParts.filter same).drop 255
    let es := (((s.dist.lateParts.filter same).take 255).flatMap CmdPart.entries).foldl (fun l e => insEntry e l) []
    let k := partKey tenant p.epoch dest p.policy
    let i := SMap.getD (fun _ => 0) s.dist.partNo k
    let n := { s with dist := { s.dist with
      lateParts := rest, lateSent := s.dist.lateSent.put (tenant * 65536 + dest) (s.hubCycles (dest % 2)), partNo := s.dist.partNo.put k (i + 1) } }
    exec (.lateCmdlistPart tenant dest) s = .next (n.sendPart { p with part := i, entries := es })) ∧
  (∀ (tenant epoch : Nat) (x : Settlement) (s : State), s.runs → s.settlement? tenant epoch = some x → s.settleCloseAt epoch ≤ s.now →
    let n := (if x.ended then s else s.endOrdered x).settleLates tenant epoch x.late.length
    let d := { n.dist with
      open_ := n.dist.open_.filter (fun x => !(x.tenant == tenant && x.epoch == epoch))
      lateParts := n.dist.lateParts.filter (fun p => !(p.tenant == tenant && p.epoch == n.origEpoch tenant epoch % 2 ^ 32)) }
    let m := { n with dist := d }
    exec (.settlementClose tenant epoch) s =
      .next (if x.lateCount = 0 then m else m.event 0x0B00 0xFFFF tenant (detailOf [(4, epoch), (4, sat32 x.lateCount)])))

/-- Capture and replay (R341, R342, R344, R346, R347): gap entries, reads of a ring, sessions that are started and ended. -/
def Obligations.CaptureAndReplay : Prop :=
  (∀ (tenant : Nat) (s : State), s.runs → (s.capOf tenant).loss.isSome = true → (s.gapEntry tenant).2 = true →
    exec (.captureGapEntry tenant) s = .next (s.gapEntry tenant).1) ∧
  (∀ (c : HwCmd) (l : List HwCmd) (s : State), s.runs → s.firstCmd 0x0040 c l → c.cmd.body.length = 16 → leAt c.cmd.body 12 4 = 0 →
    let n := s.leaving l
    let ring := (n.capOf c.cmd.tenant).ring.flatMap (fun x => x.2)
    leAt c.cmd.body 8 4 ≤ 8160 → leAt c.cmd.body 0 8 + leAt c.cmd.body 8 4 ≤ ring.length →
    exec .captureRead s = .next (State.endCmd c { st := n, data := slice ring (leAt c.cmd.body 0 8) (leAt c.cmd.body 8 4) })) ∧
  (∀ (c : HwCmd) (l : List HwCmd) (s : State), s.runs → s.firstCmd 0x0016 c l → c.cmd.body.length = 56 → leAt c.cmd.body 4 4 = 0 →
    let n := s.leaving l
    n.launchRefused c 7 = none → replayBars n c.cmd = none →
    let a := { n.launchOf c.cmd 7 with resumeEn := (extendEN n.epoch (leAt c.cmd.body 0 4)).toNat }
    exec .replayStart s = .next (State.endCmd c { st := n.addLaunch a false })) ∧
  (∀ (c : HwCmd) (l : List HwCmd) (s : State), s.runs → s.firstCmd 0x0017 c l → c.cmd.body = [] →
    let n := s.leaving l
    n.launchRefused c 8 = none → (n.session c.cmd.tenant).isSome = true →
    exec .replayEnd s = .next (State.endCmd c { st := n.addLaunch (n.launchOf c.cmd 8) false })) ∧
  (∀ (tenant e : Nat) (z : Session12) (s : State), s.runs → s.session tenant = some z → z.e = some e → e ≤ s.epoch →
    s.weir.hubs.any (fun w => w.recs.any (fun r => r.2.phase != .tail && r.2.r.tenant == tenant)) = false →
    s.weir.queues.any (fun q => q.2.any (fun x => x.r.tenant == tenant && !x.ghost)) = false →
    let miss := s.cnt .cntCapCnt (3 * tenant + 2) % 2 ^ 48
    exec (.replayDone tenant) s = .next ((s.setCap tenant { s.capOf tenant with session := none }).event 0x0C03 tenant tenant
      (detailOf [(4, sat32 z.count), (4, sat32 ((miss + 2 ^ 48 - z.miss0) % 2 ^ 48))])))

/-- The queue commands of Sluice (R355 to R359, Table 13.2): OP, FLAGS, ID, AMOUNT and ARG stand at bytes 0, 1, 2, 4 and 8 of their 16, and a command whose
fields fit them is read back as it was written; a control core gives a queue whatever its 16 bytes say. On a queue that is free: counts, waits, and what is
done at once. -/
def Obligations.QueueCommandsRun : Prop :=
  (∀ c : QCmd, c.bytes.length = 16 ∧ leAt c.bytes 0 1 = c.op % 2 ^ 8 ∧ leAt c.bytes 1 1 = c.flags % 2 ^ 8 ∧ leAt c.bytes 2 2 = c.id % 2 ^ 16 ∧
    leAt c.bytes 4 4 = c.amount % 2 ^ 32 ∧ leAt c.bytes 8 8 = c.arg % 2 ^ 64) ∧
  (∀ c : QCmd, c.op < 2 ^ 8 → c.flags < 2 ^ 8 → c.id < 2 ^ 16 → c.amount < 2 ^ 32 → c.arg < 2 ^ 64 → qcmdOfBytes c.bytes = c) ∧
  (∀ (q id amount flags arg : Nat) (s : State), s.runs →
    let b := fun (op : Nat) => QCmd.bytes { op := op, flags := flags, id := id, amount := amount, arg := arg }
    exec (.qSig q id amount flags arg) s = .next (s.give q (b 1)) ∧ exec (.qWait q id amount flags arg) s = .next (s.give q (b 2)) ∧
    exec (.qDec q id amount flags arg) s = .next (s.give q (b 3)) ∧ exec (.qSset q id amount flags arg) s = .next (s.give q (b 4)) ∧
    exec (.qBar q id amount flags arg) s = .next (s.give q (b 5)) ∧ exec (.qBarnw q id amount flags arg) s = .next (s.give q (b 6)) ∧
    exec (.qWaitbt q id amount flags arg) s = .next (s.give q (b 7)) ∧ exec (.qRearm q id amount flags arg) s = .next (s.give q (b 8)) ∧
    exec (.qRsig q id amount flags arg) s = .next (s.give q (b 9))) ∧
  (∀ (q id amount arg : Nat) (s : State), s.runs → s.queueFree q →
     let n := fun (op : Nat) => s.queued q { op := op, flags := 0, id := id, amount := amount, arg := arg }
     let ok := fun (op : Nat) => qcmdOk q { op := op, flags := 0, id := id, amount := amount, arg := arg } = true
     (ok 1 → exec (.qSig q id amount 0 arg) s = .next (((n 1).semAdd id amount).popQue q)) ∧
     (ok 2 → (s.sem id).waiters = [] → amount ≤ (s.sem id).count →
       exec (.qWait q id amount 0 arg) s = .next (((n 2).setSem id { s.sem id with count := (s.sem id).count - amount }).popQue q)) ∧
     (ok 2 → (s.sem id).count < amount → exec (.qWait q id amount 0 arg) s =
       .next (((n 2).setSem id { s.sem id with waiters := (s.sem id).waiters ++ [q] }).setQue q { (n 2).que q with wait := .sem })) ∧
     (ok 3 → amount ≤ (s.sem id).count →
       exec (.qDec q id amount 0 arg) s = .next (((n 3).setSem id { s.sem id with count := (s.sem id).count - amount }).popQue q)) ∧
     (ok 4 → exec (.qSset q id amount 0 arg) s = .next (((n 4).setSem id { s.sem id with count := amount }).popQue q)) ∧
     (ok 7 → arg < 2 ^ 64 → arg ≤ s.now → exec (.qWaitbt q id amount 0 arg) s = .next ((n 7).popQue q)) ∧
     (ok 7 → arg < 2 ^ 64 → s.now < arg → exec (.qWaitbt q id amount 0 arg) s = .next ((n 7).setQue q { (n 7).que q with wait := .bt })))

/-- The queue commands that reach outside Sluice's counts (R144, R356, R360 to R362, R369), on a queue that is free. -/
def Obligations.QueueCommandsReach : Prop :=
  ∀ (q id amount flags arg : Nat) (s : State), s.runs → s.queueFree q →
    let c := fun (op : Nat) => ({ op := op, flags := flags, id := id, amount := amount, arg := arg } : QCmd)
    let n := fun (op : Nat) => s.queued q (c op)
    let b := barKey q id
    (qcmdOk q (c 5) = true → bit (s.barMask b) (barPort q b) = true → (s.bar b).counted.contains (barPort q b) = false →
      exec (.qBar q id amount flags arg) s = .next ((n 5).arriveBar q b true).1) ∧
    (qcmdOk q (c 6) = true → bit (s.barMask b) (barPort q b) = true → (s.bar b).counted.contains (barPort q b) = false →
      exec (.qBarnw q id amount flags arg) s = .next ((((n 6).arriveBar q b false).1.popQue q).runQueue q 255)) ∧
    (∀ x : StreamSt, qcmdOk q (c 8) = true → amount < 2 ^ 32 → s.stream? (q / 32) id = some x → x.rearm = none →
      exec (.qRearm q id amount flags arg) s = .next (((((n 8).rearm (q / 32) id arg amount).getD (n 8)).popQue q).runQueue q 255)) ∧
    (qcmdOk q (c 9) = true → (n 9).noCredit q (arg % 2 ^ 32) = false →
      let m := (n 9).sendSignal q (c 9)
      exec (.qRsig q id amount flags arg) s =
        .next (if m.signalWaits q then m.setQue q { m.que q with wait := .link } else (m.popQue q).runQueue q 255)) ∧
    (qcmdOk q (c 9) = true → (n 9).noCredit q (arg % 2 ^ 32) = true →
      exec (.qRsig q id amount flags arg) s = .next ((n 9).setQue q { (n 9).que q with wait := .credit }))

/-- What ends the waits of Sluice (R357, R361, R362, R365 to R368): grants, releases of barriers and domain barriers, peers' signals and arrivals. -/
def Obligations.WaitsEnd : Prop :=
  (∀ (sem q : Nat) (ws : List Nat) (s : State), s.runs → (s.sem sem).waiters = q :: ws → ((s.que q).cmds.headD {}).amount ≤ (s.sem sem).count →
    exec (.waitGrant sem) s = .next
      ((s.setSem sem { s.sem sem with count := (s.sem sem).count - ((s.que q).cmds.headD {}).amount, waiters := ws }).goOn q)) ∧
  (∀ (b : Nat) (s : State), s.runs → s.allCounted b = true → (s.bar b).releasing = false → s.barDomain b = false →
    exec (.barrierRelease b) s = .next (s.releaseBar b)) ∧
  (∀ (b : Nat) (s : State), s.runs → (s.bar b).releasing = true → (s.bar b).waiting = [] →
    let g := ((s.bar b).gen + 1) % 4
    exec (.barrierFullRelease b) s = .next ((s.setBar b { gen := g, msgs := (s.bar b).msgs.filter (fun m => m.1 == g) }).countHeld b
      (queueOrder ((s.bar b).held.map (portQueue b))))) ∧
  (∀ (q : Nat) (s : State), s.runs → (s.que q).wait = .bt → ((s.que q).cmds.headD {}).arg ≤ s.now →
    exec (.waitbtReached q) s = .next (s.goOn q)) ∧
  (∀ (port dev flags id value : Nat) (s : State), s.runs → (s.brPort port).step = 6 →
    exec (.sluiceSignal port dev flags id value) s = .next (s.peerSignal flags id value)) ∧
  (∀ (dev k gen a : Nat) (s : State), s.runs → k < 8 → s.barDomain (160 + k) = true →
    let x := s.bar (160 + k)
    gen = x.gen ∨ gen = (x.gen + 1) % 4 → x.msgs.any (fun m => m.1 == gen && m.2.1 == dev) = false →
    let n := s.setBar (160 + k) { x with msgs := x.msgs ++ [(gen, dev, a)] }
    exec (.sluiceArrival dev k gen a) s = .next (if a + s.fence < s.now then
      (n.tick .cntSluDevCnt 0).event 0x0D03 (16 + k) 0xFF (detailOf [(2, dev), (6, a)]) else n)) ∧
  (∀ (k : Nat) (s : State), s.runs → s.barDomain (160 + k) = true → (s.bar (160 + k)).releasing = false →
    let ms := (s.bar (160 + k)).msgs.filter (fun m => m.1 == (s.bar (160 + k)).gen)
    s.fld .sluDbarcfg k 0 14 1 ≤ ms.length → (ms.map (fun m => m.2.2)).foldl max 0 + s.fence ≤ s.now →
    exec (.domainBarrierRelease k) s = .next (s.releaseBar (160 + k))) ∧
  (∀ (k t : Nat) (s : State), s.runs → (s.bar (160 + k)).sentAt = some t → (s.bar (160 + k)).releasing = false → (s.bar (160 + k)).stalled = false →
    t + s.rd .sluDbarwarn k 0 ≤ s.now →
    let x := s.bar (160 + k)
    exec (.sluDbarStalled k) s = .next ((s.setBar (160 + k) { x with stalled := true }).event 0x0D04 (16 + k) 0xFF
      (detailOf [(1, x.gen), (2, (x.msgs.filter (fun m => m.1 == x.gen)).length), (5, 0)])))

/-- The writes of Sluice's registers (R359, R364, R365, R374, Table 13.10). -/
def Obligations.SluiceWrites : Prop :=
  (∀ (sem value : Nat) (s : State), s.runs → sem < 3072 →
    exec (.semCountWrite sem value) s = .next (s.setSem sem { s.sem sem with count := value % 65536 })) ∧
  (∀ (b value : Nat) (s : State), s.runs → b < 32 → (∀ p < 128, bit value p = true → bit (s.barMask b) p = true) →
    exec (.barrierMaskWrite b 0 value) s = .next ((s.setMask b value).getD s) ∧ (s.setMask b value).isSome = true) ∧
  (∀ (k word value : Nat) (s : State), s.runs → k < 8 → word < 3 → exec (.barrierMaskWrite (160 + k) word value) s =
    .next { s with slu := { s.slu with maskStage := s.slu.maskStage.put (4 * (160 + k) + word) value } }) ∧
  (∀ (k value : Nat) (s : State), s.runs → k < 8 → (s.bar (160 + k)).counted = [] → (s.bar (160 + k)).releasing = false →
    (∀ m ∈ (s.bar (160 + k)).msgs, m.1 ≠ (s.bar (160 + k)).gen) → (bit value 0 = true → 1 ≤ bits value 14 1) → bits value 14 1 ≤ 8192 →
    bits value 30 15 < 64 → exec (.dbarcfgWrite k value) s = .next ((s.setBar (160 + k) {}).wr .sluDbarcfg k 0 (value % 2 ^ 31))) ∧
  (∀ (q : Nat) (s : State), s.runs → q < 128 →
    exec (.queueHold q true) s = .next (s.wr .sluQctl q 0 1) ∧ exec (.queueHold q false) s = .next ((s.wr .sluQctl q 0 0).runQueue q 256)) ∧
  (∀ (q : Nat) (s : State), s.runs → q < 128 → (s.que q).halted = true →
    exec (.queueResume q) s = .next ((s.setQue q { s.que q with halted := false }).runQueue q 256)) ∧
  (∀ (q : Nat) (s : State), s.runs → q < 128 →
    exec (.queueFlush q) s = .next ((s.withdraw q).setQue q { (s.withdraw q).que q with cmds := [] }))

/-- The ports of Braid (R381 to R383): bring-up steps, identity words, replays of flits, and ports that go down. -/
def Obligations.BraidPortsChange : Prop :=
  (∀ (port : Nat) (s : State), s.runs → port < 12 → (s.brPort port).step ≠ 0 → (s.brPort port).step ≠ 4 → (s.brPort port).step < 5 →
    s.sec.error = false →
    let n := s.setBrPort port { s.brPort port with step := (s.brPort port).step + 1, stepAt := s.now, failedStep := 0 }
    exec (.braidBringupStepDone port) s = .next (if (s.brPort port).step = 3 then
      { n with braid := { n.braid with identOut := n.braid.identOut ++ [(port, n.identity port)] } } else n)) ∧
  (∀ (port : Nat) (s : State), s.runs → port < 12 → (s.brPort port).step = 5 → s.sec.error = false →
    let a := s.brUp port
    let n := { a with time := { a.time with firstUp := some (a.time.firstUp.getD a.now) } }
    let m := if n.rel.testing.contains (port + 0xB000) then n.reinstated (port + 0xB000) 6 else n
    exec (.braidBringupStepDone port) s = .next (if (s.brPort port).fell then m.countErr (port + 0xB000) true else m)) ∧
  (∀ (port : Nat) (s : State), s.runs → port < 12 → (s.brPort port).step ≠ 0 → (s.brPort port).step < 6 →
    (s.brPort port).stepAt + nth [0, 2 ^ 20, 2 ^ 24, 2 ^ 20, 2 ^ 20, 2 ^ 16] (s.brPort port).step 0 ≤ s.now →
    exec (.braidBringupTimeout port) s = .next (s.brDown port (s.brPort port).step)) ∧
  (∀ (port : Nat) (w : IdentWord) (s : State), s.runs → port < 12 → (s.brPort port).step = 4 →
    let x := { s.brPort port with
      peerMember := w.role == 0, peerDevice := w.device % 8192, peerPort := w.port % 16, endpoints := w.endpoints % 512, failedStep := 0 }
    exec (.identityWord port w) s = .next (if s.identityOk port w then s.setBrPort port { x with step := 5, stepAt := s.now }
      else ((s.setBrPort port { x with step := 7, stepAt := s.now }).event 0x0E02 port 0xFF
        (detailOf [(2, w.device), (1, w.port), (1, w.role), (2, w.domain), (2, 0)])).noteDegraded)) ∧
  (∀ (port corr uncorr : Nat) (s : State), s.runs → port < 12 → (s.brPort port).step = 6 →
    let n := ((s.tick .cntBraidPortCnt (port * 9 + 1)).count .cntBraidPortCnt (port * 9 + 2) corr).count .cntBraidPortCnt (port * 9 + 3) uncorr
    exec (.flitReplay { port := port, corr := corr, uncorr := uncorr }) s = .next (if (s.brPort port).replays + 1 < 8 then
      n.setBrPort port { s.brPort port with replays := (s.brPort port).replays + 1 } else n.brDown port 8)) ∧
  (∀ (port cause : Nat) (s : State), s.runs → port < 12 → (s.brPort port).step ≠ 0 → (s.brPort port).step < 7 →
    exec (.braidPortDown port cause) s = .next (s.brDown port (if cause = 8 then 8 else 1)))

/-- Messages that arrive whole at a port that is up (R383, R387 to R389, R399, R401): records, replies, chunks, credits, repairs, command lists; a copy
of one that the link holds already is discarded. What
counts as a copy is the model's numbering of log 96. -/
def Obligations.BraidMessagesArrive : Prop :=
  ∀ (port : Nat) (m : BrMsg) (s : State), s.runs → port < 12 → (s.brPort port).step = 6 →
    let n := s.linkTake port m
    let old := s.setBrPort port { s.brPort port with replays := 0 }
    (s.linkHeld port m = true →
      (∀ ago : Nat, m.type = 1 ∨ m.type = 3 ∨ m.type = 5 → (m.type = 1 → m.dst = s.device → qLen (s.queue (32 + port)) < s.queueCap (32 + port)) →
        exec (.braidRecord port m ago) s = .next old) ∧
      (m.type = 2 ∨ m.type = 4 → exec (.braidReply port m) s = .next old) ∧ (m.type = 6 → exec (.mcast port m) s = .next old) ∧
      (m.type = 7 → exec (.mcastCredit port m) s = .next old) ∧ (m.type = 8 → exec (.repairReq port m) s = .next old) ∧
      (m.type = 9 → exec (.cmdlist port m) s = .next old)) ∧
    (s.linkHeld port m = false → m.ok = true →
      (∀ ago : Nat, m.type = 1 → (m.dst = s.device → qLen (s.queue (32 + port)) < s.queueCap (32 + port)) →
        exec (.braidRecord port m ago) s = .next (n.braidRecord port m ago)) ∧
      (∀ ago : Nat, m.type = 3 ∨ m.type = 5 → exec (.braidRecord port m ago) s = .next (n.passOn port m)) ∧
      (m.type = 2 ∨ m.type = 4 → exec (.braidReply port m) s = .next (n.passOn port m)) ∧
      (m.type = 6 → exec (.mcast port m) s = .next (
        if bit m.flags 2 = false ∧ m.dst ≠ s.device then (n.brRoute (port / 6) (some port) m).1 else n.mcastChunk port m)) ∧
      (∀ (x : McXfer) (k c : Nat), m.type = 7 → s.xfer? (m.dst % 8192) (leAt m.body 4 4) = some x →
        List.find? (fun (y : Nat × Option Nat) => decide (y.1 % 6 = port % 6)) x.hops = some (k, some c) → c < leAt m.body 8 4 + 1 →
        exec (.mcastCredit port m) s =
          .next (n.creditUp { x with hops := x.hops.put k (some (leAt m.body 8 4 + 1)), hopAt := x.hopAt.put k n.now })) ∧
      (m.type = 8 → exec (.repairReq port m) s = .next (if m.dst = s.device then n.repairReq m else n.passOn port m)) ∧
      (m.type = 9 → exec (.cmdlist port m) s = .next (n.passOn port m))) ∧
    (s.linkHeld port m = false → m.ok = false → ∀ ago : Nat,
      let d := n.tick .cntBraidPortCnt (port * 9 + 4)
      exec (.braidRecord port m ago) s = .next d ∧ exec (.braidReply port m) s = .next d ∧ exec (.mcast port m) s = .next d ∧
      exec (.mcastCredit port m) s = .next d ∧ exec (.repairReq port m) s = .next d ∧ exec (.cmdlist port m) s = .next d)

/-- Multicast transfers and what leaves an attached port (R398 to R401, R403): chunks are sent within credit, pruned, repaired, and forgotten.
Which message an attached port discards at its timeout is the model's choice of log 22. -/
def Obligations.TransfersRun : Prop :=
  (∀ (i : Nat) (x : McXfer) (bytes : List Byte) (s : State), s.runs → s.xfer? s.device i = some x → x.held.find? x.sent = some bytes →
    x.sent < x.credit ((s.groupFor x.group x.tenant).contains s.device) + s.fld .braidMcast 0 0 31 24 →
    let m := x.message s.device x.sent none bytes
    let n := (x.hops.filter (fun y => y.2.isSome)).foldl (fun s y => s.mcSend y.1 none m) s
    exec (.mcastChunkSend i) s = .next (n.creditUp { x.goesOut n.now (x.sent + 1) with lastSent := n.now })) ∧
  (∀ (i : Nat) (x : McXfer) (s : State), s.runs → s.braid.xfers[i]? = some x → x.pruned = false → x.sender ≠ s.device →
    x.done.length < x.held.length → x.progress + s.fld .braidMcast 0 0 23 0 ≤ s.now →
    let n := { s with head := { s.head with
      records := s.head.records.filter (fun r => !(r.queue == 64 && r.key.dev == x.sender && r.reqSeq == x.transfer)) } }
    exec (.mcastPrune i 12) s =
      .next ((((n.tick .cntBraidDevCnt 2).latch none attnMcastPruned).event 0x0E04 0xFFFF 0xFF
        (detailOf [(2, x.group), (2, 0), (4, x.transfer)])).creditUp
          { x with pruned := true, outOfSet := true, held := x.held.keep (fun k _ => x.done.contains k) })) ∧
  (∀ (i hop c : Nat) (x : McXfer) (s : State), s.runs → hop ≠ 12 → s.braid.xfers[i]? = some x → x.hops.find? hop = some (some c) →
    c < x.sent → SMap.getD (fun _ => 0) x.hopAt hop + 2 * s.fld .braidMcast 0 0 23 0 ≤ s.now →
    exec (.mcastPrune i hop) s = .next ((s.tick .cntBraidDevCnt 2).creditUp { x with hops := x.hops.put hop none })) ∧
  (∀ (i : Nat) (x : McXfer) (s : State), s.runs → s.braid.xfers[i]? = some x → (s.groupFor x.group x.tenant).contains s.device = true →
    x.sender ≠ s.device → x.outOfSet = false → (x.chunks = 0 ∨ x.sent ≠ x.chunks) → x.sent ≠ 0 → x.lastRx + 2 * s.fld .braidMcast 0 0 23 0 ≤ s.now →
    exec (.mcastOutOfSet i) s = .next (s.putXfer { x with outOfSet := true })) ∧
  (∀ (i : Nat) (x : McXfer) (s : State), s.runs → s.braid.xfers[i]? = some x → x.outOfSet = true → x.repairing = false →
    s.head.records.any (fun r => r.queue == 64) = false →
    exec (.mcastRepairSend i) s =
      .next ((missingRanges (x.held.map (fun h => h.1)) (List.range (max x.chunks x.sent))).foldl (fun s r =>
        (s.brRoute 0 none { type := 8, flags := 3, dst := x.sender, src := s.device, tenant := x.tenant
                            body := leBytes 4 x.transfer ++ leBytes 4 r.1 ++ leBytes 4 r.2 ++ leBytes 4 0 }).1)
        (s.putXfer { x with repairing := true }))) ∧
  (∀ (i : Nat) (x : McXfer) (s : State), s.runs → s.xfer? s.device i = some x → 0 < x.chunks → x.sent = x.chunks →
    x.lastSent + 2 ^ 32 ≤ s.now → exec (.mcastRetentionExpiry i) s = .next (s.dropXfer s.device i)) ∧
  (∀ (port : Nat) (m : BrMsg) (s : State), s.runs → s.fld .braidPortCfg port 0 2 1 = 1 →
    (foundFull 0 (s.brPort port).egress).find? (fun m => (m.type == 5 || m.type == 8 || m.type == 9) &&
      decide (m.since + s.rd .braidAtt 0 0 ≤ s.now)) = some m →
    let n := (s.setBrPort port { s.brPort port with egress := (s.brPort port).egress.erase m }).attDrop port
    let u := n.peerUndeliv (m.que.getD 0xFFFF) m.dst
    exec (.attEgressTimeout port) s = .next (
      if m.type = 5 ∧ m.src = n.device then (match m.que with
        | some q => if (u.que q).wait = .link then u.goOn q else u
        | none => u)
      else if m.type = 9 ∧ m.src = n.device then n.listUndeliv m.tenant (leAt m.body 8 2) (leAt m.body 4 4) else n))

/-- Boot (R407, R408, R410, R411, R461): each step, once what it waits for is there, leads to the next or stops the boot. -/
def Obligations.BootStepsLead : Prop :=
  ∀ (b : BootIn) (s : State), s.runs → s.head.dead = false →
    (s.head.step = 1 → b.ok = true → b.refs % 4 ≠ 0 →
      exec (.bootStepComplete b) s = .next (State.toStep { s with power := { s.power with ref := { s.power.ref with
        red := !bit b.refs 0, mainOk := bit b.refs 0, redOk := bit b.refs 1 } } } 2)) ∧
    (∀ k : Nat, s.head.step = 2 → (if s.sec.error = true then some s.sec.failTest else b.testFail) = some k →
      exec (.bootStepComplete b) s = .next (State.bootStop { s with sec := { s.sec with error := true, failTest := k } })) ∧
    (s.head.step = 2 → s.sec.error = false → b.testFail = none →
      let n := (if s.warmBoot = true ∧ s.sec.keys ≠ [] then s else s.loadArea b.areaBad).seedDrbg
      exec (.bootStepComplete b) s = .next (State.toStep { n with sec := { n.sec with approved := true } } 3)) ∧
    (s.head.step = 3 → exec (.bootStepComplete b) s = .next s.imageChoice) ∧
    (s.head.step = 4 → s.warmBoot = false → exec (.bootStepComplete b) s =
      .next (if s.imageFault (b2n s.head.bootedB) 6 = 0 then s.toStep 5 else s.imageInvalid)) ∧
    (s.head.step = 4 → s.warmBoot = true → exec (.bootStepComplete b) s =
      .next (if ∀ e ∈ s.bootImage.sections, e.hash = hash384 e.data then s.toStep 5 else s.bootStop)) ∧
    (s.head.step = 5 → b.ok = true → exec (.bootStepComplete b) s = .next (s.memoryBoot b)) ∧
    (s.head.step = 6 → exec (.bootStepComplete b) s = .next s.configBoot) ∧
    (s.head.step = 7 → s.time.state = 1 → exec (.bootStepComplete b) s = .next (s.toStep 8)) ∧
    (s.head.step = 8 → s.mem.erased = true → exec (.bootStepComplete b) s = .next s.setsBoot)

/-- Segments, timeouts and register commands of Headwater (R412, R415, R548 to R550, R553). -/
def Obligations.HeadwaterTakes : Prop :=
  (∀ (r : Rec) (s n : State), s.runs → s.takeHead clsControl = some (r, n) → exec .controlSegment s = .next (n.takeSegment r)) ∧
  (∀ (r : Rec) (s n : State), s.runs → s.takeHead clsModel = some (r, n) → exec .modelChunk s = .next (n.takeChunk r)) ∧
  (∀ (tenant port tag : Nat) (s : State), s.runs →
    exec (.segmentTimeout tenant port tag) s = .next { s with head := { s.head with opens := s.head.opens.filter (fun o =>
      !(o.tenant == tenant && o.port == port && o.tag == tag && decide (o.first + s.fld .hwCfg 0 0 15 0 * 1024 ≤ s.now))) } }) ∧
  (∀ (tenant : Nat) (x : Transfer) (s : State), s.runs → (s.hwT tenant).xfer = some x → x.last + s.fld .hwCfg 0 0 31 16 * 65536 ≤ s.now →
    exec (.bundleIdleExpiry tenant) s = .next (s.setHwT tenant { s.hwT tenant with xfer := none, loadState := 0 })) ∧
  (∀ (c : HwCmd) (l : List HwCmd) (w : List Byte) (m : State) (s : State), s.runs → s.firstCmd 0x0001 c l → c.cmd.body.length = 8 →
    let k := leAt c.cmd.body 4 4
    1 ≤ k → k ≤ 1024 → leAt c.cmd.body 0 4 % 4 = 0 → (s.leaving l).readWords c.path c.cmd.tenant (leAt c.cmd.body 0 4) k 0 [] = .ok (w, m) →
    exec .readReg s = .next (State.endCmd c { st := m, data := w })) ∧
  (∀ (c : HwCmd) (l : List HwCmd) (m : State) (s : State), s.runs → s.firstCmd 0x0002 c l → c.cmd.body.length = 16 → leAt c.cmd.body 12 4 = 0 →
    (s.leaving l).tenancy = false →
    (s.leaving l).writeWord c.path c.cmd.tenant (leAt c.cmd.body 0 4) (leAt c.cmd.body 8 4) (leAt c.cmd.body 4 4) = .ok m →
    exec .writeReg s = .next (State.endCmd c { st := m })) ∧
  (∀ (c : HwCmd) (l : List HwCmd) (i : Nat) (f : Nat) (d : RegDesc) (s : State), s.runs → s.firstCmd 0x0002 c l → c.cmd.body.length = 16 →
    leAt c.cmd.body 12 4 = 0 →
    let n := s.leaving l
    n.tenancy = true → c.cmd.keyId ≠ 0 → locate (leAt c.cmd.body 0 4) = some (d, i, f) → n.tenantMay c.cmd.tenant d i = false →
    exec .writeReg s = .next (State.endCmd c { st := n.writeRefused c.path c.cmd.tenant (leAt c.cmd.body 0 4), detail := 0x18 }))

/-- The launches of Headwater (R121, R135, R421, R424): swaps, drain swaps, freezes and resumes are accepted for their target epoch. -/
def Obligations.LaunchesAccepted : Prop :=
  ∀ (c : HwCmd) (l : List HwCmd) (s : State), s.runs →
    let n := s.leaving l
    let b := c.cmd.body
    (s.firstCmd 0x0010 c l → b.length = 56 → n.launchRefused c 1 = none → swapBars n c.cmd = none →
      let a := { n.launchOf c.cmd 1 with setId := leAt b 0 4, version := leAt b 4 4, digest := leAt b 8 48 }
      exec .swap s = .next (State.endCmd c { st := n.addLaunch a true })) ∧
    (s.firstCmd 0x0011 c l → b.length = 64 → leAt b 60 4 = 0 → n.launchRefused c 2 = none → drainBars n c.cmd = none →
      let a := n.launchOf c.cmd 2
      let m := (leAt b 56 4 + 2 ^ 32 - c.cmd.targetEn) % 2 ^ 32
      let d := { a with setId := leAt b 0 4, version := leAt b 4 4, digest := leAt b 8 48, resumeEn := a.target + m }
      exec .drainSwap s = .next (State.endCmd c { st := n.addLaunch d true })) ∧
    (s.firstCmd 0x0012 c l → b = [] → n.launchRefused c 3 = none →
      exec .freeze s = .next (State.endCmd c { st := n.addLaunch (n.launchOf c.cmd 3) false })) ∧
    (s.firstCmd 0x0013 c l → b = [] ∨ b.length = 128 → n.launchRefused c 4 = none → resumeBars n c.cmd = none →
      exec .resume s = .next (State.endCmd c { st := n.addLaunch (n.launchOf c.cmd 4) false })) ∧
    (s.firstCmd 0x0020 c l → b = [] → n.slotBars c.cmd.tenant = none →
      exec .discardShadow s = .next (State.endCmd c { st := (n.endStreams c.cmd.tenant 4).setHwT c.cmd.tenant (n.hwT c.cmd.tenant).discard }))

/-- Bundles: the check, the placement, the release of an old half, and a drain swap's placement (R417, R418, R423, R424, R427). -/
def Obligations.BundlesPlace : Prop :=
  (∀ (tenant : Nat) (s : State), s.runs → (s.hwT tenant).loadState = 2 →
    let h := s.hwT tenant
    let k := 1 - h.activeSlot
    let x := nth h.slots k {}
    (s.bundleFault tenant x ≠ 0 →
      exec (.bundleCheckComplete tenant) s = .next ((s.setHwT tenant { h.putSlot k {} with loadState := 0, rejected := true }).event 0x0F02
        tenant tenant (detailOf [(1, s.bundleFault tenant x), (3, 0), (4, h.xferNo)]))) ∧
    (s.bundleFault tenant x = 0 →
      let n := (s.setHwT tenant { h.putSlot k { x with checked := true } with loadState := 3 }).writeCommit tenant
      let m := (bundleOfBytes x.bytes).modelSet
      exec (.bundleCheckComplete tenant) s = .next (
        if (n.loadOutcome tenant false m).placed then n.armLoad tenant k x.bytes.length m else n.loadDone tenant h.shadowHalf (n.loadOutcome tenant false m) m.setId))) ∧
  (∀ (tenant : Nat) (s : State), s.runs → (s.hwT tenant).loadState = 3 → (s.hwT tenant).placing = false → exec (.loadPlacementComplete tenant) s =
    .next ((s.endStreams tenant 4).placeShadow tenant)) ∧
  (∀ (tenant : Nat) (o : SetInst) (s : State), s.runs → (s.hwT tenant).old = some o → s.passed (s.hwT tenant).switchDue = true →
    s.die.recs.any (fun r => r.bank == o.half && (s.tenantDies tenant).contains r.die) = false →
    let h := (s.hwT tenant).putSlot (1 - (s.hwT tenant).activeSlot) {}
    let n := ((s.retireTasks tenant o.set.setId o.set.version).setHwT tenant { h with old := none, switchEpoch := 0 }).writeCommit tenant
    exec (.oldHalfRelease tenant) s = .next (n.event 0x0F05 tenant tenant n.now)) ∧
  (∀ (tenant : Nat) (l : Launch) (s : State), s.runs → (s.hwT tenant).drainSwap = some l → (s.hwT tenant).placing = true →
    let h := s.hwT tenant
    let k := h.activeSlot
    let m := (bundleOfBytes (nth h.slots k {}).bytes).modelSet
    let q := s.placeOutcome tenant true (nth h.slots k {}) m
    let r : LoadResult := if q.placed ∧ tasksFit m = false then { outcome := loLimit } else q
    let w := s.setHwT tenant ({ h.putSlot (1 - k) {} with halves := [none, none], placing := false, drainPlaced := true, usedFields := [] }.takeSwap l.named)
    let i := placedSet s.rateEnv m 0 r.outcome (needsFull m)
    let n := (((w.placeActive tenant i).countLoad i.units).writeCommit tenant).loadDone tenant 0 r m.setId
    let v := s.setHwT tenant ({ h with activeSlot := 1 - k, placing := false, drainPlaced := true }.missSwap l.named)
    let o := ((((match h.drainOld with | some i => v.placeActive tenant i | none => v).loadDone tenant 0 r m.setId).writeCommit tenant).event 0x0F04
      tenant tenant (detailOf [(1, 3), (3, 0), (4, l.named)]))
    let done := fun (n : State) => s.noteShort (((n.endStreams tenant 4).drainReopen tenant).noteDegraded)
    (r.placed = true → exec (.drainSwapPlacementComplete tenant) s = .next (done n)) ∧
    (r.placed = false → exec (.drainSwapPlacementComplete tenant) s = .next (done o)))

/-- The external memory (R434, R436, R437, R441, R443, R445 to R447, R449, R450, R454, R457): sectors are read and written by their owner, errors polled, rows repaired; a refresh counts only RFM;
and key rotation, the erase at boot, and the scrub of a tenant: pages go to the next key, erased or scrubbed data is gone. That a page is
swept in one step is the model's choice of log 30. -/
def Obligations.MemoryServes : Prop :=
  (∀ (reader hub addr who : Nat) (a b : Bool) (s : State), s.runs → s.mem.erased = true →
    ((s.copies hub addr).head?.any (fun c => s.memHeld (c.1 / 6))) = false →
    (s.ownerOf addr = none → exec (.sectorRead reader hub addr who a b) s = .next (s.memOut reader addr 2 [])) ∧
    (∀ (bytes : List Byte) (n : State), (s.ownerOf addr).isSome = true →
      s.readSector reader hub addr who ((placeOf addr).filterMap (fun c => if (if c.1 / 6 = hub then a else b) then some c.1 else none)) none =
        (some bytes, n) → exec (.sectorRead reader hub addr who a b) s = .next (n.memOut reader addr 0 bytes)) ∧
    (∀ n : State, (s.ownerOf addr).isSome = true →
      s.readSector reader hub addr who ((placeOf addr).filterMap (fun c => if (if c.1 / 6 = hub then a else b) then some c.1 else none)) none =
        (none, n) → exec (.sectorRead reader hub addr who a b) s = .next (n.memOut reader addr 1 []))) ∧
  (∀ (writer hub addr who o : Nat) (data : List Byte) (s : State), s.runs → s.mem.erased = true → s.ownerOf addr = some o → data.length = 512 →
    (s.copies hub addr).any (fun c => s.memHeld (c.1 / 6)) = false →
    let n := { s with eddy := { s.eddy with bad := s.eddy.bad.filter (fun b => !(s.bucketsAt addr).contains b) } }
    exec (.sectorWrite writer hub addr who (data.map some)) s =
      .next ((n.copies hub addr).foldl (fun s c => { s with mem := s.mem.seal o c data }) n)) ∧
  (∀ (writer hub addr who o : Nat) (data : List (Option Byte)) (old : List Byte) (s n : State), s.runs → s.mem.erased = true →
    s.ownerOf addr = some o → data.length = 512 → (s.copies hub addr).any (fun c => s.memHeld (c.1 / 6)) = false → none ∈ data → s.readSector writer hub addr who [] none = (some old, n) →
    let new := List.zipWith (fun (x : Option Byte) (y : Byte) => x.getD y) data old
    exec (.sectorWrite writer hub addr who data) s = .next ((n.copies hub addr).foldl (fun s c => { s with mem := s.mem.seal o c new }) n)) ∧
  (∀ (writer hub addr who : Nat) (data : List (Option Byte)) (s : State), s.runs → s.mem.erased = true → s.ownerOf addr = none →
    exec (.sectorWrite writer hub addr who data) s = .next (s.memOut writer addr 2 [])) ∧
  (∀ (stack : Nat) (rows : List RowReport) (s : State), s.runs → stack < 12 → s.mem.erased = true → (nth s.mem.stk stack {}).state ≠ 2 →
    exec (.hbmErrorPoll stack rows) s = .next (rows.foldl (fun s r => s.rowErrors stack r) s)) ∧
  (∀ (stack pc : Nat) (s : State), s.runs → exec (.hbmRetrain stack pc) s = .next s) ∧
  (∀ (stack : Nat) (perBank rfm : Bool) (s : State), s.runs → stack < 12 → (nth s.mem.stk stack {}).state ≠ 2 →
    exec (.hbmRefresh stack perBank rfm) s = .next (if rfm then s.tick .cntMemCnt (stack * 4 + 3) else s)) ∧
  (∀ (stack row : Nat) (spare : Bool) (s : State), s.runs → stack < 12 → (stack, row) ∈ s.mem.due → s.fld .memPprCfg 0 0 4 4 ≠ 0 →
    (nth s.mem.stk stack {}).state ≠ 2 →
    let x := nth s.mem.stk stack {}
    let m := { s.mem with due := s.mem.due.erase (stack, row), rowErrs := s.mem.rowErrs.del (stack * 2 ^ 60 + row) }
    let y : StackSt := if spare then { x with sppr := x.sppr + 1, softRows := x.softRows ++ [row] } else { x with spareOut := true }
    let n := { s with mem := { m with stk := setNth m.stk stack y } }
    exec (.rowRepair stack row spare) s = .next (
      if spare then (n.pprEvent stack row 1).countErr (0x7000 + stack) true else n.countErr (0x7000 + stack) false)) ∧
  (∀ (stack page : Nat) (r : Rotation) (s : State), s.runs → s.mem.rotation = some r → r.paused = false → stack < 12 →
    (nth s.mem.stk stack {}).state ≠ 2 → nextPage (s.ownerSpans r.owner stack) (nth r.next stack 0) = some page →
    let k := nth s.mem.keys r.owner (0, 0)
    let step := if r.gen = 1 then (k.1, k.2) else (k.2, k.1)
    let n := stack * 2 ^ 17 + page
    let m := { s.mem with
      pageGen := if r.gen = 1 then s.mem.pageGen.put n true else s.mem.pageGen.del n
      seals := SMap.mapVals (fun c k => if c / 2048 = n ∧ k = step.1 then step.2 else k) s.mem.seals
      sweeps := s.mem.sweeps.put n (SMap.getD (fun _ => []) s.mem.sweeps n ++ [step])
      rotation := some { r with done := r.done + 1, next := setNth r.next stack (page + 1), at_ := r.at_.del n } }
    exec (.sweepPageDone stack page) s = .next (State.endSweep { s with mem := m })) ∧
  (∀ s : State, s.runs → 6 ≤ s.head.step → s.mem.erased = false →
    ∃ n : State, exec .memEraseDone s = .next (n.event 0x1000 0xFFFF 0xFF n.now) ∧ n.mem.data = [] ∧ n.mem.seals = [] ∧ n.mem.failed = [] ∧
      n.mem.erased = true ∧ n.mem.keyNo = s.mem.keyNo + 5 ∧ n.mem.curGen = [0, 0, 0, 0, 0] ∧ n = { s with mem := n.mem }) ∧
  (∀ (tenant x : Nat) (l : List Nat) (s : State), s.runs → s.mem.scrubs = tenant :: x :: l → s.sec.error = false →
    ∃ n : State, exec (.memScrubDone tenant) s =
        .next ((n.event 0x1001 tenant tenant (detailOf [(4, s.pagesOn tenant), (4, n.now)])).beginScrub x) ∧
      n.mem.data = s.mem.data.filter (fun c => !s.ownsPage tenant (c.1 / 512 / 2048)) ∧
      n.mem.seals = s.mem.seals.keep (fun c _ => !s.ownsPage tenant (c / 2048)) ∧ n.mem.scrubs = x :: l ∧ n = { s with mem := n.mem }) ∧
  (∀ (tenant : Nat) (s : State), s.runs → s.mem.scrubs = [tenant] → s.sec.error = false →
    ∃ n : State, exec (.memScrubDone tenant) s =
        .next (n.event 0x1001 tenant tenant (detailOf [(4, s.pagesOn tenant), (4, n.now)])).tenancySet ∧
      n.mem.data = s.mem.data.filter (fun c => !s.ownsPage tenant (c.1 / 512 / 2048)) ∧ n.mem.scrubs = [] ∧ n = { s with mem := n.mem })

/-- The security services that need no role (R461, R464, R467, R468, R470, Table 17.5). -/
def Obligations.ServicesShow : Prop :=
  (∀ (b : Nat) (c : SignedCmd) (k : KeyEnt) (s : State), s.serves b 0x0001 c → oneArg c = true → s.keyEnt? (leAt c.body 0 4) = some k →
    let data := leBytes 4 s.secWord ++ leBytes 4 (s.show 1 .topId 0 0) ++ leBytes 4 s.sec.minVer ++ k.floors.flatMap (leBytes 8)
    exec (.showStatus b) s = .next (SvcRes.sent { st := s, data := data } b)) ∧
  (∀ (b : Nat) (c : SignedCmd) (failed : Option Nat) (s : State), s.serves b 0x0002 c → c.body = [] →
    exec (.selfTest b failed) s = .next { s with sec := { s.sec with testing := some b } }) ∧
  (∀ (b : Nat) (m : List Byte) (s : State), s.asked b (0x7F, 1, 0x0002) m → s.sec.testing = some b →
    exec (.selfTest b none) s = .next (SvcRes.sent { st := { s with sec := { s.sec with testing := none, approved := true } } } b)) ∧
  (∀ (b k : Nat) (m : List Byte) (s : State), s.asked b (0x7F, 1, 0x0002) m → s.sec.testing = some b →
    let n := { s with sec := { s.sec with testing := none, approved := false, error := true, failTest := k } }
    exec (.selfTest b (some k)) s = .next (n.answered b (vendorReply 1 0x05 (SvcRes.no n 0x05 k).b1 []))) ∧
  (∀ (b : Nat) (c : SignedCmd) (s : State), s.serves b 0x0003 c → c.body = [] →
    let k := Config.kemPublic s.sec.kemNo
    exec (.kemPublic b) s = .next (SvcRes.sent { st := s, data := k ++ Config.deviceSign k } b)) ∧
  (∀ (b : Nat) (c : SignedCmd) (s : State), s.serves b 0x0010 c → c.body.length = 2688 →
    let h := (hash384 (c.body.take 96), hash384 (c.body.drop 96))
    s.sec.owner = none ∨ (s.sec.owner = some h ∧ s.sec.lost = true) →
    let keys := ownerEnt (c.body.take 96) (c.body.drop 96) :: s.sec.keys.filter (fun k => k.keyId != 0)
    exec (.setOwner b) s = .next (SvcRes.sent
      { st := State.saveArea { s with sec := { s.sec with owner := some h, lost := false, keys := keys } } } b))

/-- The crypto officer's services on keys, versions and policy (R463, R465 to R469, R472, R475). -/
def Obligations.OfficerManages : Prop :=
  (∀ (b : Nat) (c : SignedCmd) (s n : State), s.serves b 0x0011 c → s.proves c (fun k => k.crypto) n → c.body.length = 2736 →
    n.entryFault c.body = none → n.sec.keys.length < 128 →
    let k := keyOfBytes c.body
    let a := State.saveArea { n with sec := { n.sec with keys := n.sec.keys ++ [k] } }
    exec (.enrolKey b) s = .next (SvcRes.sent
      { st := a.event 0x1100 0xFFFF 0xFF (detailOf [(4, k.keyId), (1, k.role), (1, k.tenants), (2, 0)]) } b)) ∧
  (∀ (b : Nat) (c : SignedCmd) (s n : State), s.serves b 0x0012 c → s.proves c (fun k => k.crypto) n → oneArg c = true → leAt c.body 0 4 ≠ 0 →
    (n.keyEnt? (leAt c.body 0 4)).isSome = true →
    let a := State.saveArea { n with sec := { n.sec with keys := n.sec.keys.filter (fun k => k.keyId != leAt c.body 0 4) } }
    exec (.revokeKey b) s = .next (SvcRes.sent { st := a.event 0x1101 0xFFFF 0xFF (leAt c.body 0 4) } b)) ∧
  (∀ (b : Nat) (c : SignedCmd) (s n : State), s.serves b 0x0013 c → s.proves c (fun k => k.crypto) n → oneArg c = true →
    n.sec.minVer < leAt c.body 0 4 → n.sec.minSlots < 64 →
    let a := { n with sec := { n.sec with minVer := leAt c.body 0 4, minSlots := n.sec.minSlots + 1 } }
    exec (.raiseMinVersion b) s = .next (SvcRes.sent
      { st := a.event 0x1102 0xFFFF 0xFF (detailOf [(4, leAt c.body 0 4), (1, n.sec.minSlots + 1), (3, 0)]) } b)) ∧
  (∀ (b : Nat) (c : SignedCmd) (s n : State), s.serves b 0x0014 c → s.proves c (fun k => k.crypto) n → oneArg c = true → leAt c.body 0 4 ≤ 2 →
    exec (.setSigPolicy b) s = .next (SvcRes.sent { st := State.saveArea { n with sec := { n.sec with sigPolicy := leAt c.body 0 4 } } } b)) ∧
  (∀ (b : Nat) (c : SignedCmd) (s n : State), s.serves b 0x0015 c → s.proves c (fun k => k.crypto) n → oneArg c = true → leAt c.body 0 4 ≤ 1 →
    n.allDrained = true → n.sec.pending = none → n.sec.tenancy ≠ (leAt c.body 0 4 == 1) →
    let a := { n with sec := { n.sec with pending := some (leAt c.body 0 4 == 1) } }
    exec (.setTenancy b) s = .next (SvcRes.sent { st := (List.range 4).foldl (fun s t => s.startScrub t) a } b)) ∧
  (∀ (b : Nat) (c : SignedCmd) (s n : State), s.serves b 0x00F0 c → s.proves c (fun k => k.crypto) n → c.body = [] →
    let keep := fun (a : StateArea) => { a with keys := a.keys.filter (fun k => k.keyId == 0), sigPolicy := 0, tenancy := false }
    let a := { n with sec := { n.sec with area0 := keep n.sec.area0, area1 := keep n.sec.area1, drbg := 0 }
                      power := { n.power with boot9 := n.power.boot9 ++ [(0x1104, 0xFFFF, 0)] } }
    exec (.zeroise b) s = .next (SvcRes.sent { st := a.coldReset 4 0 } b))

/-- The services on imported keys and memory keys (R446, R467, R468, R470, R471, R478). -/
def Obligations.KeysMove : Prop :=
  (∀ (b : Nat) (c : SignedCmd) (key : List Byte) (s n : State), s.serves b 0x0020 c →
    let p := leAt c.body 0 4
    let t := if p < 32 then s.fld .tribPortCfg p 0 5 4 else s.fld .braidPortCfg (p - 64) 0 5 4
    s.proves c (fun k => k.officer t) n → leAt c.body 4 4 = 0 → p < 32 ∨ (64 ≤ p ∧ p < 76) → n.importKey c 0x0020 40 = some key →
    exec (.loadMacsecCak b) s = .next (SvcRes.sent
      { st := State.newKemPair { n with sec := { n.sec with caks := n.sec.caks.put p (leNat key, slice c.body 8 32) } } } b)) ∧
  (∀ (b : Nat) (c : SignedCmd) (key : List Byte) (s n : State), s.serves b 0x0021 c → s.proves c (fun k => k.officer (leAt c.body 4 4)) n →
    let id := leAt c.body 0 4
    let t := leAt c.body 4 4
    let rest := n.sec.exportKeys.filter (fun k => !(k.tenant == t && k.id == id))
    t < 4 → n.importKey c 0x0021 8 = some key → (rest.filter (fun k => k.tenant == t)).length < 4 →
    let keys := rest ++ [{ tenant := t, id := id, no := leNat key }]
    exec (.loadExportKey b) s = .next (SvcRes.sent { st := State.newKemPair { n with sec := { n.sec with exportKeys := keys } } } b)) ∧
  (∀ n : State, n.newKemPair = { n with sec := { n.sec with
    kemNo := n.sec.kemNo + 1, error := n.sec.error || (Config.pairFails (n.sec.kemNo + 1)).isSome
    approved := n.sec.approved && (Config.pairFails (n.sec.kemNo + 1)).isNone
    failTest := (Config.pairFails (n.sec.kemNo + 1)).getD n.sec.failTest } }) ∧
  (∀ (b : Nat) (c : SignedCmd) (s n : State), s.serves b 0x0022 c → s.proves c (fun k => k.officer (leAt c.body 4 4)) n →
    let id := leAt c.body 0 4
    let t := leAt c.body 4 4
    t < 4 → c.body.length = 8 → (n.exportKey? t id).isSome = true → n.eddy.exports.any (fun x => x.tenant == t && x.keyId == id) = false →
    n.eddy.imports.any (fun x => x.tenant == t && x.keyId == id) = false →
    exec (.deleteExportKey b) s = .next (SvcRes.sent
      { st := { n with sec := { n.sec with exportKeys := n.sec.exportKeys.filter (fun k => !(k.tenant == t && k.id == id)) } } } b)) ∧
  (∀ (b : Nat) (c : SignedCmd) (s n : State), s.serves b 0x0030 c → s.proves c (fun k => k.officer (leAt c.body 0 4)) n → oneArg c = true →
    leAt c.body 0 4 ≤ 4 → n.rotateRefused (leAt c.body 0 4) = none →
    exec (.rotateMemKey b) s = .next (SvcRes.sent { st := n.startRotation (leAt c.body 0 4) } b)) ∧
  (∀ (b : Nat) (c : SignedCmd) (s n : State), s.serves b 0x0031 c → s.proves c (fun k => k.officer (leAt c.body 0 4)) n → oneArg c = true →
    let t := leAt c.body 0 4
    t ≤ 3 → n.showDrained t = true →
    let a := { n with sec := { n.sec with exportKeys := n.sec.exportKeys.filter (fun k => k.tenant != t) }
                      eddy := { n.eddy with domKeys := setNth n.eddy.domKeys t (List.replicate 16 0) } }
    exec (.releaseTenant b) s = .next (SvcRes.sent { st := (a.releaseViews t).startScrub t } b))

/-- SPDM (R461, R473, R474): in approved mode each request is answered at its binding. -/
def Obligations.SpdmAnswers : Prop :=
  ∀ (b : Nat) (m : List Byte) (s : State), s.sec.approved = true →
    (s.asked b (5, 0, 0x84) m → exec (.getVersion b) s =
      .next (s.answered b (leBytes 1 5 ++ leBytes 1 0x10 ++ leBytes 1 0x04 ++ leBytes 2 0 ++ leBytes 1 0 ++ leBytes 1 1 ++ leBytes 2 0x1300))) ∧
    (s.asked b (5, 0, 0xE1) m → exec (.getCapabilities b) s = .next (s.answered b
      (spdmReply 0x61 0 0 (leBytes 1 0 ++ leBytes 1 (leAt m 6 1) ++ leBytes 2 0 ++ leBytes 4 0x16 ++ Config.mgmtBody 0x05E1 m)))) ∧
    (s.asked b (5, 0, 0xE3) m → exec (.negotiateAlgorithms b) s = .next (s.answered b
      (spdmReply 0x63 0 0 (leBytes 2 36 ++ leBytes 1 1 ++ leBytes 1 0 ++ leBytes 4 4 ++ leBytes 4 0x80 ++ leBytes 4 2 ++
        leBytes 12 0 ++ leBytes 1 0 ++ leBytes 1 0 ++ leBytes 2 0)))) ∧
    (s.asked b (5, 0, 0x81) m → exec (.getDigests b) s = .next (s.answered b (spdmReply 0x01 0 1 (leBytes 48 (hash384 Config.certChain))))) ∧
    (s.asked b (5, 0, 0x82) m →
      let off := leAt m 5 2
      let part := slice Config.certChain off (leAt m 7 2)
      exec (.getCertificate b) s = .next (s.answered b (
        if leAt m 3 1 % 16 ≠ 0 ∨ Config.certChain.length ≤ off then spdmReply 0x7F 0x01 0 []
        else spdmReply 0x02 0 0 (leBytes 2 part.length ++ leBytes 2 (Config.certChain.length - off - part.length) ++ part)))) ∧
    (s.asked b (5, 0, 0x83) m → leAt m 3 1 = 0 →
      let all := if leAt m 4 1 = 0 then [] else leBytes 48 (hash384 ((List.range 11).flatMap (fun i => s.measureBlock (i + 1))))
      let body := leBytes 48 (hash384 Config.certChain) ++ s.nonce.1 ++ all ++ leBytes 2 0
      exec (.challenge b) s = .next (s.nonce.2.answered b (spdmReply 0x03 0 1 (body ++ Config.deviceSign (m ++ body))))) ∧
    (s.asked b (5, 0, 0xE0) m → leAt m 4 1 ≤ 11 ∨ leAt m 4 1 = 0xFF →
      let op := leAt m 4 1
      let wanted := if op = 0 then [] else if op = 0xFF then (List.range 11).map (fun x => x + 1) else [op]
      let blocks := wanted.flatMap s.measureBlock
      let body := leBytes 1 wanted.length ++ leBytes 3 blocks.length ++ blocks ++ s.nonce.1 ++ leBytes 2 0
      let sign := if bit (leAt m 3 1) 0 then Config.deviceSign (m ++ body) else []
      exec (.getMeasurements b) s = .next (s.nonce.2.answered b (spdmReply 0x60 (if op = 0 then 11 else 0) 0 (body ++ sign))))

/-- Errors and the units they hit (R482 to R485, R488, R491, R493): counts, faults, resets, retirement, reinstatement, the watchdog. All
eight queues of a restarted core run again, which is the model's choice of log 86. -/
def Obligations.UnitsFail : Prop :=
  (∀ (unit : Nat) (s : State), s.runs → s.unitThere unit = true →
    exec (.correctableError { unit := unit }) s = .next ((s.sideCount unit).countErr unit true)) ∧
  (∀ (link : Nat) (s : State), s.runs → link < 17 →
    exec (.correctableError { unit := 0x4000 + link, once := true }) s = .next (s.tick .cntRelCnt ((0x4000 + link) * 2))) ∧
  (∀ (unit detail : Nat) (s : State), s.runs → s.unitThere unit = true → exec (.uncorrectableError unit detail) s = .next (s.uncorrectable unit detail)) ∧
  (∀ (die tile : Nat) (pass : Bool) (s : State), s.runs → die < 8 → tile < 66 → (s.tile die tile).resetting = true →
    let u := 0x1000 + 66 * die + tile
    let v := s.setTile die tile { s.tile die tile with resetting := false }
    let n := if pass then v.imagesAgain u else v
    let m := n.event 0x1201 u 0xFF (detailOf [(1, if pass then 1 else 2), (3, 0), (4, sat32 (n.now - (s.tile die tile).since))])
    exec (.relUnitReset u pass) s = .next (if pass then m else m.markLasting u 2)) ∧
  (∀ (die mu : Nat) (pass : Bool) (s : State), s.runs → die < 8 → mu < 9 → (s.mu die mu).resetting = true →
    let u := 0x2000 + 9 * die + mu
    let v := s.setMu die mu { s.mu die mu with resetting := false }
    let n := if pass then v.imagesAgain u else v
    let m := n.event 0x1201 u 0xFF (detailOf [(1, if pass then 1 else 2), (3, 0), (4, sat32 (n.now - (s.mu die mu).since))])
    exec (.relUnitReset u pass) s = .next (if pass then m else m.markLasting u 2)) ∧
  (∀ (unit : Nat) (s : State), s.runs → s.canRetire unit = true → exec (.unitRetire unit) s = .next (s.markLasting unit 3)) ∧
  (∀ (unit : Nat) (s : State), s.runs → s.canReset unit = true → exec (.unitReset unit) s = .next (s.beginReset unit)) ∧
  (∀ (unit : Nat) (s : State), s.runs → s.canReinstate unit = true →
    let n := unit % 4096
    (unit / 4096 = 1 → exec (.unitReinstate unit true) s = .next ((s.setTile (n / 66) (n % 66) { state := 1 }).reinstated unit 1)) ∧
    (unit / 4096 = 2 → exec (.unitReinstate unit true) s = .next ((s.setMu (n / 9) (n % 9) { state := 1 }).reinstated unit 1)) ∧
    (unit / 4096 = 5 → exec (.unitReinstate unit true) s = .next ((s.setEngine (n / 34) (n % 34) { state := 1 }).reinstated unit 1)) ∧
    (unit / 4096 = 1 ∨ unit / 4096 = 2 ∨ unit / 4096 = 5 →
      exec (.unitReinstate unit false) s = .next { s with rel := { s.rel with testing := s.rel.testing.filter (· ≠ unit) } })) ∧
  (∀ (core : Nat) (s : State), s.runs → (SMap.getD (fun _ => {}) s.rel.cores core).resetting = true →
    let u := SMap.getD (fun _ => ({} : UnitSt)) s.rel.cores core
    let n := State.rearmCore { s with rel := { s.rel with cores := s.rel.cores.put core { u with resetting := false } } } core
    exec (.relCoreReset core) s = .next (n.event 0x1205 (0x9000 + core) 0xFF (detailOf [(2, u.failed), (2, 0), (4, n.epoch)]))) ∧
  (∀ s : State, s.runs → exec .watchdogExpiry s = .next (s.warmReset 8 0)) ∧
  (∀ (link : Nat) (s : State), s.runs → 0x4000 + link ∈ s.rel.testing → link < 17 →
    let n := { s with rel := { s.rel with dieLinks := s.rel.dieLinks.filter (· ≠ link) } }
    exec (.dieLinkTrainingComplete link) s = .next (n.reinstated (0x4000 + link) 0))

/-- Supplies and adaptive voltage (R505, R507 to R511, R523, R524): setpoints that are asked for and may wait, steps, warnings, the reset of a rail that
falls. The setpoint that a clock needs is a free value (log 114). -/
def Obligations.SuppliesAct : Prop :=
  (∀ (d cur : Nat) (s : State), s.runs → exec (.avsCurrentRead d cur) s = .next (s.setSup d { s.sup d with imeas := cur })) ∧
  (∀ (d k : Nat) (s : State), (s.sup d).warn = true → s.askSetpoint d k = s.setSup d { s.sup d with goal := some k }) ∧
  (∀ (d k : Nat) (s : State), (s.sup d).warn = false →
    let waits := k < (s.sup d).setpoint ∧ k < Config.clockNeeds d (s.islandMhz d)
    s.askSetpoint d k = if waits then s.setSup d { s.sup d with goal := some k } else (s.setSup d { s.sup d with goal := none }).setpoint d k) ∧
  (∀ (d : Nat) (margin : Int) (s : State), s.runs → d < 10 → s.avsOn d = true → (s.sup d).goal = none →
    (∀ t, (s.sup d).lastStep = some t → t + 4096 ≤ s.now) →
    let k := (s.sup d).setpoint
    let go := fun (n : Nat) => (s.askSetpoint d n).setSup d { (s.askSetpoint d n).sup d with lastStep := some (s.askSetpoint d n).now }
    (8 ≤ margin → s.vmin d < k → exec (.adaptiveVoltageStep d margin) s = .next (go (k - 1))) ∧
    (margin < 4 → k < s.vmax d → exec (.adaptiveVoltageStep d margin) s = .next (go (k + 1))) ∧
    (4 ≤ margin → margin < 8 → exec (.adaptiveVoltageStep d margin) s = .next s)) ∧
  (∀ (d t : Nat) (reported : Bool) (s : State), s.runs → (s.sup d).raisedAt = some t → reported = true ∨ t + 20000 ≤ s.now →
    let x := s.sup d
    exec (.setpointReached d reported) s =
      .next (s.setSup d { x with raisedAt := none, vwarn := warnMv x.setpoint, vrst := rstMv x.setpoint }).pinClocks) ∧
  (∀ (d mv : Nat) (s : State), s.runs → d < 10 → mv < (s.sup d).vwarn →
    let n := ((s.setSup d { s.sup d with warn := true, crossAt := s.now }).latch none attnSupply).tick .cntPwrWarnCnt d
    exec (.vwarnCrossing d mv) s = .next (n.event 0x1300 d 0xFF (detailOf [(4, (s.sup d).setpoint), (4, n.now % 2 ^ 32)]))) ∧
  (∀ (d mv above ok : Nat) (margin : Int) (s : State), s.runs →
    let x := s.sup d
    let n := s.fld .pwrDroop 0 0 9 2
    let warnEnds := decide (x.vwarn ≤ mv ∧ n ≤ above ∧ x.crossAt + above ≤ s.now)
    let timingEnds := decide (4 ≤ margin ∧ n ≤ ok ∧ x.timingAt + ok ≤ s.now)
    exec (.stretchRelease d mv above margin ok) s =
      .next (s.setSup d { x with warn := x.warn && !warnEnds, timing := x.timing && !timingEnds }).releaseHeld.goalsDue) ∧
  (∀ (d mv : Nat) (s : State), s.runs → d < 10 → mv < (s.sup d).vrst →
    let n := s.warmReset 11 d
    exec (.vrstCrossing d mv) s =
      .next { n with power := { n.power with boot9 := n.power.boot9 ++ [(0x1301, d, (s.sup d).setpoint)] } }) ∧
  (∀ (d cause : Nat) (s : State), exec (.pwrRegFault d cause) s = .next (s.event 0x1302 d 0xFF (detailOf [(2, cause), (6, 0)]))) ∧
  (∀ (d : Nat) (s : State), s.runs → s.head.step = 1 →
    exec (.supplyRangeTimeout d) s = .next { s with head := { s.head with dead := true }, power := { s.power with bootFail := d + 1 } })

/-- The reference clock (R514 to R516, R523, R524) and the adaptive clocks (R515, R516, R523, R524). -/
def Obligations.ClocksMove : Prop :=
  (∀ s : State, s.power.ref.mainOk = true →
    let f := { s.power.ref with mainOk := false, mainLost := s.now }
    let g := if f.redOk then f else { f with lostAt := some s.now }
    let n := { s with power := { s.power with ref := g } }
    exec (.refInputLost false) s = .next (if f.red = false ∧ f.redOk then n.refTo true else n)) ∧
  (∀ s : State, s.power.ref.redOk = true →
    let f := { s.power.ref with redOk := false }
    let g := if f.mainOk then f else { f with lostAt := some s.now }
    let n := { s with power := { s.power with ref := g } }
    exec (.refInputLost true) s = .next (if f.red ∧ f.mainOk then n.refTo false else n)) ∧
  (∀ (good : Nat) (s : State), 0 < good → s.power.ref.mainLost + good ≤ s.now →
    let n := { s with power := { s.power with ref := { s.power.ref with mainOk := true, lostAt := none } } }
    exec (.refRevert good) s = .next (
      if s.power.ref.red ∧ (s.power.ref.redOk = false ∨ (s.fld .pwrRef 0 0 3 3 = 1 ∧ 2 ^ 24 ≤ good)) then n.refTo false else n)) ∧
  (∀ (t : Nat) (s : State), s.power.ref.lostAt = some t → t + 2 ^ 20 ≤ s.now →
    let n := s.warmReset 12 0
    exec .refHoldExpiry s = .next { n with power := { n.power with ref := { n.power.ref with lostAt := none } } }) ∧
  (∀ (die limit : Nat) (s : State), s.runs → die < 8 → s.adaptive = true → (∀ t, (s.heat die).lastClk = some t → t + 4096 ≤ s.now) →
    let x := s.heat die
    let top := min s.tileMax limit / 25 * 25
    let goal := if s.power.dies.any (fun y => decide (1 ≤ y.stage)) then top else max s.tileMhz top
    exec (.adaptiveClockStep die limit) s = .next (
      if x.mhz < goal ∧ x.stage = 0 ∧ (s.sup die).stretched = false then
        (if s.clockFits die (min goal (x.mhz + 25)) then s.setHeat die { x with mhz := min goal (x.mhz + 25), lastClk := some s.now } else s)
      else if goal < x.mhz ∧ 800 < x.mhz then (s.setHeat die { x with mhz := max (max goal 800) (x.mhz - 25), lastClk := some s.now }).goalsDue
      else s)) ∧
  (∀ (d : Nat) (margin : Int) (s : State), s.runs → d < 10 → s.adaptive = false → margin < 2 → (s.sup d).setpoint = s.vmax d →
    (s.sup d).timing = false →
    let n := s.setSup d { s.sup d with timing := true, timingAt := s.now }
    exec (.timingEmergency d margin) s = .next (n.event 0x1304 d 0xFF (detailOf [(4, wrapI 8 margin), (4, n.epoch)])))

/-- Heat (R517 to R522, R539): a trip above the limit, stages below it, the restore, stacks, diodes, and the power cap's period. -/
def Obligations.HeatActs : Prop :=
  (∀ (die : Nat) (ds : List (Option Int)) (s : State), s.pins.held = false → die < 10 → SMap.getD (fun _ => []) s.mgmt.gauge die = ds → ds.filterMap id ≠ [] →
    let ok := ds.filterMap id
    let temp := ok.foldl max (ok.headD 0)
    let x := s.heat die
    (115 ≤ temp → exec (.thermalReading die) s = .next ((s.setHeat die { x with temp := temp }).tripAt die temp)) ∧
    (temp < 115 →
      let g := heatStage x.stage temp
      let low := s.adaptive && decide (die < 8) && decide (100 ≤ temp) && decide (800 < x.mhz)
      let y := { x with stage := g, temp := temp, mhz := if low then max 800 (x.mhz - 25) else x.mhz
                        lowered := decide (1 ≤ g) && (x.lowered || low) }
      let n := (s.setHeat die y).releaseHeld.pinClocks
      exec (.thermalReading die) s = .next (
        if g = x.stage then n else n.event 0x1305 die 0xFF (detailOf [(1, g), (1, wrapI 8 temp), (2, 0), (4, n.epoch)])))) ∧
  (∀ (die : Nat) (ds : List (Option Int)) (s : State), s.pins.held = false → die < 10 → SMap.getD (fun _ => []) s.mgmt.gauge die = ds → ds ≠ [] →
    ds.filterMap id = [] →
    let x := s.heat die
    let low := s.adaptive && decide (die < 8) && decide (800 < x.mhz)
    let y := { x with stage := 2, mhz := if low then max 800 (x.mhz - 25) else x.mhz, lowered := x.lowered || low }
    let n := (s.setHeat die y).releaseHeld.pinClocks
    exec (.thermalReading die) s = .next (
      if x.stage = 2 then n else n.event 0x1305 die 0xFF (detailOf [(1, 2), (1, wrapI 8 x.temp), (2, 0), (4, n.epoch)]))) ∧
  (∀ (temps : List Int) (sts : List Nat) (u : Nat) (t : Int) (s : State), s.power.trip = some (u, t) → temps.length = 10 → sts.length = 12 →
    (∀ x ∈ temps, x < 90) → (∀ x ∈ sts, x < 80) →
    let up := s.pins.coldN && s.pins.auxPg
    let p := { s.pins with thermTripN := true, coreEn := up, held := !up, straps := s.pins.pinStraps }
    let w := { s.power with trip := none, boot9 := s.power.boot9 ++ [(0x1306, u, wrapI 8 t)] }
    exec (.tripRestore temps sts) s = .next (State.putStraps { s with pins := p, power := w } s.pins.pinStraps)) ∧
  (∀ (stack temp : Nat) (s : State), s.pins.held = false → stack < 12 →
    let x := nth s.mem.stk stack {}
    (105 ≤ temp → exec (.stackTemperatureReport stack temp) s =
      .next (State.tripAt { s with mem := { s.mem with stk := setNth s.mem.stk stack { x with temp := temp } } } (0x10 + stack) temp)) ∧
    (temp < 105 →
      let hot := decide (95 ≤ temp) || (x.hot && decide (92 ≤ temp))
      let n := { s with mem := { s.mem with stk := setNth s.mem.stk stack { x with temp := temp, hot := hot } } }
      exec (.stackTemperatureReport stack temp) s = .next (
        if hot = x.hot then n else n.event 0x1305 (0x10 + stack) 0xFF (detailOf [(1, b2n hot), (1, temp), (2, 0), (4, n.epoch)])))) ∧
  (∀ (die : Nat) (temps : List (Option Int)) (s : State), die < 10 → temps.length = (if die < 8 then 12 else 20) →
    let was := SMap.getD (fun _ => []) s.mgmt.gauge die
    let anew := ((List.range temps.length).filter (fun i => (nth temps i (some 0)).isNone && (nth was i (some 0)).isSome)).length
    let n := s.count .cntGaugeDiodeFailCnt 0 anew
    exec (.gaugeSample die temps) s = .next { n with mgmt := { n.mgmt with gauge := n.mgmt.gauge.put die temps } }) ∧
  (∀ (core : Nat) (share cur : List Nat) (s : State), s.runs → s.head.step = 9 →
    let e := 2 ^ s.fld .pwrCap 0 0 19 16
    let pj := s.fld .pwrShed 0 0 7 0
    let p := s.powerUw core share
    let hubs := [s.hub 0, s.hub 1]
    let n := (hubs.map WeirHub.optUnits).sum
    let hot := s.power.dies.any (fun x => decide (1 ≤ x.stage) && !x.lowered)
    let above := (List.range 10).any (fun d => decide ((if d < 8 then 190000 else 380000) < nth cur d 0))
    let was := (s.hub 0).throttle
    let c := capLoop (e * s.epochLen) s.epochLen e pj s.capWatts (s.fld .pwrShed 0 0 19 8) p n (hubs.map WeirHub.admitted).sum
      (hubs.map WeirHub.demand).sum hot above was (s.hub 0).rate
    let a := { s with power := { s.power with
      pAvg := p / 1000000, pMand := (p * (e * s.epochLen) - n * pj * 1000) / (e * s.epochLen * 1000000), thermalCap := c.thermal } }
    let m := (List.range 2).foldl (fun s h => s.setHub h { s.hub h with
      credit := some c.credit, throttle := c.active, rate := c.rate, admitted := 0, demand := 0, optUnits := 0
      left := if was then (s.hub h).left else c.rate, shedRefused := if c.active then (s.hub h).shedRefused else 0 }) a
    exec (.capPeriodEnd core share cur) s = .next (
      if was = false ∧ c.active then m.event 0x0503 0xFFFF 0xFF (detailOf [(4, c.rate), (4, m.epoch)])
      else if was ∧ c.active = false then m.event 0x0504 0xFFFF 0xFF (detailOf [(4, sat32 (hubs.map WeirHub.shedRefused).sum), (4, m.epoch)])
      else m))

/-- MCTP and PLDM (R529 to R531, R535, R536): a packet of one message goes to its binding, the control commands are answered, and the messages
of PLDM types 0 and 2: identity, commands, sensors, records. -/
def Obligations.MgmtServes : Prop :=
  (∀ (b : Nat) (pkt : List Byte) (s : State), b ≤ 1 → (b = 1 → s.fld .mgmtCfg 0 0 0 0 ≠ 0 ∧ s.mgmt.link = true) → 5 ≤ pkt.length →
    pkt.length ≤ (if b = 1 then 1028 else 68) → leAt pkt 0 1 % 16 = 1 → leAt pkt 1 1 = 0 ∨ leAt pkt 1 1 = s.mgmt.eid →
    bit (leAt pkt 3 1) 7 = true → bit (leAt pkt 3 1) 6 = true →
    let key := b * 65536 + leAt pkt 2 1 * 256 + leAt pkt 3 1 % 16
    exec (.mctpPacket b pkt) s =
      .next (State.takeMessage { s with mgmt := { s.mgmt with asm_ := s.mgmt.asm_.del key } } b (leAt pkt 1 1) (pkt.drop 4))) ∧
  (∀ (b : Nat) (m : List Byte) (s : State),
    (s.asked b (0, 0, 1) m → leAt m 3 1 % 4 ≤ 1 → 8 ≤ leAt m 4 1 → leAt m 4 1 ≠ 0xFF →
      let n := { s with mgmt := { s.mgmt with eid := leAt m 4 1 } }
      exec (.setEndpointId b) s = .next (n.answered b (controlReply m 0 (leBytes 1 0 ++ leBytes 1 (leAt m 4 1) ++ leBytes 1 0)))) ∧
    (s.asked b (0, 0, 2) m → exec (.getEndpointId b) s = .next (s.answered b (controlReply m 0 (leBytes 1 s.mgmt.eid ++ leBytes 2 0)))) ∧
    (s.asked b (0, 0, 3) m → exec (.getEndpointUuid b) s = .next (s.answered b (controlReply m 0 Config.uuid))) ∧
    (s.asked b (0, 0, 4) m → exec (.getMctpVersionSupport b) s = .next (s.answered b (controlReply m 0 (Config.mgmtBody 0x0004 m)))) ∧
    (s.asked b (0, 0, 5) m → exec (.getMessageTypeSupport b) s =
      .next (s.answered b (controlReply m 0 (leBytes 1 3 ++ leBytes 1 0x01 ++ leBytes 1 0x05 ++ leBytes 1 0x7F)))) ∧
    (s.asked b (0, 0, 6) m → exec (.getVendorDefinedMessageSupport b) s = .next (s.answered b (
      if leAt m 3 1 = 0 then controlReply m 0 (leBytes 1 0xFF ++ leBytes 1 1 ++ ianaBytes ++ leBytes 2 0) else controlReply m 0x02 [])))) ∧
  (∀ (addr : Nat) (s : State), 1 ≤ addr → addr < 0x7E →
    exec (.dynamicAddressAssignment addr) s = .next { s with mgmt := { s.mgmt with i3cAddr := addr, i3cDyn := true } }) ∧
  (∀ (up : Bool) (s : State), exec (.sgmiiLinkChange up) s = .next { s with mgmt := { s.mgmt with link := up } }) ∧
  (∀ (b : Nat) (m : List Byte) (s : State),
      (s.asked b (1, 0, 2) m → exec (.getTid b) s = .next (s.answered b (pldmReply m 0 (Config.mgmtBody 0x0102 m)))) ∧
      (s.asked b (1, 0, 3) m → exec (.getPldmVersion b) s = .next (s.answered b (pldmReply m 0 (Config.mgmtBody 0x0103 m)))) ∧
      (s.asked b (1, 0, 4) m → exec (.getPldmTypes b) s = .next (s.answered b (pldmReply m 0 (leBytes 8 0x25)))) ∧
      (s.asked b (1, 0, 5) m → leAt m 4 1 = 0 ∨ leAt m 4 1 = 2 ∨ leAt m 4 1 = 5 → exec (.getPldmCommands b) s = .next (s.answered b
        (pldmReply m 0 (leBytes 32 (bitmap ((List.range 256).map (fun c => servedMsgs.contains (1, leAt m 4 1, c) && (leAt m 4 1, c) != (2, 4)))))))) ∧
      (∀ v : Option Int, s.asked b (1, 2, 0x11) m → s.numericSensor (leAt m 4 2) = some v → exec (.getSensorReading b) s = .next (s.answered b
        (pldmReply m 0 (leBytes 1 5 ++ leBytes 1 (if v.isSome then 0 else 2) ++ leBytes 4 0 ++ leBytes 4 (wrapI 32 (v.getD 0)))))) ∧
      (∀ v : Option Nat, s.asked b (1, 2, 0x21) m → s.stateSensor (leAt m 4 2) = some v → exec (.getStateSensorReadings b) s = .next (s.answered b
        (pldmReply m 0 (leBytes 1 1 ++ leBytes 1 (if v.isSome then 0 else 2) ++ leBytes 2 (v.getD 0))))) ∧
      (s.asked b (1, 2, 0x50) m → exec (.getPdrRepositoryInfo b) s = .next (s.answered b (pldmReply m 0 (Config.mgmtBody 0x0250 m)))) ∧
      (s.asked b (1, 2, 0x51) m → exec (.getPdr b) s = .next (s.answered b (pldmReply m 0 (Config.mgmtBody 0x0251 m)))) ∧
      (s.asked b (1, 2, 0x04) m → exec (.setEventReceiver b) s = .next (s.answered b (pldmReply m 0x05 []))))

/-- A firmware update (R537, R538): what the update agent asks, up to the activation, and what the device sends: data requests, and the ends of
transfer, verification and application. -/
def Obligations.UpdateRuns : Prop :=
  (∀ (b : Nat) (m : List Byte) (s : State),
      let f := s.mgmt.fwup
      (s.asked b (1, 5, 0x01) m → exec (.queryDeviceIdentifiers b) s = .next (s.answered b (pldmReply m 0 Config.fwIdentifiers))) ∧
      (s.asked b (1, 5, 0x02) m → exec (.getFirmwareParameters b) s = .next (s.answered b (pldmReply m 0 (Config.mgmtBody 0x0502 m)))) ∧
      (s.asked b (1, 5, 0x10) m → s.fld .mgmtCfg 0 0 1 1 ≠ 0 → f.state = 0 → s.sec.approved = true →
        let g := { f with state := 1, prev := 0, binding := b, applied := false, verified := false }
        exec (.requestUpdate b) s = .next ((s.setFwup g).answered b (pldmReply m 0 (leBytes 3 0)))) ∧
      (s.asked b (1, 5, 0x13) m → f.state = 1 →
        let last := leAt m 4 1 = 4 ∨ leAt m 4 1 = 5
        let known := leAt m 5 2 = 0x000A ∧ leAt m 7 2 = 1
        exec (.passComponentTable b) s = .next ((if last then s.setFwup { f with state := 2, prev := 1 } else s).answered b
          (pldmReply m 0 (leBytes 1 (if known then 0 else 1) ++ leBytes 1 (if known then 0 else 6))))) ∧
      (s.asked b (1, 5, 0x14) m → f.state = 2 → leAt m 13 4 < 0x0F800000 → leAt m 4 2 = 0x000A → leAt m 6 2 = 1 →
        let n := { s with head := { s.head with flash := setNth s.head.flash s.fwupDev [] } }
        let g := { f with state := 3, prev := 2, size := leAt m 13 4, offset := 0, verified := false, applied := false, pending := false }
        exec (.updateComponent b) s = .next ((n.setFwup g).answered b (pldmReply m 0 (leBytes 8 0)))) ∧
      (s.asked b (1, 5, 0x1A) m → f.state = 2 → f.applied = true → leAt m 4 1 = 0 →
        let n := s.setFwup { f with state := 0, prev := 2, pending := true }
        exec (.activateFirmware b) s = .next ((n.event 0x1400 0xFFFF 0xFF (detailOf
          [(1, s.fwupDev), (3, 0), (4, (imageOfBytes (nth n.head.flash s.fwupDev [])).imageVersion)])).answered b (pldmReply m 0 (leBytes 2 0)))) ∧
      (s.asked b (1, 5, 0x1B) m → exec (.getStatus b) s = .next (s.answered b (pldmReply m 0
        (leBytes 1 f.state ++ leBytes 1 f.prev ++ leBytes 1 3 ++ leBytes 1 0 ++ leBytes 1 0x65 ++ leBytes 5 0)))) ∧
      (s.asked b (1, 5, 0x1D) m → f.state ≠ 0 → exec (.cancelUpdate b) s = .next ((s.fwupFail 1 0).answered b (pldmReply m 0 (leBytes 9 0))))) ∧
  (∀ (b : Nat) (s : State), s.mgmt.fwup.binding = b →
      let f := s.mgmt.fwup
      (∀ data : Option (List Byte), f.state = 3 → f.offset < f.size →
        let k := min (f.size - f.offset) 1024
        let d := (data.getD []).take k
        let n := s.mgmtSend b (fwupRequest 0x15 (leBytes 4 f.offset ++ leBytes 4 k))
        let m := { n with head := { n.head with flash := setNth n.head.flash n.fwupDev (nth n.head.flash n.fwupDev [] ++ d) } }
        exec (.requestFirmwareData b data) s = .next (m.setFwup { f with offset := f.offset + d.length })) ∧
      (f.state = 3 → f.size ≤ f.offset →
        exec (.transferComplete b) s = .next ((s.mgmtSend b (fwupRequest 0x16 (leBytes 1 0))).setFwup { f with state := 4, prev := 3 })) ∧
      (f.state = 4 →
        let k := s.imageFault s.fwupDev 6
        let n := s.mgmtSend b (fwupRequest 0x17 (leBytes 1 (if k = 0 then 0 else 1)))
        exec (.verifyComplete b) s = .next (if k = 0 then n.setFwup { f with state := 5, prev := 4, verified := true } else n.fwupFail 2 k)) ∧
      (f.state = 5 → exec (.applyComplete b) s =
        .next ((s.mgmtSend b (fwupRequest 0x18 (leBytes 3 0))).setFwup { f with state := 2, prev := 5, applied := true })))

/-- Register accesses (R493, R532, R546 to R548, R550, R551): an accepted write, a refused one, and the latch of a read. -/
def Obligations.RegistersAnswer : Prop :=
  (∀ (path tenant addr mask value : Nat) (s n : State), s.writeWord path tenant addr mask value = .ok n →
    exec (.registerWrite path tenant addr mask value) s = .next n) ∧
  (∀ (path tenant addr mask value rc d : Nat) (s : State), s.writeWord path tenant addr mask value = .error (rc, d) →
    let n := s.writeRefused path tenant addr
    exec (.registerWrite path tenant addr mask value) s =
      .next { n with mgmt := { n.mgmt with refused := n.mgmt.refused ++ [(path, addr, rc, d)] } }) ∧
  (∀ (path tenant addr v : Nat) (s n : State), s.readWord path tenant addr = .ok (v, n) → exec (.word0ReadLatch path tenant addr) s = .next n) ∧
  (∀ value : Nat, ∀ s : State, bit value 1 = true → exec (.mgmtColdReset value) s = .next (s.coldReset 3 0)) ∧
  (∀ value : Nat, ∀ s : State, bit value 1 = false → bit value 0 = true → exec (.mgmtWarmReset value) s = .next (s.warmReset 7 0))

/-- The pins and the test port (R554, R567 to R571): resets that are held and released, power, and the test instructions. -/
def Obligations.PinsAct : Prop :=
  (∀ s : State, s.pins.coldN = true →
    exec .coldRstNAssert s = .next (State.holdCold { s with pins := { s.pins with coldN := false } })) ∧
  (∀ s : State, s.pins.coldN = false → s.pins.auxPg = true → s.power.trip = none →
    let p := { s.pins with coldN := true, coreEn := true, held := false, straps := s.pins.pinStraps }
    exec .coldRstNDeassert s = .next (State.putStraps { s with pins := p } s.pins.pinStraps)) ∧
  (∀ s : State, s.pins.auxPg = true → exec .auxPgFall s = .next (State.holdCold { s with pins := { s.pins with auxPg := false } })) ∧
  (∀ s : State, s.pins.auxPg = false → s.pins.coldN = true → s.power.trip = none →
    let p := { s.pins with auxPg := true, coreEn := true, held := false, straps := s.pins.pinStraps }
    exec .auxPgRise s = .next (State.putStraps { s with pins := p } s.pins.pinStraps)) ∧
  (∀ s : State, s.pins.warmN = true → s.pins.held = false →
    let n := State.warmReset { s with pins := { s.pins with warmN := false } } 6 0
    exec .warmRstNAssert s = .next { n with pins := { n.pins with warmHeld := true } }) ∧
  (∀ s : State, exec .warmRstNDeassert s = .next { s with pins := { s.pins with warmN := true, warmHeld := false } }) ∧
  (∀ s : State, exec .trstNAssert s = .next { s with pins := { s.pins with trstN := false, ir := 0 } }) ∧
  (∀ s : State, exec .trstNDeassert s = .next { s with pins := { s.pins with trstN := true } }) ∧
  (∀ s : State, s.pins.trstN = true →
    let ir := fun (k : Nat) => ({ s with pins := { s.pins with ir := k } } : State)
    exec .jtagBypass s = .next (ir 0) ∧ exec .jtagSamplePreload s = .next (ir 1) ∧ exec .jtagExtest s = .next (ir 2) ∧
    exec .jtagExtestPulse s = .next (ir 3) ∧ exec .jtagExtestTrain s = .next (ir 4) ∧ exec .jtagClamp s = .next (ir 5) ∧
    exec .jtagHighz s = .next (ir 6)) ∧
  (∀ (straps : List Nat) (flash : List (List Byte)) (s : State),
    ∃ t : State, exec (.powerUp straps flash) s = .next t ∧ t.pins.held = true ∧ t.pins.coldN = false ∧ t.pins.auxPg = false ∧
      t.pins.coreEn = false ∧ t.head.flash = flash ∧ t.mem.stk = List.replicate 12 {})

/-- TOP_ID (R576): the one register of block 0x00 shows its constant with the fused grade on every path and in every state, from power-up on; it is
RO, so a write leaves everything; every other address of the block lies in no register. -/
def Obligations.TopIdReads : Prop :=
  (∀ (path tenant : Nat) (s : State),
    s.readWord path tenant 0 = .ok (0x0A771100 + 16 * s.fuse.grade, s) ∧
    (s.fuse.grade = 1 → s.readWord path tenant 0 = .ok (0x0A771110, s)) ∧ (s.fuse.grade = 2 → s.readWord path tenant 0 = .ok (0x0A771120, s))) ∧
  (∀ (path tenant mask value : Nat) (s : State), s.writeWord path tenant 0 mask value = .ok s) ∧
  (∀ addr : Nat, 0 < addr → addr < 2 ^ 24 → locate addr = none)

/-- Addresses in no register, and addresses in no block (R550): the first read as 0 and refuse a write; the second refuse a whole command, whose
DETAIL names the first word at fault. -/
def Obligations.UnlistedAddresses : Prop :=
  (∀ (path tenant addr : Nat) (s : State), addr / 2 ^ 24 < 0x1A → locate addr = none → s.answers (addr / 2 ^ 24) = true →
    s.readWord path tenant addr = .ok (0, s) ∧ ∀ mask value : Nat, s.writeWord path tenant addr mask value = .error (rcOk, 0x18)) ∧
  (∀ (path tenant addr : Nat) (s : State), addr / 2 ^ 24 = 0x1A → 2 ^ 21 ≤ addr % 2 ^ 24 → s.answers 0x1A = true →
    s.readWord path tenant addr = .ok (0, s) ∧ ∀ mask value : Nat, s.writeWord path tenant addr mask value = .error (rcOk, 0x18)) ∧
  (∀ (path tenant addr mask value : Nat) (s : State), 0x1A < addr / 2 ^ 24 →
    s.readWord path tenant addr = .error (rcOk, 0x17) ∧ s.writeWord path tenant addr mask value = .error (rcOk, 0x17)) ∧
  (∀ (c : HwCmd) (l : List HwCmd) (i : Nat) (w : List Byte) (m s : State), s.runs → s.firstCmd 0x0001 c l → c.cmd.body.length = 8 →
    let a := leAt c.cmd.body 0 4
    let k := leAt c.cmd.body 4 4
    a % 4 = 0 → i < k → k ≤ 1024 → (s.leaving l).readWords c.path c.cmd.tenant a i 0 [] = .ok (w, m) → 0x1A < (a + 4 * i) / 2 ^ 24 →
    exec .readReg s = .next (State.endCmd c { st := s.leaving l, detail := 0x17 + 256 * min i 255 })) ∧
  (∀ (c : HwCmd) (l : List HwCmd) (s : State), s.runs → s.firstCmd 0x0002 c l → c.cmd.body.length = 16 → leAt c.cmd.body 12 4 = 0 →
    0x1A < leAt c.cmd.body 0 4 / 2 ^ 24 →
    exec .writeReg s = .next (State.endCmd c { st := s.leaving l, detail := 0x17 }))

/-- Performance counters over the resets (R541): a cold reset clears all, a warm reset all but those of Reliability, kept with the fault windows; a
single-tile reset clears none: as it begins only the end of the work on the unit counts, and as it ends only the counts of entries written can rise, as
the images are written again. -/
def Obligations.CountersClear : Prop :=
  (∀ (cause unit : Nat) (n : RegName) (copy : Nat) (s : State), (s.coldReset cause unit).cnt n copy = 0) ∧
  (∀ (cause domain : Nat) (n : RegName) (copy : Nat) (s : State), s.canon → copy < 2 ^ 26 →
    (s.warmReset cause domain).cnt n copy = (if n = .cntRelCnt then s.cnt n copy else 0) ∧ (s.warmReset cause domain).rel.wins = s.rel.wins) ∧
  (∀ (unit : Nat) (n : RegName) (copy : Nat) (s t : State), exec (.unitReset unit) s = .next t →
    (s.runs → s.canReset unit = true → t.cnt n copy = (s.endWork unit).cnt n copy) ∧ (¬ s.runs ∨ s.canReset unit = false → t.cnt n copy = s.cnt n copy)) ∧
  (∀ (unit : Nat) (n : RegName) (copy : Nat) (s t : State), copy < 2 ^ 26 → (n = .cntMuCnt → copy % 5 ≠ 1) → exec (.relUnitReset unit true) s = .next t →
    t.cnt n copy = s.cnt n copy)

/-- A missing feature is not read (R36): two vectors with the same mask that agree in every feature not missing, by mask or as an F32 NaN, give
every tree the same leaf and every selector the same search key. -/
def Obligations.MissingUnread : Prop :=
  ∀ (ft : FTable) (v w : List Byte),
    let masked := fun (x : List Byte) (f : Nat) => bit (leAt x (featBytes ft + f / 8) 1) (f % 8)
    let value := fun (x : List Byte) (f : Nat) => leAt x (featOffset ft f) (featWidth (nth ft f 0))
    (∀ f : Nat, masked v f = masked w f ∧ (masked v f = false →
      value v f = value w f ∨ (featDomain (nth ft f 0) = 4 ∧ fNan (value v f) = true ∧ fNan (value w f) = true))) →
    (∀ (img spill : List DWord) (leaves : List Nat) (f32 : Bool) (e : DirEntry),
      evalEntry ft img leaves spill v f32 e = evalEntry ft img leaves spill w f32 e) ∧
    (∀ (img : MuImage) (sel : Nat), searchKey img ft v sel = searchKey img ft w sel)

/-- A false guard (R200): in a lane whose guard is false an instruction leaves everything, and it still costs its cycles; LOOP and ENDL leave
every lane and act for the batch, and the load check refuses one that names a guard. -/
def Obligations.FalseGuardDoesNothing : Prop :=
  (∀ c ∈ veGuarded, ∀ (hub engine : Nat) (r : VeRun) (s t : State), s.runs → (s.veHub hub).runs.find? engine = some r →
    exec (c hub engine) s = .next t → t = s ∨ ∃ q : VeRun, (t.veHub hub).runs.find? engine = some q ∧
      q.cycles = r.cycles + vCycles r.ins ∧ q.lanes.length = r.lanes.length ∧
      ∀ (k : Nat) (l : Lane), r.lanes[k]? = some l → l.guard r.ins = false → q.lanes[k]? = some l) ∧
  (∀ c ∈ ([.veLoop, .veEndl] : List (Nat → Nat → Instr)), ∀ (hub engine : Nat) (r : VeRun) (s t : State), s.runs →
    (s.veHub hub).runs.find? engine = some r → exec (c hub engine) s = .next t →
    ∃ q : VeRun, (t.veHub hub).runs.find? engine = some q ∧ q.lanes = r.lanes) ∧
  (∀ (i : VIns) (inner : Option (Nat × Nat)), i.op = 0x02 ∨ i.op = 0x03 → i.pg ≠ 0 ∨ i.pn ≠ 0 → insR209 i inner = false)

/-- The frame of the vector engines' instructions: nothing changes but the run of the engine that is named. -/
def Obligations.VeCommandsFrame : Prop :=
  ∀ c ∈ veGuarded ++ [.veLoop, .veEndl], ∀ (hub engine : Nat) (s t : State), exec (c hub engine) s = .next t →
    (∃ v : List VeHub, t = { s with ve := v }) ∧
    (∀ h : Nat, (t.veHub h).batches = (s.veHub h).batches) ∧
    (∀ h e : Nat, h ≠ hub ∨ e ≠ engine → (t.veHub h).runs.find? e = (s.veHub h).runs.find? e)

/-- What a whole sector's write leaves in memory (R437, R441): every copy on a stack that works holds the data; and of a write or a read, every
byte outside the sector's copies is as before (where the memory is canonical, which every step keeps). -/
def Obligations.SectorsFrame : Prop :=
  (∀ (writer hub addr who o : Nat) (data : List Byte) (s : State), s.runs → s.canon → s.mem.erased = true → s.ownerOf addr = some o → data.length = 512 →
    (s.copies hub addr).any (fun c => s.memHeld (c.1 / 6)) = false →
    ∃ t : State, exec (.sectorWrite writer hub addr who (data.map some)) s = .next t ∧ ∀ c ∈ s.copies hub addr, t.mem.plain c = data) ∧
  (∀ (writer hub addr who : Nat) (data : List (Option Byte)) (s t : State), s.canon → exec (.sectorWrite writer hub addr who data) s = .next t →
    ∀ a : Nat, (∀ c ∈ s.copies hub addr, a < copyName c * 512 ∨ copyName c * 512 + 512 ≤ a) → Memory.read t.mem.data a = Memory.read s.mem.data a) ∧
  (∀ (reader hub addr who : Nat) (own other : Bool) (s t : State), s.canon → exec (.sectorRead reader hub addr who own other) s = .next t →
    ∀ a : Nat, (∀ c ∈ s.copies hub addr, a < copyName c * 512 ∨ copyName c * 512 + 512 ≤ a) → Memory.read t.mem.data a = Memory.read s.mem.data a)

/-- The stored bytes of memory change only by sector accesses, error reports that read sectors, the erase, the scrub, and what can reset the device
cold: no other command changes one. -/
def Obligations.MemoryKept : Prop :=
  ∀ (c : Instr) (s t : State), c.movesMemory = false → exec c s = .next t → t.mem.data = s.mem.data
end

