-- ==== Sys2Proof/Laws/Memory.lean ====
section
/-! SUPPORT. Laws of the sparse stores: every operation keeps the canonical form, a read after a write to the same key gives the value
written, and a write leaves every other key alone; the same for the bytes of a memory. -/

namespace Sys2Proof.Machine

variable {α : Type}

/-! ### Reading after writing -/

theorem SMap.find_put_self (m : SMap α) (k : Nat) (v : α) : (m.put k v).find? k = some v := by
  induction m with
  | nil => simp [SMap.put, SMap.find?]
  | cons e m ih =>
    simp only [SMap.put]
    split
    · simp [SMap.find?]
    · split
      · simp [SMap.find?]
      · rename_i h1 h2
        rw [SMap.find?, if_neg h2, if_neg h1, ih]

theorem SMap.find_put_ne (m : SMap α) (k j : Nat) (v : α) (h : j ≠ k) : (m.put k v).find? j = m.find? j := by
  induction m with
  | nil => simp [SMap.put, SMap.find?, h]
  | cons e m ih =>
    simp only [SMap.put]
    split
    · simp only [SMap.find?, if_neg h]
      split
      · rw [if_neg (by omega), if_pos (by omega)]
      · rfl
    · split
      · subst_vars; simp only [SMap.find?, if_neg h]
      · simp only [SMap.find?, ih]

theorem SMap.find_put (m : SMap α) (k j : Nat) (v : α) : (m.put k v).find? j = if j = k then some v else m.find? j := by
  split
  · subst_vars; exact SMap.find_put_self m _ v
  · exact SMap.find_put_ne m k j v (by assumption)

/-! ### The canonical form -/

theorem SMap.above_mono (m : SMap α) {a b : Nat} (h : a ≤ b) (hm : m.above b = true) : m.above a = true := by
  cases m with
  | nil => rfl
  | cons e m =>
    simp only [SMap.above, Bool.and_eq_true, decide_eq_true_eq] at hm ⊢
    exact ⟨by omega, hm.2⟩

theorem SMap.wf_of_above (m : SMap α) {lo : Nat} (h : m.above lo = true) : m.wf = true := by
  cases m with
  | nil => rfl
  | cons e m => simp only [SMap.above, Bool.and_eq_true] at h; exact h.2

theorem SMap.find_above (m : SMap α) {lo k : Nat} (hm : m.above lo = true) (hk : k ≤ lo) : m.find? k = none := by
  cases m with
  | nil => rfl
  | cons e m =>
    simp only [SMap.above, Bool.and_eq_true, decide_eq_true_eq] at hm
    rw [SMap.find?, if_neg (by omega), if_pos (by omega)]

theorem SMap.put_above (m : SMap α) {lo k : Nat} (v : α) (hm : m.above lo = true) (hk : lo < k) : (m.put k v).above lo = true := by
  induction m generalizing lo with
  | nil => simp [SMap.put, SMap.above, hk]
  | cons e m ih =>
    simp only [SMap.above, Bool.and_eq_true, decide_eq_true_eq] at hm
    simp only [SMap.put]
    split
    · simp [SMap.above, *]
    · split
      · subst_vars; simp [SMap.above, hm.1, hm.2]
      · simp only [SMap.above, Bool.and_eq_true, decide_eq_true_eq]
        exact ⟨hm.1, ih hm.2 (by omega)⟩

theorem SMap.put_wf (m : SMap α) (k : Nat) (v : α) (hm : m.wf = true) : (m.put k v).wf = true := by
  cases m with
  | nil => rfl
  | cons e m =>
    simp only [SMap.put]
    split
    · simp only [SMap.wf, SMap.above, Bool.and_eq_true, decide_eq_true_eq]; exact ⟨by assumption, hm⟩
    · split
      · subst_vars; exact hm
      · exact SMap.put_above m v hm (by omega)

theorem SMap.del_above (m : SMap α) {lo : Nat} (k : Nat) (hm : m.above lo = true) : (m.del k).above lo = true := by
  induction m generalizing lo with
  | nil => rfl
  | cons e m ih =>
    have h := hm
    simp only [SMap.above, Bool.and_eq_true, decide_eq_true_eq] at hm
    simp only [SMap.del]
    split
    · exact h
    · split
      · exact SMap.above_mono m (by omega) hm.2
      · simp only [SMap.above, Bool.and_eq_true, decide_eq_true_eq]
        exact ⟨hm.1, ih hm.2⟩

theorem SMap.del_wf (m : SMap α) (k : Nat) (hm : m.wf = true) : (m.del k).wf = true := by
  cases m with
  | nil => rfl
  | cons e m =>
    simp only [SMap.del]
    split
    · exact hm
    · split
      · exact SMap.wf_of_above m hm
      · exact SMap.del_above m k hm

theorem SMap.find_del (m : SMap α) (hm : m.wf = true) (k j : Nat) : (m.del k).find? j = if j = k then none else m.find? j := by
  induction m with
  | nil => simp [SMap.del, SMap.find?]
  | cons e m ih =>
    have h : SMap.above e.1 m = true := hm
    simp only [SMap.del]
    split
    · split
      · subst_vars; rw [SMap.find?, if_neg (by omega), if_pos (by assumption)]
      · rfl
    · split
      · subst_vars
        split
        · subst_vars; exact SMap.find_above m h (Nat.le_refl _)
        · rw [SMap.find?, if_neg (by assumption)]
          split
          · exact SMap.find_above m h (by omega)
          · rfl
      · simp only [SMap.find?, ih (SMap.wf_of_above m h)]
        split
        · rw [if_neg (by omega)]
        · split <;> split <;> rfl

theorem SMap.filter_above (m : SMap α) (p : Nat × α → Bool) {lo : Nat} (hm : m.above lo = true) :
    SMap.above lo (List.filter p m) = true := by
  induction m generalizing lo with
  | nil => rfl
  | cons e m ih =>
    simp only [SMap.above, Bool.and_eq_true, decide_eq_true_eq] at hm
    rw [List.filter_cons]
    split
    · simp only [SMap.above, Bool.and_eq_true, decide_eq_true_eq]; exact ⟨hm.1, ih hm.2⟩
    · exact ih (SMap.above_mono m (by omega) hm.2)

theorem SMap.filter_wf (m : SMap α) (p : Nat × α → Bool) (hm : m.wf = true) : SMap.wf (List.filter p m) = true := by
  cases m with
  | nil => rfl
  | cons e m =>
    rw [List.filter_cons]
    split
    · exact SMap.filter_above m p hm
    · exact SMap.wf_of_above _ (SMap.filter_above m p hm)

theorem SMap.keep_wf (m : SMap α) (p : Nat → α → Bool) (hm : m.wf = true) : (m.keep p).wf = true :=
  SMap.filter_wf m (fun e => p e.1 e.2) hm

/-- Keeping by key alone leaves a kept key's value and drops the others. -/
theorem SMap.find_keep (m : SMap α) (hm : m.wf = true) (p : Nat → Bool) (k : Nat) :
    (m.keep (fun j _ => p j)).find? k = if p k = true then m.find? k else none := by
  induction m with
  | nil => simp [SMap.keep, SMap.find?]
  | cons e m ih =>
    have h : SMap.above e.1 m = true := hm
    have ih := ih (SMap.wf_of_above m h)
    simp only [SMap.keep, List.filter_cons] at ih ⊢
    split
    · simp only [SMap.find?, ih]
      split
      · subst_vars; rw [if_pos (by assumption)]
      · split
        · split <;> rfl
        · rfl
    · rw [ih]
      simp only [SMap.find?]
      split
      · split
        · subst_vars; contradiction
        · split
          · exact SMap.find_above m h (by omega)
          · rfl
      · rfl

/-! ### Stores with defaults -/

theorem SMap.mem_put (m : SMap α) (k : Nat) (v : α) (e : Nat × α) (h : e ∈ m.put k v) : e = (k, v) ∨ e ∈ m := by
  induction m with
  | nil => simpa [SMap.put] using h
  | cons x m ih =>
    simp only [SMap.put] at h
    split at h
    · simpa using h
    · split at h
      · rcases List.mem_cons.1 h with h | h
        · exact .inl h
        · exact .inr (List.mem_cons_of_mem _ h)
      · rcases List.mem_cons.1 h with h | h
        · exact .inr (by simp [h])
        · exact (ih h).imp id (List.mem_cons_of_mem _)

theorem SMap.mem_del (m : SMap α) (k : Nat) (e : Nat × α) (h : e ∈ m.del k) : e ∈ m := by
  induction m with
  | nil => exact h
  | cons x m ih =>
    simp only [SMap.del] at h
    split at h
    · exact h
    · split at h
      · exact List.mem_cons_of_mem _ h
      · rcases List.mem_cons.1 h with h | h
        · simp [h]
        · exact List.mem_cons_of_mem _ (ih h)

section
variable [DecidableEq α] (dflt : Nat → α)

theorem SMap.wfD_iff (m : SMap α) : m.wfD dflt = true ↔ m.wf = true ∧ ∀ e ∈ m, e.2 ≠ dflt e.1 := by
  simp [SMap.wfD, List.all_eq_true]

theorem SMap.setD_wfD (m : SMap α) (k : Nat) (v : α) (hm : m.wfD dflt = true) : (m.setD dflt k v).wfD dflt = true := by
  rw [SMap.wfD_iff] at hm ⊢
  simp only [SMap.setD]
  split
  · exact ⟨SMap.del_wf m k hm.1, fun e he => hm.2 e (SMap.mem_del m k e he)⟩
  · refine ⟨SMap.put_wf m k v hm.1, fun e he => ?_⟩
    rcases SMap.mem_put m k v e he with h | h
    · subst h; assumption
    · exact hm.2 e h

theorem SMap.filter_wfD (m : SMap α) (p : Nat × α → Bool) (hm : m.wfD dflt = true) : SMap.wfD dflt (List.filter p m) = true := by
  rw [SMap.wfD_iff] at hm ⊢
  exact ⟨SMap.filter_wf m p hm.1, fun e he => hm.2 e (List.mem_of_mem_filter he)⟩

theorem SMap.keep_wfD (m : SMap α) (p : Nat → α → Bool) (hm : m.wfD dflt = true) : (m.keep p).wfD dflt = true :=
  SMap.filter_wfD dflt m (fun e => p e.1 e.2) hm

theorem SMap.nil_wfD : SMap.wfD dflt ([] : SMap α) = true := rfl

theorem SMap.getD_setD (m : SMap α) (hm : m.wf = true) (k j : Nat) (v : α) :
    (m.setD dflt k v).getD dflt j = if j = k then v else m.getD dflt j := by
  by_cases hv : v = dflt k
  · simp only [SMap.setD, SMap.getD, if_pos hv, SMap.find_del m hm]
    by_cases h : j = k
    · subst h; simp [hv]
    · simp [h]
  · simp only [SMap.setD, SMap.getD, if_neg hv, SMap.find_put]
    by_cases h : j = k
    · simp [h]
    · simp [h]

end

/-! ### The bytes of a memory -/

theorem Memory.write_wf (m : Memory) (a : Nat) (b : Byte) (hm : m.wf = true) : Memory.wf (m.write a b) = true :=
  SMap.setD_wfD _ m a b hm

theorem Memory.writeBytes_wf (bs : List Byte) (m : Memory) (a : Nat) (hm : m.wf = true) : Memory.wf (m.writeBytes a bs) = true := by
  induction bs generalizing m a with
  | nil => exact hm
  | cons b bs ih => exact ih _ _ (Memory.write_wf m a b hm)

theorem Memory.read_write (m : Memory) (hm : m.wf = true) (a j : Nat) (b : Byte) :
    Memory.read (m.write a b) j = if j = a then b else m.read j :=
  SMap.getD_setD _ m ((SMap.wfD_iff _ m).1 hm).1 a j b

/-- Every byte outside the written ones reads as before. -/
theorem Memory.read_writeBytes_out (bs : List Byte) (m : Memory) (hm : m.wf = true) (a j : Nat) (h : j < a ∨ a + bs.length ≤ j) :
    Memory.read (m.writeBytes a bs) j = m.read j := by
  induction bs generalizing m a with
  | nil => rfl
  | cons b bs ih =>
    simp only [List.length_cons] at h
    rw [Memory.writeBytes, ih _ (Memory.write_wf m a b hm) _ (by omega), Memory.read_write m hm, if_neg (by omega)]

/-- The written bytes read back. -/
theorem Memory.readBytes_writeBytes (bs : List Byte) (m : Memory) (hm : m.wf = true) (a : Nat) :
    Memory.readBytes (m.writeBytes a bs) a bs.length = bs := by
  induction bs generalizing m a with
  | nil => rfl
  | cons b bs ih =>
    have hw := Memory.write_wf m a b hm
    rw [Memory.writeBytes, List.length_cons, Memory.readBytes, Memory.read_writeBytes_out bs _ hw _ _ (by omega),
      Memory.read_write m hm, if_pos rfl, ih _ hw]

/-- Reading a range depends on the bytes of the range alone. -/
theorem Memory.readBytes_congr (n : Nat) (m m' : Memory) (a : Nat) (h : ∀ j : Nat, a ≤ j → j < a + n → m.read j = m'.read j) :
    m.readBytes a n = m'.readBytes a n := by
  induction n generalizing a with
  | zero => rfl
  | succ n ih =>
    rw [Memory.readBytes, Memory.readBytes, h a (by omega) (by omega), ih _ (fun j h1 h2 => h j (by omega) (by omega))]

end Sys2Proof.Machine
end

