-- ==== Sys2Proof/Laws/Closed.lean ====
section
/-! SUPPORT. Invariants of the machine, once for all: a predicate on states that the primitive changes of state keep (`Closed`) is kept by every
operation and every command. Each operation `f` has a lemma `f_keeps` in the files that follow. -/

namespace Sys2Proof.Machine
/-- A predicate on states that no operation of the machine can end but by resetting the device cold or by changing the stored bytes of memory: it holds
on when any part but the tracked ones (the queue of commands, the fuses, registers, counters, free values, memory bytes) is replaced, when a register
is written, a counter changed, a free value read, and over a warm reset. -/
structure Closed (P : State → Prop) : Prop where
  upd : ∀ (x : State) stage time trib weir eddy ve die dist cap slu braid head mem sec rel power mgmt pins, P x → mem.data = x.mem.data →
    P ⟨x.pending, x.fuse, x.regs, x.cnts, stage, x.free, time, trib, weir, eddy, ve, die, dist, cap, slu, braid, head, mem, sec, rel, power, mgmt, pins⟩
  wr : ∀ (x : State) n c w v, P x → P (x.wr n c w v)
  count : ∀ (x : State) n c k, P x → P (x.count n c k)
  cnts : ∀ (x : State) k v, P x → P { x with cnts := SMap.setD (fun _ => 0) x.cnts k v }
  fresh : ∀ (x : State) (b : Nat), P x → P { x with free := x.free + b }
  warm : ∀ (x : State) a b, P x → P (x.warmReset a b)

/-- It also holds on when the stored bytes of memory change in canonical form, and over a cold reset. -/
structure ClosedMem (P : State → Prop) : Prop where
  data : ∀ (x : State) (m : MemSt), P x → (Memory.wf x.mem.data = true → Memory.wf m.data = true) → P { x with mem := m }
  cold : ∀ (x : State) a b, P x → P (x.coldReset a b)

/-- The state a command leaves meets a predicate. -/
structure OutP (P : State → Prop) (o : Out) : Prop where
  out : ∀ t, o = .next t → P t
/-- The state of an optional state meets a predicate. -/
structure OptP (P : State → Prop) (o : Option State) : Prop where
  out : ∀ t, o = some t → P t
/-- The same of an optional pair that ends in a state. -/
structure OptSnd {α : Type} (P : State → Prop) (o : Option (α × State)) : Prop where
  out : ∀ t, o = some t → P t.2
/-- The same of an optional pair that begins with a state. -/
structure OptFst {α : Type} (P : State → Prop) (o : Option (State × α)) : Prop where
  out : ∀ t, o = some t → P t.1
/-- The same of a state or an error. -/
structure ExcP {ε : Type} (P : State → Prop) (o : Except ε State) : Prop where
  out : ∀ t, o = .ok t → P t
/-- The same of a pair that begins with a state, or an error. -/
structure ExcFst {ε α : Type} (P : State → Prop) (o : Except ε (State × α)) : Prop where
  out : ∀ t, o = .ok t → P t.1
/-- The same of a pair that ends in a state, or an error. -/
structure ExcSnd {ε α : Type} (P : State → Prop) (o : Except ε (α × State)) : Prop where
  out : ∀ t, o = .ok t → P t.2
/-- The same of a pair that begins with a state. -/
structure FstP {α : Type} (P : State → Prop) (o : State × α) : Prop where
  out : P o.1
/-- The same of a pair that ends in a state. -/
structure SndP {α : Type} (P : State → Prop) (o : α × State) : Prop where
  out : P o.2
/-- The same of what a signed command comes to. -/
structure CmdP (P : State → Prop) (o : CmdRes) : Prop where
  out : P o.st
/-- The same of what a service comes to. -/
structure SvcP (P : State → Prop) (o : SvcRes) : Prop where
  out : P o.st
variable {P : State → Prop}
theorem ite_OutP {c : Prop} [Decidable c] {x y : Out} (h1 : OutP P x) (h2 : OutP P y) : OutP P (if c then x else y) := by split <;> assumption
theorem ite_P {c : Prop} [Decidable c] {x y : State} (h1 : P x) (h2 : P y) : P (if c then x else y) := by split <;> assumption
theorem ite_OptP {c : Prop} [Decidable c] {x y : Option State} (h1 : OptP P x) (h2 : OptP P y) : OptP P (if c then x else y) := by split <;> assumption
theorem ite_OptSnd {α : Type} {c : Prop} [Decidable c] {x y : Option (α × State)} (h1 : OptSnd P x) (h2 : OptSnd P y) : OptSnd P (if c then x else y) := by split <;> assumption
theorem ite_OptFst {α : Type} {c : Prop} [Decidable c] {x y : Option (State × α)} (h1 : OptFst P x) (h2 : OptFst P y) : OptFst P (if c then x else y) := by split <;> assumption
theorem ite_ExcP {ε : Type} {c : Prop} [Decidable c] {x y : Except ε State} (h1 : ExcP P x) (h2 : ExcP P y) : ExcP P (if c then x else y) := by split <;> assumption
theorem ite_ExcFst {ε α : Type} {c : Prop} [Decidable c] {x y : Except ε (State × α)} (h1 : ExcFst P x) (h2 : ExcFst P y) : ExcFst P (if c then x else y) := by split <;> assumption
theorem ite_ExcSnd {ε α : Type} {c : Prop} [Decidable c] {x y : Except ε (α × State)} (h1 : ExcSnd P x) (h2 : ExcSnd P y) : ExcSnd P (if c then x else y) := by split <;> assumption
theorem ite_FstP {α : Type} {c : Prop} [Decidable c] {x y : State × α} (h1 : FstP P x) (h2 : FstP P y) : FstP P (if c then x else y) := by split <;> assumption
theorem ite_SndP {α : Type} {c : Prop} [Decidable c] {x y : α × State} (h1 : SndP P x) (h2 : SndP P y) : SndP P (if c then x else y) := by split <;> assumption
theorem ite_CmdP {c : Prop} [Decidable c] {x y : CmdRes} (h1 : CmdP P x) (h2 : CmdP P y) : CmdP P (if c then x else y) := by split <;> assumption
theorem ite_SvcP {c : Prop} [Decidable c] {x y : SvcRes} (h1 : SvcP P x) (h2 : SvcP P y) : SvcP P (if c then x else y) := by split <;> assumption

theorem out_next {s : State} (h : P s) : OutP P (.next s) := ⟨fun _ e => by cases e; exact h⟩
theorem out_gated {s : State} {x : Out} (h : P s) (hx : OutP P x) : OutP P (s.gated x) := by
  unfold State.gated; split
  · exact out_next h
  · exact hx
theorem out_refused {r : Refusal} : OutP P (.refused r) := ⟨fun _ e => by cases e⟩
theorem opt_some {s : State} (h : P s) : OptP P (some s) := ⟨fun _ e => by cases e; exact h⟩
theorem opt_none : OptP P none := ⟨fun _ e => by cases e⟩
theorem optsnd_some {α : Type} {s : State} {a : α} (h : P s) : OptSnd P (some (a, s)) := ⟨fun _ e => by cases e; exact h⟩
theorem optsnd_none {α : Type} : OptSnd P (none : Option (α × State)) := ⟨fun _ e => by cases e⟩
theorem optfst_some {α : Type} {s : State} {a : α} (h : P s) : OptFst P (some (s, a)) := ⟨fun _ e => by cases e; exact h⟩
theorem optfst_none {α : Type} : OptFst P (none : Option (State × α)) := ⟨fun _ e => by cases e⟩
theorem exc_ok {ε : Type} {s : State} (h : P s) : ExcP P (.ok s : Except ε State) := ⟨fun _ e => by cases e; exact h⟩
theorem exc_err {ε : Type} {r : ε} : ExcP P (.error r) := ⟨fun _ e => by cases e⟩
theorem excfst_ok {ε α : Type} {s : State} {a : α} (h : P s) : ExcFst P (.ok (s, a) : Except ε (State × α)) := ⟨fun _ e => by cases e; exact h⟩
theorem excfst_err {ε α : Type} {r : ε} : ExcFst P (.error r : Except ε (State × α)) := ⟨fun _ e => by cases e⟩
theorem excsnd_ok {ε α : Type} {s : State} {a : α} (h : P s) : ExcSnd P (.ok (a, s) : Except ε (α × State)) := ⟨fun _ e => by cases e; exact h⟩
theorem excsnd_err {ε α : Type} {r : ε} : ExcSnd P (.error r : Except ε (α × State)) := ⟨fun _ e => by cases e⟩
theorem fst_mk {α : Type} {s : State} {a : α} (h : P s) : FstP P (s, a) := ⟨h⟩
theorem snd_mk {α : Type} {s : State} {a : α} (h : P s) : SndP P (a, s) := ⟨h⟩
theorem fst_e {α : Type} {r : State × α} (h : FstP P r) : P r.1 := h.out
theorem snd_e {α : Type} {r : α × State} (h : SndP P r) : P r.2 := h.out
theorem fst_eq {α : Type} {r : State × α} {t : State} {a : α} (e : r = (t, a)) (h : FstP P r) : P t := by subst e; exact h.out
theorem snd_eq {α : Type} {r : α × State} {t : State} {a : α} (e : r = (a, t)) (h : SndP P r) : P t := by subst e; exact h.out
theorem opt_eq {o : Option State} {t : State} (e : o = some t) (h : OptP P o) : P t := h.out t e
theorem optsnd_eq {α : Type} {a : α} {o : Option (α × State)} {t : State} (e : o = some (a, t)) (h : OptSnd P o) : P t := h.out _ e
theorem optfst_eq {α : Type} {a : α} {o : Option (State × α)} {t : State} (e : o = some (t, a)) (h : OptFst P o) : P t := h.out _ e
theorem exc_eq {ε : Type} {o : Except ε State} {t : State} (e : o = .ok t) (h : ExcP P o) : P t := h.out t e
theorem excfst_eq {ε α : Type} {a : α} {o : Except ε (State × α)} {t : State} (e : o = .ok (t, a)) (h : ExcFst P o) : P t := h.out _ e
theorem excsnd_eq {ε α : Type} {a : α} {o : Except ε (α × State)} {t : State} (e : o = .ok (a, t)) (h : ExcSnd P o) : P t := h.out _ e
theorem cmd_mk {s : State} {a b c : Nat} {d : List Byte} {m : List (List Byte)} (h : P s) : CmdP P ⟨s, a, b, c, d, m⟩ := ⟨h⟩
theorem cmd_no {s : State} {a b : Nat} (h : P s) : CmdP P (.no s a b) := ⟨h⟩
theorem foldl_keeps {β : Type} {f : State → β → State} (l : List β) {s : State} (h : P s) (hf : ∀ s x, P s → P (f s x)) : P (l.foldl f s) := by
  induction l generalizing s with
  | nil => exact h
  | cons a l ih => exact ih (hf s a h)
theorem foldlf_keeps {β α : Type} {f : State × α → β → State × α} (l : List β) {s : State × α} (h : FstP P s) (hf : ∀ s x, FstP P s → FstP P (f s x)) : FstP P (l.foldl f s) := by
  induction l generalizing s with
  | nil => exact h
  | cons a l ih => exact ih (hf s a h)
theorem foldls_keeps {β α : Type} {f : α × State → β → α × State} (l : List β) {s : α × State} (h : SndP P s) (hf : ∀ s x, SndP P s → SndP P (f s x)) : SndP P (l.foldl f s) := by
  induction l generalizing s with
  | nil => exact h
  | cons a l ih => exact ih (hf s a h)
theorem upd (hP : Closed P) {x : State} {stage time trib weir eddy ve die dist cap slu braid head mem sec rel power mgmt pins} (h : P x) (hd : mem.data = x.mem.data) :
    P ⟨x.pending, x.fuse, x.regs, x.cnts, stage, x.free, time, trib, weir, eddy, ve, die, dist, cap, slu, braid, head, mem, sec, rel, power, mgmt, pins⟩ :=
  hP.upd x _ _ _ _ _ _ _ _ _ _ _ _ _ _ _ _ _ _ h hd
theorem seal_wf (m : MemSt) (o : Nat) (c : Nat × Nat) (b : List Byte) (h : Memory.wf m.data = true) : Memory.wf (m.seal o c b).data = true := by
  unfold MemSt.seal
  extract_lets n k m1
  have h1 : Memory.wf m1.data = true := Memory.writeBytes_wf _ _ _ h
  split <;> exact h1
theorem opt_getD {o : Option State} {s : State} (h : OptP P o) (hs : P s) : P (o.getD s) := by
  cases o with
  | none => exact hs
  | some t => exact h.out t rfl
theorem svc_mk {s : State} {a b : Nat} {d : List Byte} (h : P s) : SvcP P ⟨s, a, b, d⟩ := ⟨h⟩

/-- A predicate that holds on over replaced parts and over EVENT_LOST in a copy of ATTN_CAUSE holds on over an event (R81, R88, R90). -/
theorem event_of_attn
    (hu : ∀ (x : State) trib, P x → P { x with trib := trib }) (hw : ∀ (x : State), ∀ u < 4, P x → P (x.setAttnBit u attnEventLost))
    (s : State) (a b c d : Nat) (h : P s) : P (s.event a b c d) := by
  have hlog : ∀ (s : State) (a b c d : Nat) (q : Bool), P s → P (s.logEvent a b c d q).1 := by
    intro s a b c d q h
    unfold State.logEvent
    extract_lets
    split
    · exact hu _ _ h
    · split <;> exact hu _ _ h
  have hlatch : ∀ (s : State), ∀ u < 4, P s → P (s.latch1 (some u) attnEventLost false).1 := by
    intro s u hlt h
    unfold State.latch1
    extract_lets cs new s1
    have h1 : P s1 := hw s u hlt h
    clear_value s1
    split
    · exact hlog _ _ _ _ _ _ h1
    · exact h1
  unfold State.event
  extract_lets r
  have hr : P r.1 := hlog _ _ _ _ _ _ h
  clear_value r
  split
  · unfold State.latchLost
    split
    · exact hlatch _ _ (by assumption) hr
    · exact hlatch _ 3 (by omega) (hlatch _ 2 (by omega) (hlatch _ 1 (by omega) (hlatch _ 0 (by omega) hr)))
  · exact hr

/-- The same for a predicate that holds on over every written register. -/
theorem event_of
    (hu : ∀ (x : State) trib, P x → P { x with trib := trib }) (hw : ∀ (x : State) n c w v, P x → P (x.wr n c w v))
    (s : State) (a b c d : Nat) (h : P s) : P (s.event a b c d) :=
  event_of_attn hu (fun _ _ _ h => hw _ _ _ _ _ h) s a b c d h

/-- What a warm reset leaves (R493), for a predicate that events and written registers keep: it is enough that it holds of the state that begins
again with the queue, the fuses, the free values, the kept counters and the memory bytes of the old one. -/
theorem warmReset_of
    (hu : ∀ (x : State) trib, P x → P { x with trib := trib }) (hw : ∀ (x : State) n c w v, P x → P (x.wr n c w v))
    (hf : ∀ (x : State) head mgmt, P x → P { x with head := head, mgmt := mgmt })
    (x : State) (cause domain : Nat)
    (h : ∀ n : State, n.pending = x.pending → n.fuse = x.fuse → n.free = x.free → n.regs = [] →
      n.cnts = x.cnts.keep (fun k _ => k / 2 ^ 32 == RegName.cntRelCnt.ctorIdx) → n.mem.data = x.mem.data → P n) : P (x.warmReset cause domain) := by
  have hd : (x.mem.afterWarm (decide (5 ≤ x.head.step) && !x.mem.erased)).data = x.mem.data := by
    unfold MemSt.afterWarm
    extract_lets m
    split <;> rfl
  unfold State.warmReset State.fwupReset
  extract_lets n src k new
  have hn : P n := h n rfl rfl rfl rfl rfl hd
  clear_value n
  have h1 : ∀ v : List Nat, P (n.putStraps v) := fun v => hw _ _ _ _ _ (hw _ _ _ _ _ (hw _ _ _ _ _ (hw _ _ _ _ _ hn)))
  split
  · exact event_of hu hw _ _ _ _ _ (hf _ _ _ (h1 _))
  · exact h1 _

/-- What a cold reset leaves (R493), in the same form: no counter and no memory byte is kept. -/
theorem coldReset_of
    (hu : ∀ (x : State) trib, P x → P { x with trib := trib }) (hw : ∀ (x : State) n c w v, P x → P (x.wr n c w v))
    (hf : ∀ (x : State) head mgmt, P x → P { x with head := head, mgmt := mgmt })
    (x : State) (cause unit : Nat)
    (h : ∀ n : State, n.pending = x.pending → n.fuse = x.fuse → n.free = x.free → n.regs = [] → n.cnts = [] → n.mem.data = [] → P n) :
    P (x.coldReset cause unit) := by
  unfold State.coldReset State.fwupReset
  extract_lets pin n src k new
  have hn : P n := h n rfl rfl rfl rfl rfl rfl
  clear_value n
  have h1 : ∀ v : List Nat, P (n.putStraps v) := fun v => hw _ _ _ _ _ (hw _ _ _ _ _ (hw _ _ _ _ _ (hw _ _ _ _ _ hn)))
  split
  · exact event_of hu hw _ _ _ _ _ (hf _ _ _ (h1 _))
  · exact h1 _

end Sys2Proof.Machine
end

