-- ==== Sys2Proof/Laws/ClosedCore.lean ====
section
/-! SUPPORT. What every operation of the shared operations, replies, admission, Tributary and time keeps (`Closed`). -/

namespace Sys2Proof.Machine

variable {P : State → Prop} (hP : Closed P)
include hP

theorem setHub_keeps (s : State) (h0 : Nat) (w : WeirHub) (hs : P s) : P (State.setHub s h0 w) := by
  unfold State.setHub
  extract_lets y0
  clear_value y0
  repeat' first
    | with_reducible assumption
    | (fail_if_no_progress with_reducible refine upd hP ?_ rfl)

theorem setEnt_keeps (s : State) (h0 : Nat) (i : Nat) (e : RecEnt) (hs : P s) : P (State.setEnt s h0 i e) := by
  unfold State.setEnt
  extract_lets y0
  clear_value y0
  repeat' first
    | with_reducible assumption
    | with_reducible apply setHub_keeps hP

theorem logEvent_keeps (s : State) (code : Nat) (unit : Nat) (tenant : Nat) (detail : Nat) (queue : Bool) (hs : P s) : FstP P (State.logEvent s code unit tenant detail queue) := by
  unfold State.logEvent
  extract_lets y0 y1 y2 y3 y4
  clear_value y0 y1 y2 y3 y4
  repeat' first
    | with_reducible assumption
    | (fail_if_no_progress with_reducible refine upd hP ?_ rfl)
    | with_reducible apply ite_FstP
    | extract_lets
    | with_reducible apply fst_mk

theorem setAttnBit_keeps (s : State) (tenant : Nat) (c : Nat) (hs : P s) : P (State.setAttnBit s tenant c) := by
  unfold State.setAttnBit
  repeat' first
    | with_reducible assumption
    | with_reducible refine hP.wr _ _ _ _ _ ?_

theorem latch1_keeps (s : State) (who : Option Nat) (c : Nat) (queue : Bool) (hs : P s) : FstP P (State.latch1 s who c queue) := by
  unfold State.latch1
  extract_lets y0 y1 y2
  have hy2 : P y2 := by
    subst y2
    repeat' first
      | with_reducible assumption
      | with_reducible apply setAttnBit_keeps hP
      | with_reducible refine foldl_keeps _ ?_ (fun s x hs => ?_)
  clear_value y0 y1 y2
  repeat' first
    | with_reducible assumption
    | with_reducible apply logEvent_keeps hP
    | with_reducible apply ite_FstP
    | extract_lets
    | with_reducible apply fst_mk

theorem latchLost_keeps (s : State) (tenant : Nat) (hs : P s) : P (State.latchLost s tenant) := by
  unfold State.latchLost
  repeat' first
    | with_reducible assumption
    | with_reducible refine foldl_keeps _ ?_ (fun s x hs => ?_)
    | extract_lets
    | (with_reducible apply FstP.out; with_reducible apply latch1_keeps hP)

theorem event_keeps (s : State) (code : Nat) (unit : Nat) (tenant : Nat) (detail : Nat) (hs : P s) : P (State.event s code unit tenant detail) := by
  unfold State.event
  extract_lets y0
  have hy0 : FstP P y0 := by
    subst y0
    repeat' first
      | with_reducible assumption
      | with_reducible apply logEvent_keeps hP
  clear_value y0
  repeat' first
    | with_reducible apply latchLost_keeps hP
    | with_reducible apply ite_P
    | extract_lets
    | with_reducible exact FstP.out ‹_›

theorem tick_keeps (s : State) (n : RegName) (copy : Nat) (hs : P s) : P (State.tick s n copy) := by
  unfold State.tick
  repeat' first
    | with_reducible assumption
    | with_reducible refine hP.count _ _ _ _ ?_

theorem setCap_keeps (s : State) (t : Nat) (c : CapSt) (hs : P s) : P (State.setCap s t c) := by
  unfold State.setCap
  repeat' first
    | with_reducible assumption
    | (fail_if_no_progress with_reducible refine upd hP ?_ rfl)

theorem latch_keeps (s : State) (who : Option Nat) (c : Nat) (hs : P s) : P (State.latch s who c) := by
  unfold State.latch
  extract_lets y0
  have hy0 : FstP P y0 := by
    subst y0
    repeat' first
      | with_reducible assumption
      | with_reducible apply latch1_keeps hP
  clear_value y0
  repeat' first
    | with_reducible apply latchLost_keeps hP
    | with_reducible apply ite_P
    | extract_lets
    | with_reducible exact FstP.out ‹_›

theorem setHwT_keeps (s : State) (t : Nat) (h0 : HwTenant) (hs : P s) : P (State.setHwT s t h0) := by
  unfold State.setHwT
  extract_lets y0
  clear_value y0
  repeat' first
    | with_reducible assumption
    | (fail_if_no_progress with_reducible refine upd hP ?_ rfl)

theorem freshWord_keeps (s : State) (hs : P s) : SndP P (State.freshWord s) := by
  exact snd_mk (hP.fresh s 1 hs)

theorem gatedCold_keeps (s : State) (x : Out) (hs : P s) (hx : OutP P x) : OutP P (State.gatedCold s x) := by
  unfold State.gatedCold
  repeat' first
    | with_reducible assumption
    | with_reducible apply out_next
    | with_reducible apply ite_OutP

theorem setHeat_keeps (s : State) (d : Nat) (x : DieHeat) (hs : P s) : P (State.setHeat s d x) := by
  unfold State.setHeat
  extract_lets y0
  clear_value y0
  repeat' first
    | with_reducible assumption
    | (fail_if_no_progress with_reducible refine upd hP ?_ rfl)

theorem clockTick_keeps (s : State) (hs : P s) : P (State.clockTick s) := by
  unfold State.clockTick
  repeat' first
    | with_reducible assumption
    | with_reducible apply setHeat_keeps hP
    | with_reducible refine hP.count _ _ _ _ ?_
    | with_reducible apply ite_P
    | with_reducible refine foldl_keeps _ ?_ (fun s x hs => ?_)

theorem setSup_keeps (s : State) (d : Nat) (x : SupplySt) (hs : P s) : P (State.setSup s d x) := by
  unfold State.setSup
  extract_lets y0
  clear_value y0
  repeat' first
    | with_reducible assumption
    | (fail_if_no_progress with_reducible refine upd hP ?_ rfl)

theorem setPort_keeps (s : State) (p : Nat) (x : PortSt) (hs : P s) : P (State.setPort s p x) := by
  unfold State.setPort
  extract_lets y0
  clear_value y0
  repeat' first
    | with_reducible assumption
    | (fail_if_no_progress with_reducible refine upd hP ?_ rfl)

theorem setTile_keeps (s : State) (d : Nat) (t : Nat) (u : UnitSt) (hs : P s) : P (State.setTile s d t u) := by
  unfold State.setTile
  extract_lets y0
  clear_value y0
  repeat' first
    | with_reducible assumption
    | (fail_if_no_progress with_reducible refine upd hP ?_ rfl)

theorem setMu_keeps (s : State) (d : Nat) (m : Nat) (u : UnitSt) (hs : P s) : P (State.setMu s d m u) := by
  unfold State.setMu
  extract_lets y0
  clear_value y0
  repeat' first
    | with_reducible assumption
    | (fail_if_no_progress with_reducible refine upd hP ?_ rfl)

theorem countWrites_keeps (s : State) (d : Nat) (p : Nat) (l : Nat) (us : SMap MuImage) (hs : P s) : P (State.countWrites s d p l us) := by
  unfold State.countWrites
  repeat' first
    | with_reducible assumption
    | with_reducible refine hP.count _ _ _ _ ?_

theorem countLoad_keeps (s : State) (us : SMap MuImage) (hs : P s) : P (State.countLoad s us) := by
  unfold State.countLoad
  repeat' first
    | with_reducible assumption
    | with_reducible apply countWrites_keeps hP
    | with_reducible refine foldl_keeps _ ?_ (fun s x hs => ?_)
    | extract_lets
    | split

theorem noteDegraded_keeps (s : State) (hs : P s) : P (State.noteDegraded s) := by
  unfold State.noteDegraded
  repeat' first
    | with_reducible assumption
    | with_reducible apply event_keeps hP
    | (fail_if_no_progress with_reducible refine upd hP ?_ rfl)
    | with_reducible apply ite_P
    | with_reducible refine foldl_keeps _ ?_ (fun s x hs => ?_)

theorem setEngine_keeps (s : State) (h0 : Nat) (v : Nat) (u : UnitSt) (hs : P s) : P (State.setEngine s h0 v u) := by
  unfold State.setEngine
  extract_lets y0
  clear_value y0
  repeat' first
    | with_reducible assumption
    | (fail_if_no_progress with_reducible refine upd hP ?_ rfl)

theorem clearRec_keeps (s : State) (h0 : Nat) (i : Nat) (stay : Bool) (hs : P s) : P (State.clearRec s h0 i stay) := by
  unfold State.clearRec
  extract_lets y0 y1
  subst y0
  try beta_reduce
  repeat' first
    | with_reducible assumption
    | (fail_if_no_progress with_reducible refine upd hP ?_ rfl)

theorem freeEnt_keeps (s : State) (h0 : Nat) (i : Nat) (hs : P s) : P (State.freeEnt s h0 i) := by
  unfold State.freeEnt
  extract_lets y0
  clear_value y0
  repeat' first
    | with_reducible assumption
    | with_reducible apply clearRec_keeps hP
    | with_reducible apply setHub_keeps hP
    | split

theorem attDropDue_keeps (s : State) (b : Nat) (hs : P s) : P (State.attDropDue s b) := by
  unfold State.attDropDue
  extract_lets y0 y1
  have hy1 : P y1 := by
    subst y1
    repeat' first
      | with_reducible assumption
      | (fail_if_no_progress with_reducible refine upd hP ?_ rfl)
  clear_value y0 y1
  repeat' first
    | with_reducible assumption
    | with_reducible apply event_keeps hP
    | with_reducible apply ite_P
    | split

theorem attDrop_keeps (s : State) (b : Nat) (hs : P s) : P (State.attDrop s b) := by
  unfold State.attDrop
  extract_lets y0 y1 y2
  have hy0 : P y0 := by
    subst y0
    repeat' first
      | with_reducible assumption
      | with_reducible apply attDropDue_keeps hP
      | with_reducible apply tick_keeps hP
  clear_value y0 y1 y2
  repeat' first
    | with_reducible assumption
    | (fail_if_no_progress with_reducible refine upd hP ?_ rfl)

theorem setBrPort_keeps (s : State) (b : Nat) (x : BrPort) (hs : P s) : P (State.setBrPort s b x) := by
  unfold State.setBrPort
  extract_lets y0
  clear_value y0
  repeat' first
    | with_reducible assumption
    | (fail_if_no_progress with_reducible refine upd hP ?_ rfl)

theorem brAccept_keeps (s : State) (b : Nat) (m : BrMsg) (hs : P s) : P (State.brAccept s b m) := by
  unfold State.brAccept
  extract_lets y0 y1 y2 y3 y4 y5 y6 y7 y8
  have hy5 : P y5 := by
    subst y5
    repeat' first
      | with_reducible assumption
      | with_reducible apply setBrPort_keeps hP
  have hy7 : P y7 := by
    subst y7
    repeat' first
      | with_reducible assumption
      | (fail_if_no_progress with_reducible refine upd hP ?_ rfl)
  have hy8 : P y8 := by
    subst y8
    repeat' first
      | with_reducible assumption
      | with_reducible refine hP.count _ _ _ _ ?_
  clear_value y0 y1 y2 y3 y4 y5 y6 y7 y8
  repeat' first
    | with_reducible assumption
    | with_reducible apply freeEnt_keeps hP
    | split

theorem brQueue_keeps (s : State) (b : Nat) (m : BrMsg) (hs : P s) : P (State.brQueue s b m) := by
  unfold State.brQueue
  extract_lets y0
  clear_value y0
  repeat' first
    | with_reducible assumption
    | with_reducible apply setBrPort_keeps hP

theorem brSend_keeps (s : State) (b : Nat) (m : BrMsg) (hs : P s) : P (State.brSend s b m) := by
  unfold State.brSend
  extract_lets y0
  clear_value y0
  repeat' first
    | with_reducible assumption
    | with_reducible apply brAccept_keeps hP
    | with_reducible apply brQueue_keeps hP
    | with_reducible apply ite_P

theorem replyBraid_keeps (s : State) (b : Nat) (dst : Nat) (r : Reply) (hs : P s) : P (State.replyBraid s b dst r) := by
  unfold State.replyBraid
  extract_lets y0
  clear_value y0
  repeat' first
    | with_reducible assumption
    | with_reducible apply freeEnt_keeps hP
    | with_reducible apply attDrop_keeps hP
    | with_reducible apply brSend_keeps hP
    | with_reducible apply ite_P
    | extract_lets
    | split

theorem gather_keeps (s : State) (p : Nat) (r : Reply) (hs : P s) : P (State.gather s p r) := by
  unfold State.gather
  extract_lets y0 y1 y2 y3
  clear_value y0 y1 y2 y3
  repeat' first
    | with_reducible assumption
    | with_reducible apply setPort_keeps hP
    | with_reducible apply ite_P
    | split

theorem releaseReply_keeps (s : State) (r : Reply) (alone : Bool) (hs : P s) : P (State.releaseReply s r alone) := by
  unfold State.releaseReply
  repeat' first
    | with_reducible assumption
    | with_reducible apply replyBraid_keeps hP
    | with_reducible apply setPort_keeps hP
    | with_reducible apply gather_keeps hP
    | with_reducible apply ite_P
    | split

theorem sendReply_keeps (s : State) (at_ : Nat) (lock : Bool) (r : Reply) (hs : P s) : P (State.sendReply s at_ lock r) := by
  unfold State.sendReply
  extract_lets y0 y1 y2
  clear_value y0 y1 y2
  repeat' first
    | with_reducible assumption
    | with_reducible apply releaseReply_keeps hP
    | (fail_if_no_progress with_reducible refine upd hP ?_ rfl)
    | with_reducible apply ite_P

theorem addDigest_keeps (s : State) (t : Nat) (k : OrderKey) (d : Nat) (hs : P s) : P (State.addDigest s t k d) := by
  unfold State.addDigest
  extract_lets y0 y1 y2
  clear_value y0 y1 y2
  repeat' first
    | with_reducible assumption
    | with_reducible apply setCap_keeps hP

theorem answer_keeps (s : State) (at_ : Nat) (lock : Bool) (raw : List Byte) (snaps : List Byte) (bare : List Byte) (r : Reply) (hs : P s) : P (State.answer s at_ lock raw snaps bare r) := by
  unfold State.answer
  extract_lets y0 y1
  clear_value y0 y1
  repeat' first
    | with_reducible assumption
    | with_reducible apply sendReply_keeps hP
    | with_reducible apply addDigest_keeps hP

theorem ringWrite_keeps (s : State) (t : Nat) (b : List Byte) (hs : P s) : FstP P (State.ringWrite s t b) := by
  unfold State.ringWrite
  extract_lets y0 y1 y2 y3 y4 y5
  have hy5 : P y5 := by
    subst y5
    repeat' first
      | with_reducible assumption
      | with_reducible apply setCap_keeps hP
  clear_value y0 y1 y2 y3 y4 y5
  repeat' first
    | with_reducible assumption
    | with_reducible apply tick_keeps hP
    | with_reducible apply setCap_keeps hP
    | with_reducible apply latch_keeps hP
    | with_reducible apply ite_FstP
    | extract_lets
    | with_reducible apply fst_mk

theorem gapEntry_keeps (s : State) (t : Nat) (hs : P s) : FstP P (State.gapEntry s t) := by
  unfold State.gapEntry
  repeat' first
    | with_reducible assumption
    | with_reducible apply setCap_keeps hP
    | with_reducible apply event_keeps hP
    | with_reducible apply ite_FstP
    | extract_lets
    | (with_reducible apply FstP.out; with_reducible apply ringWrite_keeps hP)
    | split
    | with_reducible apply fst_mk

theorem captureLost_keeps (s : State) (t : Nat) (stamp : Nat) (hs : P s) : P (State.captureLost s t stamp) := by
  unfold State.captureLost
  extract_lets y0 y1 y2
  have hy2 : P y2 := by
    subst y2
    repeat' first
      | with_reducible assumption
      | with_reducible apply tick_keeps hP
      | with_reducible apply setCap_keeps hP
  clear_value y0 y1 y2
  repeat' first
    | with_reducible assumption
    | with_reducible apply latch_keeps hP
    | with_reducible apply ite_P

theorem capture_keeps (s : State) (r : Rec) (outcome : Nat) (cause : Nat) (hs : P s) : P (State.capture s r outcome cause) := by
  unfold State.capture
  extract_lets y0 y1 y2 y3 y4
  have hy3 : FstP P y3 := by
    subst y3
    repeat' first
      | with_reducible assumption
      | with_reducible apply gapEntry_keeps hP
  have hy4 : FstP P y4 := by
    subst y4
    repeat' first
      | with_reducible apply ringWrite_keeps hP
      | extract_lets
      | with_reducible exact FstP.out ‹_›
  clear_value y0 y1 y2 y3 y4
  repeat' first
    | with_reducible assumption
    | with_reducible apply captureLost_keeps hP
    | with_reducible apply ite_P
    | extract_lets
    | with_reducible exact FstP.out ‹_›

theorem brPump_keeps (s : State) (b : Nat) (credit : Bool) (hs : P s) : P (State.brPump s b credit) := by
  unfold State.brPump
  extract_lets y0
  clear_value y0
  repeat' first
    | with_reducible assumption
    | with_reducible apply brAccept_keeps hP
    | with_reducible apply brQueue_keeps hP
    | with_reducible apply setBrPort_keeps hP
    | with_reducible apply ite_P
    | with_reducible refine foldl_keeps _ ?_ (fun s x hs => ?_)

theorem captureReject_keeps (s : State) (t : Nat) (lo : Nat) (hs : P s) : P (State.captureReject s t lo) := by
  unfold State.captureReject
  extract_lets y0 y1 y2 y3 y4
  have hy4 : P y4 := by
    subst y4
    repeat' first
      | with_reducible assumption
      | with_reducible apply setCap_keeps hP
  subst y2
  try beta_reduce
  repeat' first
    | with_reducible assumption
    | with_reducible apply captureLost_keeps hP
    | with_reducible apply latch_keeps hP
    | with_reducible apply ite_P
    | with_reducible refine foldl_keeps _ ?_ (fun s x hs => ?_)

theorem epochMarker_keeps (s : State) (t : Nat) (epoch : Nat) (hs : P s) : P (State.epochMarker s t epoch) := by
  unfold State.epochMarker
  extract_lets y0 y1 y2 y3 y4 y5 y6
  have hy2 : P y2 := by
    subst y2
    repeat' first
      | with_reducible assumption
      | with_reducible apply setCap_keeps hP
  have hy5 : FstP P y5 := by
    subst y5
    repeat' first
      | with_reducible assumption
      | with_reducible apply gapEntry_keeps hP
  have hy6 : FstP P y6 := by
    subst y6
    repeat' first
      | with_reducible apply ringWrite_keeps hP
      | with_reducible apply ite_FstP
      | extract_lets
      | with_reducible exact FstP.out ‹_›
      | with_reducible apply fst_mk
  clear_value y0 y1 y2 y3 y4 y5 y6
  repeat' first
    | with_reducible assumption
    | with_reducible apply latch_keeps hP
    | with_reducible apply ite_P
    | extract_lets
    | with_reducible exact FstP.out ‹_›

theorem setDieRec_keeps (s : State) (x : DieRec) (hs : P s) : P (State.setDieRec s x) := by
  unfold State.setDieRec
  extract_lets y0
  clear_value y0
  repeat' first
    | with_reducible assumption
    | (fail_if_no_progress with_reducible refine upd hP ?_ rfl)

theorem sendPartial_keeps (s : State) (x : DieRec) (hs : P s) : P (State.sendPartial s x) := by
  unfold State.sendPartial
  extract_lets y0 y1
  clear_value y0 y1
  repeat' first
    | with_reducible assumption
    | with_reducible apply setDieRec_keeps hP
    | (fail_if_no_progress with_reducible refine upd hP ?_ rfl)
    | with_reducible apply ite_P

theorem pumpPartials_keeps (s : State) (hs : P s) : P (State.pumpPartials s) := by
  unfold State.pumpPartials
  repeat' first
    | with_reducible assumption
    | with_reducible apply sendPartial_keeps hP
    | with_reducible refine foldl_keeps _ ?_ (fun s x hs => ?_)

theorem enterBuffer_keeps (s : State) (h0 : Nat) (i : Nat) (e : RecEnt) (hs : P s) : P (State.enterBuffer s h0 i e) := by
  unfold State.enterBuffer
  extract_lets y0
  clear_value y0
  repeat' first
    | with_reducible assumption
    | with_reducible apply setEnt_keeps hP

theorem takeBuffer_keeps (s : State) (h0 : Nat) (t : Nat) (c : Nat) (k : Nat) (hs : P s) : P (State.takeBuffer s h0 t c k) := by
  unfold State.takeBuffer
  extract_lets y0
  clear_value y0
  repeat' first
    | with_reducible assumption
    | with_reducible apply pumpPartials_keeps hP
    | with_reducible apply enterBuffer_keeps hP
    | with_reducible apply ite_P
    | split

theorem leaveBuffer_keeps (s : State) (h0 : Nat) (e : RecEnt) (hs : P s) : P (State.leaveBuffer s h0 e) := by
  unfold State.leaveBuffer
  extract_lets y0 y1 y2
  have hy1 : P y1 := by
    subst y1
    repeat' first
      | with_reducible assumption
      | with_reducible apply takeBuffer_keeps hP
      | with_reducible apply ite_P
  have hy2 : P y2 := by
    subst y2
    repeat' first
      | with_reducible assumption
      | with_reducible apply takeBuffer_keeps hP
      | with_reducible apply ite_P
  clear_value y0 y1 y2
  repeat' first
    | with_reducible assumption
    | with_reducible apply pumpPartials_keeps hP
    | with_reducible apply ite_P

theorem endRec_keeps (s : State) (h0 : Nat) (i : Nat) (code : Nat) (cause : Nat) (hs : P s) : P (State.endRec s h0 i code cause) := by
  unfold State.endRec
  repeat' first
    | with_reducible assumption
    | with_reducible apply leaveBuffer_keeps hP
    | with_reducible apply setEnt_keeps hP
    | with_reducible apply answer_keeps hP
    | split

theorem refuseRec_keeps (s : State) (r : Rec) (at_ : Nat) (code : Nat) (cause : Nat) (hs : P s) : P (State.refuseRec s r at_ code cause) := by
  unfold State.refuseRec
  extract_lets y0
  clear_value y0
  repeat' first
    | with_reducible assumption
    | with_reducible apply answer_keeps hP

theorem ackUpdate_keeps (s : State) (h0 : Nat) (i : Nat) (hs : P s) : P (State.ackUpdate s h0 i) := by
  unfold State.ackUpdate
  repeat' first
    | with_reducible assumption
    | with_reducible apply endRec_keeps hP
    | with_reducible apply setEnt_keeps hP
    | with_reducible apply answer_keeps hP
    | with_reducible apply ite_P
    | split

theorem vectorReady_keeps (s : State) (h0 : Nat) (i : Nat) (vec : List Byte) (carry : List VReg) (hs : P s) : P (State.vectorReady s h0 i vec carry) := by
  unfold State.vectorReady
  extract_lets y0
  clear_value y0
  repeat' first
    | with_reducible assumption
    | with_reducible apply setHub_keeps hP
    | with_reducible apply setEnt_keeps hP
    | split

theorem setVe_keeps (s : State) (h0 : Nat) (v : VeHub) (hs : P s) : P (State.setVe s h0 v) := by
  unfold State.setVe
  repeat' first
    | with_reducible assumption
    | (fail_if_no_progress with_reducible refine upd hP ?_ rfl)

theorem featReady_keeps (s : State) (h0 : Nat) (i : Nat) (hs : P s) : P (State.featReady s h0 i) := by
  unfold State.featReady
  repeat' first
    | with_reducible assumption
    | with_reducible apply vectorReady_keeps hP
    | with_reducible apply setEnt_keeps hP
    | with_reducible apply setVe_keeps hP
    | with_reducible apply ite_P
    | split

theorem snapsReady_keeps (s : State) (h0 : Nat) (i : Nat) (hs : P s) : P (State.snapsReady s h0 i) := by
  unfold State.snapsReady
  extract_lets y0
  clear_value y0
  repeat' first
    | with_reducible assumption
    | with_reducible apply ackUpdate_keeps hP
    | with_reducible apply setHub_keeps hP
    | with_reducible apply featReady_keeps hP
    | with_reducible apply ite_P
    | split

theorem formReply_keeps (s : State) (h0 : Nat) (i : Nat) (cs : Option (List Choice)) (hs : P s) : P (State.formReply s h0 i cs) := by
  unfold State.formReply
  extract_lets y0
  clear_value y0
  repeat' first
    | with_reducible assumption
    | with_reducible apply endRec_keeps hP
    | with_reducible apply setEnt_keeps hP
    | with_reducible apply answer_keeps hP
    | with_reducible apply ite_P
    | split

theorem replyRoute_keeps (s : State) (x : SetlRec) (cs : List Choice) (hs : P s) : P (State.replyRoute s x cs) := by
  unfold State.replyRoute
  extract_lets y0 y1 y2 y3 y4 y5 y6 y7 y8
  have hy4 : P y4 := by
    subst y4
    repeat' first
      | with_reducible assumption
      | with_reducible refine hP.count _ _ _ _ ?_
  have hy5 : P y5 := by
    subst y5
    repeat' first
      | with_reducible assumption
      | with_reducible refine hP.count _ _ _ _ ?_
  have hy6 : P y6 := by
    subst y6
    repeat' first
      | with_reducible assumption
      | with_reducible refine hP.count _ _ _ _ ?_
  have hy7 : P y7 := by
    subst y7
    repeat' first
      | with_reducible assumption
      | with_reducible refine hP.count _ _ _ _ ?_
      | with_reducible apply ite_P
  have hy8 : P y8 := by
    subst y8
    repeat' first
      | with_reducible assumption
      | with_reducible apply tick_keeps hP
      | with_reducible apply ite_P
  subst y3
  subst y0
  try beta_reduce
  repeat' first
    | with_reducible assumption
    | with_reducible apply formReply_keeps hP

theorem setSettlement_keeps (s : State) (x : Settlement) (hs : P s) : P (State.setSettlement s x) := by
  unfold State.setSettlement
  extract_lets y0
  clear_value y0
  repeat' first
    | with_reducible assumption
    | (fail_if_no_progress with_reducible refine upd hP ?_ rfl)

theorem routeReady_keeps (s : State) (h0 : Nat) (i : Nat) (hs : P s) : P (State.routeReady s h0 i) := by
  unfold State.routeReady
  repeat' first
    | with_reducible assumption
    | with_reducible refine hP.count _ _ _ _ ?_
    | with_reducible apply setEnt_keeps hP
    | with_reducible apply replyRoute_keeps hP
    | with_reducible apply setSettlement_keeps hP
    | with_reducible apply tick_keeps hP
    | (fail_if_no_progress with_reducible refine upd hP ?_ rfl)
    | with_reducible apply ite_P
    | extract_lets
    | split

theorem resultsReady_keeps (s : State) (h0 : Nat) (i : Nat) (hs : P s) : P (State.resultsReady s h0 i) := by
  unfold State.resultsReady
  repeat' first
    | with_reducible assumption
    | with_reducible apply setEnt_keeps hP
    | with_reducible apply routeReady_keeps hP
    | with_reducible apply formReply_keeps hP
    | with_reducible apply ite_P
    | split

theorem finishReady_keeps (s : State) (h0 : Nat) (i : Nat) (hs : P s) : P (State.finishReady s h0 i) := by
  unfold State.finishReady
  repeat' first
    | with_reducible assumption
    | with_reducible apply resultsReady_keeps hP
    | with_reducible apply setEnt_keeps hP
    | with_reducible apply setVe_keeps hP
    | with_reducible apply ite_P
    | split

theorem freeVector_keeps (s : State) (h0 : Nat) (i : Nat) (hs : P s) : P (State.freeVector s h0 i) := by
  unfold State.freeVector
  extract_lets y0
  clear_value y0
  repeat' first
    | with_reducible assumption
    | with_reducible apply setHub_keeps hP
    | with_reducible apply ite_P
    | split

theorem patchHeld_keeps (s : State) (h0 : Nat) (i : Nat) (old : RecEnt) (new : RecEnt) (hs : P s) : P (State.patchHeld s h0 i old new) := by
  unfold State.patchHeld
  extract_lets y0 y1
  subst y0
  try beta_reduce
  repeat' first
    | with_reducible assumption
    | (fail_if_no_progress with_reducible refine upd hP ?_ rfl)

theorem setQueue_keeps (s : State) (q : Nat) (l : AdmQueue) (hs : P s) : P (State.setQueue s q l) := by
  unfold State.setQueue
  extract_lets y0
  clear_value y0
  repeat' first
    | with_reducible assumption
    | (fail_if_no_progress with_reducible refine upd hP ?_ rfl)

theorem flushGhosts_keeps (s : State) (a1 : AdmQueue) (hs : P s) : FstP P (State.flushGhosts s a1) := by
  induction a1 generalizing s with
  | nil =>
    unfold State.flushGhosts
    repeat' first
      | with_reducible assumption
      | with_reducible apply fst_mk
  | cons x l ih =>
    unfold State.flushGhosts
    repeat' first
      | (with_reducible refine ih _ ?_)
      | with_reducible assumption
      | with_reducible apply capture_keeps hP
      | with_reducible apply ite_FstP
      | extract_lets
      | with_reducible apply fst_mk

theorem putQueue_keeps (s : State) (q : Nat) (l : AdmQueue) (hs : P s) : P (State.putQueue s q l) := by
  unfold State.putQueue
  extract_lets y0
  have hy0 : FstP P y0 := by
    subst y0
    repeat' first
      | with_reducible assumption
      | with_reducible apply flushGhosts_keeps hP
  clear_value y0
  repeat' first
    | with_reducible apply setQueue_keeps hP
    | extract_lets
    | with_reducible exact FstP.out ‹_›

theorem weirArrive_keeps (s : State) (x : QEnt) (lossy : Bool) (hs : P s) : P (State.weirArrive s x lossy) := by
  unfold State.weirArrive
  extract_lets y0 y1 y2 y3 y4 y5 y6
  have hy5 : P y5 := by
    subst y5
    repeat' first
      | with_reducible assumption
      | with_reducible apply setHub_keeps hP
  have hy6 : P y6 := by
    subst y6
    repeat' first
      | with_reducible assumption
      | with_reducible apply setHub_keeps hP
      | with_reducible apply ite_P
  clear_value y0 y1 y2 y3 y4 y5 y6
  repeat' first
    | with_reducible assumption
    | with_reducible apply setQueue_keeps hP
    | with_reducible apply setHub_keeps hP
    | with_reducible apply putQueue_keeps hP
    | with_reducible apply refuseRec_keeps hP
    | with_reducible apply ite_P
    | extract_lets
    | split

theorem handRequests_keeps (s : State) (h0 : Nat) (at_ : Nat) (reqs : List (Nat × EddyReq)) (hs : P s) : P (State.handRequests s h0 at_ reqs) := by
  unfold State.handRequests
  extract_lets y0 y1 y2 y3
  have hy3 : P y3 := by
    subst y3
    repeat' first
      | with_reducible assumption
      | (fail_if_no_progress with_reducible refine upd hP ?_ rfl)
  clear_value y0 y1 y2 y3
  repeat' first
    | with_reducible assumption
    | with_reducible apply brSend_keeps hP
    | with_reducible apply tick_keeps hP
    | (fail_if_no_progress with_reducible refine upd hP ?_ rfl)
    | with_reducible apply ite_P
    | with_reducible refine foldl_keeps _ ?_ (fun s x hs => ?_)
    | extract_lets
    | split

theorem admitRec_keeps (s : State) (h0 : Nat) (x : QEnt) (hs : P s) : P (State.admitRec s h0 x) := by
  unfold State.admitRec
  extract_lets y0 y1 y2 y3 y4 y5 y6 y7 y8 y9 y10 y11 y12 y13 y14 y15 y16 y17 y18 y19 y20
  have hy14 : P y14 := by
    subst y14
    repeat' first
      | with_reducible assumption
      | with_reducible apply setHub_keeps hP
  have hy16 : P y16 := by
    subst y16
    repeat' first
      | with_reducible assumption
      | (fail_if_no_progress with_reducible refine upd hP ?_ rfl)
      | with_reducible apply ite_P
  have hy17 : P y17 := by
    subst y17
    repeat' first
      | with_reducible assumption
      | with_reducible apply tick_keeps hP
      | with_reducible refine foldl_keeps _ ?_ (fun s x hs => ?_)
  have hy18 : P y18 := by
    subst y18
    repeat' first
      | with_reducible assumption
      | with_reducible apply handRequests_keeps hP
  have hy20 : P y20 := by
    subst y20
    repeat' first
      | with_reducible assumption
      | with_reducible apply setCap_keeps hP
      | with_reducible apply ite_P
  clear_value y0 y1 y2 y3 y4 y5 y6 y7 y8 y9 y10 y11 y12 y13 y14 y15 y16 y17 y18 y19 y20
  repeat' first
    | with_reducible assumption
    | with_reducible apply snapsReady_keeps hP

theorem admitHead_keeps (s : State) (q : Nat) (hs : P s) : OptP P (State.admitHead s q) := by
  unfold State.admitHead
  extract_lets y0
  clear_value y0
  repeat' first
    | with_reducible assumption
    | with_reducible apply refuseRec_keeps hP
    | with_reducible apply putQueue_keeps hP
    | with_reducible apply setCap_keeps hP
    | with_reducible apply admitRec_keeps hP
    | with_reducible apply capture_keeps hP
    | with_reducible apply opt_some
    | with_reducible apply opt_none
    | with_reducible apply ite_OptP
    | extract_lets
    | split

theorem headServed_keeps (s : State) (q : Nat) (hs : P s) : P (State.headServed s q) := by
  unfold State.headServed
  extract_lets y0 y1
  clear_value y0 y1
  repeat' first
    | with_reducible assumption
    | with_reducible apply setHub_keeps hP

theorem timeoutHead_keeps (s : State) (q : Nat) (hs : P s) : OptP P (State.timeoutHead s q) := by
  unfold State.timeoutHead
  repeat' first
    | with_reducible assumption
    | with_reducible apply capture_keeps hP
    | with_reducible apply tick_keeps hP
    | with_reducible apply refuseRec_keeps hP
    | with_reducible apply putQueue_keeps hP
    | with_reducible apply opt_some
    | with_reducible apply opt_none
    | with_reducible apply ite_OptP
    | with_reducible apply ite_P
    | split

theorem execAdmissionDeadlineExpiry_keeps (queue : Nat) (s : State) (hs : P s) : OutP P (execAdmissionDeadlineExpiry queue s) := by
  unfold execAdmissionDeadlineExpiry
  repeat' first
    | with_reducible assumption
    | with_reducible apply timeoutHead_keeps hP
    | with_reducible apply headServed_keeps hP
    | with_reducible apply out_gated
    | with_reducible apply out_next
    | with_reducible apply ite_OutP
    | extract_lets
    | (with_reducible apply opt_eq; with_reducible assumption)
    | split

theorem execAdmissionHeadAdmit_keeps (queue : Nat) (s : State) (hs : P s) : OutP P (execAdmissionHeadAdmit queue s) := by
  unfold execAdmissionHeadAdmit
  repeat' first
    | with_reducible assumption
    | with_reducible apply admitHead_keeps hP
    | with_reducible apply headServed_keeps hP
    | with_reducible apply out_gated
    | with_reducible apply out_next
    | with_reducible apply ite_OutP
    | extract_lets
    | (with_reducible apply opt_eq; with_reducible assumption)
    | split

theorem execReplayHeadRelease_keeps (queue : Nat) (s : State) (hs : P s) : OutP P (execReplayHeadRelease queue s) := by
  unfold execReplayHeadRelease
  repeat' first
    | with_reducible assumption
    | with_reducible apply admitHead_keeps hP
    | with_reducible apply headServed_keeps hP
    | with_reducible apply out_gated
    | with_reducible apply out_next
    | with_reducible apply ite_OutP
    | extract_lets
    | (with_reducible apply opt_eq; with_reducible assumption)
    | split

theorem nextSeq_keeps (s : State) (n : Nat) (hs : P s) : SndP P (State.nextSeq s n) := by
  unfold State.nextSeq
  extract_lets y0 y1
  clear_value y0 y1
  repeat' first
    | with_reducible assumption
    | (fail_if_no_progress with_reducible refine upd hP ?_ rfl)
    | with_reducible apply snd_mk

theorem takeIntake_keeps (s : State) (lossy : Bool) (a2 : Intake) (hs : P s) : P (State.takeIntake s lossy a2) := by
  unfold State.takeIntake
  extract_lets y0
  clear_value y0
  repeat' first
    | with_reducible assumption
    | with_reducible apply refuseRec_keeps hP
    | with_reducible apply weirArrive_keeps hP
    | (fail_if_no_progress with_reducible refine upd hP ?_ rfl)
    | split

theorem takeRecord_keeps (s : State) (base : Rec) (lossy : Bool) (verdict : SessVerdict) (idx : Nat) (b : Option (List Byte)) (hs : P s) : P (State.takeRecord s base lossy verdict idx b) := by
  unfold State.takeRecord
  extract_lets y0 y1 y2 y3
  have hy0 : SndP P y0 := by
    subst y0
    repeat' first
      | with_reducible assumption
      | with_reducible apply nextSeq_keeps hP
  have hy1 : P y1 := by
    subst y1
    repeat' first
      | with_reducible exact SndP.out ‹_›
  clear_value y0 y1 y2 y3
  repeat' first
    | with_reducible assumption
    | with_reducible apply refuseRec_keeps hP
    | with_reducible apply takeIntake_keeps hP
    | split

theorem takeAll_keeps (s : State) (base : Rec) (lossy : Bool) (verdict : SessVerdict) (a4 : Nat) (a5 : List (Option (List Byte))) (hs : P s) : P (State.takeAll s base lossy verdict a4 a5) := by
  induction a5 generalizing s a4 with
  | nil =>
    unfold State.takeAll
    repeat' first
      | with_reducible assumption
  | cons b bs ih =>
    unfold State.takeAll
    repeat' first
      | (with_reducible refine ih _ _ ?_)
      | with_reducible assumption
      | with_reducible apply takeRecord_keeps hP

theorem takeFrame_keeps (s : State) (p : Nat) (stamp : Nat) (dest : Dest) (verdict : SessVerdict) (lossy : Bool) (payload : List Byte) (hs : P s) : P (State.takeFrame s p stamp dest verdict lossy payload) := by
  unfold State.takeFrame
  extract_lets y0 y1 y2 y3
  have hy3 : P y3 := by
    subst y3
    repeat' first
      | with_reducible assumption
      | with_reducible refine hP.count _ _ _ _ ?_
  clear_value y0 y1 y2 y3
  repeat' first
    | with_reducible assumption
    | with_reducible apply takeAll_keeps hP

theorem protect_keeps (s : State) (p : Nat) (hs : P s) : FstP P (State.protect s p) := by
  unfold State.protect
  extract_lets y0
  clear_value y0
  repeat' first
    | with_reducible assumption
    | with_reducible apply setPort_keeps hP
    | split
    | with_reducible apply fst_mk

theorem pfcCheck_keeps (s : State) (p : Nat) (b : Bool) (hs : P s) : P (State.pfcCheck s p b) := by
  unfold State.pfcCheck
  extract_lets y0 y1 y2 y3 y4 y5
  subst y5
  try beta_reduce
  repeat' first
    | with_reducible assumption
    | with_reducible apply setPort_keeps hP
    | (fail_if_no_progress with_reducible refine upd hP ?_ rfl)
    | with_reducible apply ite_P
    | extract_lets
    | (with_reducible apply FstP.out; with_reducible apply protect_keeps hP)

theorem acceptFrame_keeps (s : State) (p : Nat) (cls : Option Bool) (len : Nat) (stamp : Nat) (h0 : IpHead) (payload : List Byte) (hs : P s) : P (State.acceptFrame s p cls len stamp h0 payload) := by
  unfold State.acceptFrame
  extract_lets y0 y1 y2 y3 y4 y5 y6 y7 y8 y9 y10 y11
  have hy7 : P y7 := by
    subst y7
    repeat' first
      | with_reducible assumption
      | (fail_if_no_progress with_reducible refine upd hP ?_ rfl)
  have hy8 : P y8 := by
    subst y8
    repeat' first
      | with_reducible assumption
      | with_reducible apply latch_keeps hP
      | with_reducible apply ite_P
  clear_value y0 y1 y2 y3 y4 y5 y6 y7 y8 y9 y10 y11
  repeat' first
    | with_reducible assumption
    | with_reducible apply releaseReply_keeps hP
    | with_reducible apply takeFrame_keeps hP
    | with_reducible apply pfcCheck_keeps hP
    | with_reducible apply setPort_keeps hP
    | with_reducible apply ite_P
    | split

theorem discard_keeps (s : State) (p : Nat) (k : Nat) (hs : P s) : P (State.discard s p k) := by
  unfold State.discard
  repeat' first
    | with_reducible assumption
    | with_reducible apply tick_keeps hP

theorem sendEvents_keeps (s : State) (p : Nat) (start : Nat) (hs : P s) : P (State.sendEvents s p start) := by
  unfold State.sendEvents
  extract_lets y0 y1 y2 y3 y4 y5 y6 y7 y8
  have hy6 : FstP P y6 := by
    subst y6
    repeat' first
      | with_reducible assumption
      | with_reducible apply protect_keeps hP
  have hy7 : P y7 := by
    subst y7
    repeat' first
      | with_reducible exact FstP.out ‹_›
  clear_value y0 y1 y2 y3 y4 y5 y6 y7 y8
  repeat' first
    | with_reducible assumption
    | (fail_if_no_progress with_reducible refine upd hP ?_ rfl)
    | with_reducible apply ite_P

theorem sendFrame_keeps (s : State) (p : Nat) (f : TxFrame) (start : Nat) (hs : P s) : P (State.sendFrame s p f start) := by
  unfold State.sendFrame
  extract_lets y0 y1 y2 y3 y4 y5
  have hy3 : FstP P y3 := by
    subst y3
    repeat' first
      | with_reducible assumption
      | with_reducible apply protect_keeps hP
  have hy4 : P y4 := by
    subst y4
    repeat' first
      | with_reducible exact FstP.out ‹_›
  subst y1
  try beta_reduce
  repeat' first
    | with_reducible assumption
    | with_reducible refine hP.count _ _ _ _ ?_
    | with_reducible apply freeEnt_keeps hP
    | (fail_if_no_progress with_reducible refine upd hP ?_ rfl)
    | with_reducible refine foldl_keeps _ ?_ (fun s x hs => ?_)
    | extract_lets
    | split

theorem execControlProtocolFrame_keeps (port : Nat) (sub : Nat) (c : CtrlFrame) (s : State) (hs : P s) : OutP P (execControlProtocolFrame port sub c s) := by
  unfold execControlProtocolFrame
  repeat' first
    | with_reducible assumption
    | with_reducible apply discard_keeps hP
    | with_reducible apply setPort_keeps hP
    | with_reducible apply out_gated
    | (fail_if_no_progress with_reducible refine upd hP ?_ rfl)
    | with_reducible apply out_next
    | with_reducible apply ite_OutP
    | extract_lets
    | (with_reducible apply FstP.out; with_reducible apply protect_keeps hP)
    | split

theorem execFrameReceived_keeps (port : Nat) (sub : Nat) (f : RxFrame) (s : State) (hs : P s) : OutP P (execFrameReceived port sub f s) := by
  unfold execFrameReceived
  repeat' first
    | with_reducible assumption
    | with_reducible apply discard_keeps hP
    | with_reducible refine hP.count _ _ _ _ ?_
    | with_reducible apply setPort_keeps hP
    | with_reducible apply acceptFrame_keeps hP
    | with_reducible apply out_gated
    | with_reducible apply out_next
    | with_reducible apply ite_OutP
    | extract_lets
    | split

theorem execLldpTransmit_keeps (port : Nat) (sub : Nat) (s : State) (hs : P s) : OutP P (execLldpTransmit port sub s) := by
  unfold execLldpTransmit
  repeat' first
    | with_reducible assumption
    | with_reducible apply out_gated
    | (fail_if_no_progress with_reducible refine upd hP ?_ rfl)
    | with_reducible apply out_next
    | with_reducible apply ite_OutP
    | extract_lets
    | (with_reducible apply FstP.out; with_reducible apply protect_keeps hP)

theorem execLockstepReleaseTick_keeps (s : State) (hs : P s) : OutP P (execLockstepReleaseTick s) := by
  unfold execLockstepReleaseTick
  repeat' first
    | with_reducible assumption
    | with_reducible apply replyBraid_keeps hP
    | with_reducible apply setPort_keeps hP
    | with_reducible apply out_gated
    | (fail_if_no_progress with_reducible refine upd hP ?_ rfl)
    | with_reducible apply out_next
    | with_reducible apply ite_P
    | with_reducible refine foldl_keeps _ ?_ (fun s x hs => ?_)
    | extract_lets
    | split

theorem execLosslessFrameParse_keeps (port : Nat) (sub : Nat) (classB : Bool) (s : State) (hs : P s) : OutP P (execLosslessFrameParse port sub classB s) := by
  unfold execLosslessFrameParse
  repeat' first
    | with_reducible assumption
    | with_reducible apply pfcCheck_keeps hP
    | with_reducible apply setPort_keeps hP
    | with_reducible apply takeFrame_keeps hP
    | with_reducible apply out_gated
    | with_reducible apply out_next
    | with_reducible apply ite_OutP
    | extract_lets
    | split

theorem execMacsecKeyChange_keeps (port : Nat) (sub : Nat) (s : State) (hs : P s) : OutP P (execMacsecKeyChange port sub s) := by
  unfold execMacsecKeyChange
  repeat' first
    | with_reducible assumption
    | with_reducible apply setPort_keeps hP
    | with_reducible apply out_gated
    | (fail_if_no_progress with_reducible refine upd hP ?_ rfl)
    | with_reducible apply out_next
    | with_reducible apply ite_OutP
    | extract_lets
    | split

theorem execMkaFrame_keeps (port : Nat) (sub : Nat) (m : MkaMsg) (s : State) (hs : P s) : OutP P (execMkaFrame port sub m s) := by
  unfold execMkaFrame
  repeat' first
    | with_reducible assumption
    | with_reducible apply discard_keeps hP
    | with_reducible apply setPort_keeps hP
    | with_reducible apply out_gated
    | with_reducible apply out_next
    | with_reducible apply ite_OutP

theorem execPfcFrameReceived_keeps (port : Nat) (sub : Nat) (enable : BitVec 8) (quanta : PfcQuanta) (s : State) (hs : P s) : OutP P (execPfcFrameReceived port sub enable quanta s) := by
  unfold execPfcFrameReceived
  repeat' first
    | with_reducible assumption
    | with_reducible apply discard_keeps hP
    | with_reducible apply setPort_keeps hP
    | with_reducible apply out_gated
    | with_reducible apply out_next
    | with_reducible apply ite_OutP
    | extract_lets
    | split

theorem execRecordPortDown_keeps (port : Nat) (sub : Nat) (s : State) (hs : P s) : OutP P (execRecordPortDown port sub s) := by
  unfold execRecordPortDown
  repeat' first
    | with_reducible assumption
    | with_reducible apply setPort_keeps hP
    | with_reducible apply out_gated
    | with_reducible apply out_next

theorem execRecordPortUp_keeps (port : Nat) (sub : Nat) (s : State) (hs : P s) : OutP P (execRecordPortUp port sub s) := by
  unfold execRecordPortUp
  repeat' first
    | with_reducible assumption
    | with_reducible apply setPort_keeps hP
    | with_reducible apply out_gated
    | with_reducible apply out_next
    | with_reducible apply ite_OutP

theorem execReplyCoalesceExpiry_keeps (port : Nat) (sub : Nat) (dest : Dest) (s : State) (hs : P s) : OutP P (execReplyCoalesceExpiry port sub dest s) := by
  unfold execReplyCoalesceExpiry
  repeat' first
    | with_reducible assumption
    | with_reducible apply setPort_keeps hP
    | with_reducible apply out_gated
    | with_reducible apply out_next
    | with_reducible apply ite_OutP
    | extract_lets
    | split

theorem execReplyLeftPort_keeps (port : Nat) (sub : Nat) (events : Bool) (startedAgo : Nat) (s : State) (hs : P s) : OutP P (execReplyLeftPort port sub events startedAgo s) := by
  unfold execReplyLeftPort
  repeat' first
    | with_reducible assumption
    | with_reducible apply sendEvents_keeps hP
    | with_reducible apply sendFrame_keeps hP
    | with_reducible apply setPort_keeps hP
    | with_reducible apply out_gated
    | with_reducible apply out_next
    | with_reducible apply ite_OutP
    | extract_lets
    | split

theorem execSessionIdleExpiry_keeps (hub : Nat) (key : SessionKey) (s : State) (hs : P s) : OutP P (execSessionIdleExpiry hub key s) := by
  unfold execSessionIdleExpiry
  repeat' first
    | with_reducible assumption
    | with_reducible apply out_gated
    | (fail_if_no_progress with_reducible refine upd hP ?_ rfl)
    | with_reducible apply out_next

theorem enterLocked_keeps (s : State) (hs : P s) : P (State.enterLocked s) := by
  unfold State.enterLocked
  extract_lets y0 y1
  have hy1 : P y1 := by
    subst y1
    repeat' first
      | with_reducible assumption
      | (fail_if_no_progress with_reducible refine upd hP ?_ rfl)
  clear_value y0 y1
  repeat' first
    | with_reducible assumption
    | with_reducible apply event_keeps hP

theorem rootTakesOver_keeps (s : State) (hs : P s) : P (State.rootTakesOver s) := by
  unfold State.rootTakesOver
  extract_lets y0
  clear_value y0
  repeat' first
    | with_reducible assumption
    | with_reducible apply enterLocked_keeps hP
    | (fail_if_no_progress with_reducible refine upd hP ?_ rfl)
    | with_reducible apply ite_P
    | extract_lets
    | split

theorem endEpoch_keeps (s : State) (t : Nat) (epoch : Nat) (hs : P s) : P (State.endEpoch s t epoch) := by
  unfold State.endEpoch
  repeat' first
    | with_reducible assumption
    | with_reducible apply epochMarker_keeps hP
    | with_reducible apply ite_P
    | split

theorem enterAcquire_keeps (s : State) (hs : P s) : P (State.enterAcquire s) := by
  unfold State.enterAcquire
  extract_lets y0
  clear_value y0
  repeat' first
    | with_reducible assumption
    | (fail_if_no_progress with_reducible refine upd hP ?_ rfl)

theorem followAlt_keeps (s : State) (hs : P s) : P (State.followAlt s) := by
  unfold State.followAlt
  extract_lets y0 y1 y2
  have hy1 : P y1 := by
    subst y1
    repeat' first
      | with_reducible assumption
      | (fail_if_no_progress with_reducible refine upd hP ?_ rfl)
  have hy2 : P y2 := by
    subst y2
    repeat' first
      | with_reducible assumption
      | with_reducible apply event_keeps hP
  clear_value y0 y1 y2
  repeat' first
    | with_reducible assumption
    | with_reducible apply noteDegraded_keeps hP
    | with_reducible apply rootTakesOver_keeps hP
    | with_reducible apply ite_P

theorem hearParent_keeps (s : State) (w : TimeWord) (hs : P s) : P (State.hearParent s w) := by
  unfold State.hearParent
  extract_lets y0 y1
  clear_value y0 y1
  repeat' first
    | with_reducible assumption
    | (fail_if_no_progress with_reducible refine upd hP ?_ rfl)

theorem measure_keeps (s : State) (w : TimeWord) (hs : P s) : P (State.measure s w) := by
  unfold State.measure
  extract_lets y0 y1 y2 y3
  have hy3 : P y3 := by
    subst y3
    repeat' first
      | with_reducible assumption
      | (fail_if_no_progress with_reducible refine upd hP ?_ rfl)
  clear_value y0 y1 y2 y3
  repeat' first
    | with_reducible assumption
    | with_reducible apply enterLocked_keeps hP
    | with_reducible apply ite_P
    | split

theorem setBt_keeps (s : State) (bt : Nat) (hs : P s) : P (State.setBt s bt) := by
  unfold State.setBt
  extract_lets y0 y1 y2 y3 y4 y5 y6
  have hy3 : P y3 := by
    subst y3
    repeat' first
      | with_reducible assumption
      | (fail_if_no_progress with_reducible refine upd hP ?_ rfl)
  clear_value y0 y1 y2 y3 y4 y5 y6
  repeat' first
    | with_reducible assumption
    | (fail_if_no_progress with_reducible refine upd hP ?_ rfl)

theorem parentWord_keeps (s : State) (port : Nat) (w : TimeWord) (hs : P s) : P (State.parentWord s port w) := by
  unfold State.parentWord
  extract_lets y0 y1 y2
  have hy0 : P y0 := by
    subst y0
    repeat' first
      | with_reducible assumption
      | with_reducible apply hearParent_keeps hP
  have hy2 : P y2 := by
    subst y2
    repeat' first
      | with_reducible assumption
      | (fail_if_no_progress with_reducible refine upd hP ?_ rfl)
  clear_value y0 y1 y2
  repeat' first
    | with_reducible assumption
    | with_reducible apply event_keeps hP
    | with_reducible apply enterAcquire_keeps hP
    | with_reducible apply setBt_keeps hP
    | with_reducible apply measure_keeps hP
    | with_reducible apply ite_P
    | split

theorem ptpTime_keeps (s : State) (t : ℤ) (hs : P s) : P (State.ptpTime s t) := by
  unfold State.ptpTime
  extract_lets y0 y1 y2 y3 y4 y5
  have hy3 : P y3 := by
    subst y3
    repeat' first
      | with_reducible assumption
      | (fail_if_no_progress with_reducible refine upd hP ?_ rfl)
  have hy5 : P y5 := by
    subst y5
    repeat' first
      | with_reducible assumption
      | (fail_if_no_progress with_reducible refine upd hP ?_ rfl)
  clear_value y0 y1 y2 y3 y4 y5
  repeat' first
    | with_reducible assumption
    | with_reducible apply event_keeps hP
    | (fail_if_no_progress with_reducible refine upd hP ?_ rfl)
    | with_reducible apply ite_P

theorem rootWord_keeps (s : State) (port : Nat) (w : TimeWord) (hs : P s) : P (State.rootWord s port w) := by
  unfold State.rootWord
  extract_lets y0 y1
  have hy1 : P y1 := by
    subst y1
    repeat' first
      | with_reducible assumption
      | (fail_if_no_progress with_reducible refine upd hP ?_ rfl)
  clear_value y0 y1
  repeat' first
    | with_reducible assumption
    | with_reducible apply enterLocked_keeps hP
    | with_reducible apply setBt_keeps hP
    | (fail_if_no_progress with_reducible refine upd hP ?_ rfl)
    | with_reducible apply ite_P
    | extract_lets
    | split

theorem timed_keeps (s : State) (port : Nat) (w : TimeWord) (hs : P s) : FstP P (State.timed s port w) := by
  unfold State.timed
  extract_lets y0 y1 y2
  have hy2 : P y2 := by
    subst y2
    repeat' first
      | with_reducible assumption
      | (fail_if_no_progress with_reducible refine upd hP ?_ rfl)
  clear_value y0 y1 y2
  repeat' first
    | with_reducible assumption
    | with_reducible apply ite_FstP
    | extract_lets
    | split
    | with_reducible apply fst_mk

theorem execEpochNoLongerLive_keeps (epoch : Nat) (s : State) (hs : P s) : OutP P (execEpochNoLongerLive epoch s) := by
  unfold execEpochNoLongerLive
  repeat' first
    | with_reducible assumption
    | with_reducible apply endEpoch_keeps hP
    | with_reducible apply out_gated
    | (fail_if_no_progress with_reducible refine upd hP ?_ rfl)
    | with_reducible apply out_next
    | with_reducible apply ite_OutP
    | with_reducible refine foldl_keeps _ ?_ (fun s x hs => ?_)

theorem execHoldoverEntry_keeps (s : State) (hs : P s) : OutP P (execHoldoverEntry s) := by
  unfold execHoldoverEntry
  repeat' first
    | with_reducible assumption
    | with_reducible apply noteDegraded_keeps hP
    | with_reducible apply event_keeps hP
    | with_reducible apply out_gated
    | (fail_if_no_progress with_reducible refine upd hP ?_ rfl)
    | with_reducible apply out_next
    | with_reducible apply ite_OutP

theorem execHoldoverExpiry_keeps (s : State) (hs : P s) : OutP P (execHoldoverExpiry s) := by
  unfold execHoldoverExpiry
  repeat' first
    | with_reducible assumption
    | with_reducible apply enterAcquire_keeps hP
    | with_reducible apply event_keeps hP
    | with_reducible apply out_gated
    | (fail_if_no_progress with_reducible refine upd hP ?_ rfl)
    | with_reducible apply out_next
    | with_reducible apply ite_OutP

theorem execPtpLockLoss_keeps (s : State) (hs : P s) : OutP P (execPtpLockLoss s) := by
  unfold execPtpLockLoss
  repeat' first
    | with_reducible assumption
    | with_reducible apply out_gated
    | (fail_if_no_progress with_reducible refine upd hP ?_ rfl)
    | with_reducible apply out_next
    | with_reducible apply ite_OutP

theorem execPtpMessage_keeps (port : Nat) (m : PtpMsg) (s : State) (hs : P s) : OutP P (execPtpMessage port m s) := by
  unfold execPtpMessage
  repeat' first
    | with_reducible assumption
    | with_reducible apply discard_keeps hP
    | with_reducible apply setPort_keeps hP
    | with_reducible apply ptpTime_keeps hP
    | with_reducible apply out_gated
    | (fail_if_no_progress with_reducible refine upd hP ?_ rfl)
    | with_reducible apply out_next
    | with_reducible apply ite_OutP
    | extract_lets
    | (with_reducible apply FstP.out; with_reducible apply protect_keeps hP)
    | split

theorem execRootBtStart_keeps (s : State) (hs : P s) : OutP P (execRootBtStart s) := by
  unfold execRootBtStart
  repeat' first
    | with_reducible assumption
    | with_reducible apply enterLocked_keeps hP
    | with_reducible apply setBt_keeps hP
    | with_reducible apply out_gated
    | with_reducible apply out_next
    | with_reducible apply ite_OutP

theorem execRootSwitch_keeps (s : State) (hs : P s) : OutP P (execRootSwitch s) := by
  unfold execRootSwitch
  repeat' first
    | with_reducible assumption
    | with_reducible apply followAlt_keeps hP
    | with_reducible apply out_gated
    | with_reducible apply out_next
    | with_reducible apply ite_OutP

theorem execTimeWordReceived_keeps (port : Nat) (w : TimeWord) (s : State) (hs : P s) : OutP P (execTimeWordReceived port w s) := by
  unfold execTimeWordReceived
  repeat' first
    | with_reducible assumption
    | with_reducible apply followAlt_keeps hP
    | with_reducible apply rootWord_keeps hP
    | with_reducible apply parentWord_keeps hP
    | with_reducible apply hearParent_keeps hP
    | with_reducible apply out_gated
    | with_reducible apply out_next
    | with_reducible apply ite_OutP
    | with_reducible apply ite_P
    | extract_lets
    | (with_reducible apply FstP.out; with_reducible apply timed_keeps hP)

theorem execTimeWordSend_keeps (port : Nat) (s : State) (hs : P s) : OutP P (execTimeWordSend port s) := by
  unfold execTimeWordSend
  repeat' first
    | with_reducible assumption
    | with_reducible apply out_gated
    | (fail_if_no_progress with_reducible refine upd hP ?_ rfl)
    | with_reducible apply out_next
    | with_reducible apply ite_OutP
    | extract_lets
    | (with_reducible apply SndP.out; with_reducible apply freshWord_keeps hP)

end Sys2Proof.Machine
end

