-- ==== Sys2Proof/Laws/ClosedEngines.lean ====
section
/-! SUPPORT. What every operation of the fetch engines, Eddy, the vector engines, the dies, rules and dispatch keeps (`Closed`). -/

namespace Sys2Proof.Machine

variable {P : State → Prop} (hP : Closed P)
include hP

theorem endSweep_keeps (s : State) (hs : P s) : P (State.endSweep s) := by
  unfold State.endSweep
  extract_lets y0
  repeat' first
    | with_reducible assumption
    | with_reducible apply event_keeps hP
    | (fail_if_no_progress with_reducible refine upd hP ?_ rfl)
    | with_reducible apply ite_P
    | split

theorem optNotRun_keeps (s : State) (h0 : Nat) (i : Nat) (slot : Nat) (hs : P s) : P (State.optNotRun s h0 i slot) := by
  unfold State.optNotRun
  repeat' first
    | with_reducible assumption
    | with_reducible apply setEnt_keeps hP
    | split

theorem faultRec_keeps (s : State) (h0 : Nat) (i : Nat) (cause : Nat) (hs : P s) : P (State.faultRec s h0 i cause) := by
  unfold State.faultRec
  repeat' first
    | with_reducible assumption
    | with_reducible apply leaveBuffer_keeps hP
    | with_reducible apply setEnt_keeps hP
    | with_reducible apply endRec_keeps hP
    | with_reducible apply ite_P
    | split

theorem abortRec_keeps (s : State) (h0 : Nat) (how : AbortBy) (r : Nat × Option Nat) (hs : P s) : P (State.abortRec s h0 how r) := by
  unfold State.abortRec
  repeat' first
    | with_reducible assumption
    | with_reducible apply optNotRun_keeps hP
    | with_reducible apply faultRec_keeps hP
    | with_reducible apply endRec_keeps hP
    | split

theorem setStream_keeps (s : State) (h0 : Nat) (st : Nat) (x : StreamSt) (hs : P s) : P (State.setStream s h0 st x) := by
  unfold State.setStream
  extract_lets y0
  clear_value y0
  repeat' first
    | with_reducible assumption
    | with_reducible apply setHub_keeps hP

theorem trimBufs_keeps (s : State) (hs : P s) : P (State.trimBufs s) := by
  unfold State.trimBufs
  extract_lets y0
  clear_value y0
  repeat' first
    | with_reducible assumption
    | (fail_if_no_progress with_reducible refine upd hP ?_ rfl)

theorem abortTask_keeps (s : State) (h0 : Nat) (st : Nat) (how : AbortBy) (hs : P s) : P (State.abortTask s h0 st how) := by
  unfold State.abortTask
  extract_lets y0 y1
  clear_value y0 y1
  repeat' first
    | with_reducible assumption
    | with_reducible apply setStream_keeps hP
    | with_reducible apply trimBufs_keeps hP
    | with_reducible apply abortRec_keeps hP
    | with_reducible apply latch_keeps hP
    | with_reducible apply event_keeps hP
    | (fail_if_no_progress with_reducible refine upd hP ?_ rfl)
    | with_reducible apply ite_P
    | with_reducible refine foldl_keeps _ ?_ (fun s x hs => ?_)
    | extract_lets
    | split

theorem abortTasks_keeps (s : State) (ts : List (Nat × Nat)) (how : AbortBy) (hs : P s) : P (State.abortTasks s ts how) := by
  unfold State.abortTasks
  repeat' first
    | with_reducible assumption
    | with_reducible apply abortTask_keeps hP
    | with_reducible refine foldl_keeps _ ?_ (fun s x hs => ?_)

theorem armStream_keeps (s : State) (h0 : Nat) (x : StreamSt) (hs : P s) : P (State.armStream s h0 x) := by
  unfold State.armStream
  repeat' first
    | with_reducible assumption
    | with_reducible apply setStream_keeps hP

theorem armTasks_keeps (s : State) (t : Nat) (i : SetInst) (hs : P s) : P (State.armTasks s t i) := by
  unfold State.armTasks
  extract_lets y0 y1
  have hy1 : P y1 := by
    subst y1
    repeat' first
      | with_reducible assumption
      | with_reducible apply armStream_keeps hP
      | with_reducible refine foldl_keeps _ ?_ (fun s x hs => ?_)
  clear_value y0 y1
  repeat' first
    | with_reducible assumption
    | with_reducible apply armStream_keeps hP
    | with_reducible refine foldl_keeps _ ?_ (fun s x hs => ?_)

theorem setFreeze_keeps (s : State) (t : Nat) (f : FreezeSt) (hs : P s) : P (State.setFreeze s t f) := by
  unfold State.setFreeze
  extract_lets y0
  clear_value y0
  repeat' first
    | with_reducible assumption
    | (fail_if_no_progress with_reducible refine upd hP ?_ rfl)

theorem startStreams_keeps (s : State) (t : Nat) (hs : P s) : P (State.startStreams s t) := by
  unfold State.startStreams
  extract_lets y0
  subst y0
  try beta_reduce
  repeat' first
    | with_reducible assumption
    | with_reducible apply setHub_keeps hP
    | with_reducible refine foldl_keeps _ ?_ (fun s x hs => ?_)

theorem dropUses_keeps (s : State) (h0 : Nat) (st : Nat) (hs : P s) : P (State.dropUses s h0 st) := by
  unfold State.dropUses
  extract_lets y0
  clear_value y0
  repeat' first
    | with_reducible assumption
    | with_reducible apply setHub_keeps hP

theorem applyRearm_keeps (s : State) (h0 : Nat) (st : Nat) (x : StreamSt) (base : Nat) (count : Nat) (hs : P s) : P (State.applyRearm s h0 st x base count) := by
  unfold State.applyRearm
  repeat' first
    | with_reducible assumption
    | with_reducible apply setStream_keeps hP
    | with_reducible apply dropUses_keeps hP

theorem armExport_keeps (s : State) (t : Nat) (first : Nat) (mib : Nat) (hs : P s) : P (State.armExport s t first mib) := by
  unfold State.armExport
  repeat' first
    | with_reducible assumption
    | with_reducible apply armStream_keeps hP
    | with_reducible apply ite_P
    | with_reducible refine foldl_keeps _ ?_ (fun s x hs => ?_)

theorem armLoad_keeps (s : State) (t : Nat) (slot : Nat) (bytes : Nat) (m : ModelSet) (hs : P s) : P (State.armLoad s t slot bytes m) := by
  unfold State.armLoad
  extract_lets y0 y1
  clear_value y0 y1
  repeat' first
    | with_reducible assumption
    | with_reducible apply armStream_keeps hP
    | with_reducible refine foldl_keeps _ ?_ (fun s x hs => ?_)

theorem bundleFailed_keeps (s : State) (addr : Nat) (hs : P s) : P (State.bundleFailed s addr) := by
  unfold State.bundleFailed
  repeat' first
    | with_reducible assumption
    | with_reducible apply setHwT_keeps hP
    | split

theorem semAdd_keeps (s : State) (sem : Nat) (n : Nat) (hs : P s) : P (State.semAdd s sem n) := by
  unfold State.semAdd
  extract_lets y0 y1 y2 y3
  have hy3 : P y3 := by
    subst y3
    repeat' first
      | with_reducible assumption
      | (fail_if_no_progress with_reducible refine upd hP ?_ rfl)
  clear_value y0 y1 y2 y3
  repeat' first
    | with_reducible assumption
    | with_reducible apply event_keeps hP
    | (fail_if_no_progress with_reducible refine upd hP ?_ rfl)
    | with_reducible apply ite_P

theorem rearm_keeps (s : State) (hub : Nat) (stream : Nat) (base : Nat) (count : Nat) (hs : P s) : OptP P (State.rearm s hub stream base count) := by
  unfold State.rearm
  repeat' first
    | with_reducible assumption
    | with_reducible apply applyRearm_keeps hP
    | with_reducible apply setStream_keeps hP
    | with_reducible apply opt_some
    | with_reducible apply opt_none
    | with_reducible apply ite_OptP
    | split

theorem drainDone_keeps (s : State) (t : Nat) (hs : P s) : P (State.drainDone s t) := by
  unfold State.drainDone
  extract_lets y0 y1
  have hy1 : P y1 := by
    subst y1
    repeat' first
      | with_reducible assumption
      | with_reducible apply setFreeze_keeps hP
  clear_value y0 y1
  repeat' first
    | with_reducible assumption
    | with_reducible apply event_keeps hP

theorem retireTasks_keeps (s : State) (t : Nat) (setId : Nat) (version : Nat) (hs : P s) : P (State.retireTasks s t setId version) := by
  unfold State.retireTasks
  repeat' first
    | with_reducible assumption
    | with_reducible apply setHub_keeps hP
    | with_reducible refine foldl_keeps _ ?_ (fun s x hs => ?_)

theorem endStreams_keeps (s : State) (t : Nat) (kind : Nat) (hs : P s) : P (State.endStreams s t kind) := by
  unfold State.endStreams
  repeat' first
    | with_reducible assumption
    | with_reducible apply setHub_keeps hP
    | with_reducible refine foldl_keeps _ ?_ (fun s x hs => ?_)

theorem gotElem_keeps (s : State) (h0 : Nat) (st : Nat) (elem : Nat) (hs : P s) : P (State.gotElem s h0 st elem) := by
  unfold State.gotElem
  repeat' first
    | with_reducible assumption
    | with_reducible apply setStream_keeps hP
    | with_reducible apply ite_P
    | split

theorem fetchLine_keeps (s : State) (h0 : Nat) (engine : Nat) (st : Nat) (elem : Nat) (addr : Nat) (cached : Bool) (hs : P s) : P (State.fetchLine s h0 engine st elem addr cached) := by
  unfold State.fetchLine
  extract_lets y0 y1 y2 y3 y4
  have hy3 : P y3 := by
    subst y3
    repeat' first
      | with_reducible assumption
      | with_reducible apply tick_keeps hP
  clear_value y0 y1 y2 y3 y4
  repeat' first
    | with_reducible assumption
    | with_reducible apply setHub_keeps hP
    | with_reducible apply gotElem_keeps hP
    | with_reducible apply tick_keeps hP
    | with_reducible apply ite_P

theorem idleStreams_keeps (s : State) (t : Nat) (hs : P s) : P (State.idleStreams s t) := by
  unfold State.idleStreams
  repeat' first
    | with_reducible assumption
    | with_reducible apply setHub_keeps hP
    | with_reducible apply ite_P
    | with_reducible refine foldl_keeps _ ?_ (fun s x hs => ?_)

theorem issueRun_keeps (s : State) (h0 : Nat) (i : Nat) (st : Nat) (x : StreamSt) (e : RecEnt) (opt : Option Nat) (residual : List ℤ) (hs : P s) : FstP P (State.issueRun s h0 i st x e opt residual) := by
  unfold State.issueRun
  extract_lets y0 y1 y2 y3 y4 y5 y6 y7 y8
  have hy8 : P y8 := by
    subst y8
    repeat' first
      | with_reducible assumption
      | with_reducible apply pumpPartials_keeps hP
      | (fail_if_no_progress with_reducible refine upd hP ?_ rfl)
  clear_value y0 y1 y2 y3 y4 y5 y6 y7 y8
  repeat' first
    | with_reducible assumption
    | with_reducible apply setStream_keeps hP
    | with_reducible apply fst_mk

theorem issueOpt_keeps (s : State) (h0 : Nat) (i : Nat) (e : RecEnt) (o : OptSt) (hs : P s) : P (State.issueOpt s h0 i e o) := by
  unfold State.issueOpt
  repeat' first
    | with_reducible assumption
    | with_reducible apply setEnt_keeps hP
    | with_reducible apply ite_P
    | extract_lets
    | (with_reducible apply FstP.out; with_reducible apply issueRun_keeps hP)
    | split

theorem issueStage_keeps (s : State) (h0 : Nat) (i : Nat) (e : RecEnt) (hs : P s) : P (State.issueStage s h0 i e) := by
  unfold State.issueStage
  extract_lets y0 y1 y2 y3
  clear_value y0 y1 y2 y3
  repeat' first
    | with_reducible assumption
    | with_reducible apply endRec_keeps hP
    | with_reducible apply takeBuffer_keeps hP
    | with_reducible apply setEnt_keeps hP
    | with_reducible apply freeVector_keeps hP
    | with_reducible apply ite_P
    | extract_lets
    | (with_reducible apply FstP.out; with_reducible apply issueRun_keeps hP)
    | split

theorem readFault_keeps (s : State) (hub : Nat) (addr : Nat) (st : Nat) (u : Nat) (hs : P s) : P (State.readFault s hub addr st u) := by
  unfold State.readFault
  repeat' first
    | with_reducible assumption
    | with_reducible apply setStream_keeps hP
    | with_reducible apply dropUses_keeps hP
    | with_reducible apply abortTasks_keeps hP
    | with_reducible apply bundleFailed_keeps hP
    | with_reducible apply abortTask_keeps hP
    | with_reducible apply ite_P
    | split

theorem reapTails_keeps (s : State) (hs : P s) : P (State.reapTails s) := by
  unfold State.reapTails
  extract_lets y0
  clear_value y0
  repeat' first
    | with_reducible assumption
    | with_reducible apply clearRec_keeps hP
    | with_reducible apply setHub_keeps hP
    | with_reducible refine foldl_keeps _ ?_ (fun s x hs => ?_)

theorem execAbortComplete_keeps (hub : Nat) (stream : Nat) (s : State) (hs : P s) : OutP P (execAbortComplete hub stream s) := by
  unfold execAbortComplete
  extract_lets y0
  clear_value y0
  repeat' first
    | with_reducible assumption
    | with_reducible apply trimBufs_keeps hP
    | with_reducible apply applyRearm_keeps hP
    | with_reducible apply setStream_keeps hP
    | with_reducible apply out_gated
    | (fail_if_no_progress with_reducible refine upd hP ?_ rfl)
    | with_reducible apply out_next
    | with_reducible apply ite_OutP
    | with_reducible apply ite_P
    | extract_lets
    | split

theorem execDrainTimeout_keeps (tenant : Nat) (s : State) (hs : P s) : OutP P (execDrainTimeout tenant s) := by
  unfold execDrainTimeout
  refine out_gated hs ?_
  extract_lets f
  split
  · exact out_next hs
  · extract_lets l ts s1 s2
    refine ite_OutP (out_next hs) ?_
    have h1 : P s1 := setFreeze_keeps hP _ _ _ hs
    have h2 : P s2 := abortTasks_keeps hP _ _ _ h1
    clear_value s2 s1 ts
    split
    · exact out_next h1
    · exact out_next (event_keeps hP _ _ _ _ _ h2)

theorem execFetchRearm_keeps (hub : Nat) (stream : Nat) (base : Nat) (count : Nat) (s : State) (hs : P s) : OutP P (execFetchRearm hub stream base count s) := by
  unfold execFetchRearm
  repeat' first
    | with_reducible assumption
    | with_reducible apply rearm_keeps hP
    | with_reducible apply out_gated
    | with_reducible apply out_next
    | extract_lets
    | with_reducible refine opt_getD ?_ ?_

theorem execStageBufferIssue_keeps (hub : Nat) (rec_ : Nat) (s : State) (hs : P s) : OutP P (execStageBufferIssue hub rec_ s) := by
  unfold execStageBufferIssue
  repeat' first
    | with_reducible assumption
    | with_reducible apply issueStage_keeps hP
    | with_reducible apply out_gated
    | with_reducible apply out_next
    | with_reducible apply ite_OutP
    | extract_lets
    | split

theorem execStreamCountEnd_keeps (hub : Nat) (stream : Nat) (s : State) (hs : P s) : OutP P (execStreamCountEnd hub stream s) := by
  unfold execStreamCountEnd
  repeat' first
    | with_reducible assumption
    | with_reducible apply setStream_keeps hP
    | with_reducible apply semAdd_keeps hP
    | with_reducible apply out_gated
    | with_reducible apply out_next
    | with_reducible apply ite_OutP
    | with_reducible apply ite_P
    | extract_lets
    | split

theorem execStreamElementIssue_keeps (hub : Nat) (stream : Nat) (pick : Nat) (s : State) (hs : P s) : OutP P (execStreamElementIssue hub stream pick s) := by
  unfold execStreamElementIssue
  repeat' first
    | with_reducible assumption
    | with_reducible apply issueStage_keeps hP
    | with_reducible apply issueOpt_keeps hP
    | with_reducible apply setStream_keeps hP
    | with_reducible apply readFault_keeps hP
    | with_reducible apply fetchLine_keeps hP
    | with_reducible apply out_gated
    | with_reducible apply out_next
    | with_reducible apply ite_OutP
    | with_reducible apply ite_P
    | extract_lets
    | split

theorem saveArea_keeps (s : State) (hs : P s) : P (State.saveArea s) := by
  unfold State.saveArea
  extract_lets y0 y1 y2 y3
  clear_value y0 y1 y2 y3
  repeat' first
    | with_reducible assumption
    | (fail_if_no_progress with_reducible refine upd hP ?_ rfl)

theorem fwupReset_keeps (old : State) (new : State) (hold : P old) (hnew : P new) : P (State.fwupReset old new) := by
  unfold State.fwupReset
  extract_lets y0 y1 y2 y3
  have hy3 : P y3 := by
    subst y3
    repeat' first
      | with_reducible assumption
      | (fail_if_no_progress with_reducible refine upd hP ?_ rfl)
  clear_value y0 y1 y2 y3
  repeat' first
    | with_reducible assumption
    | with_reducible apply event_keeps hP
    | with_reducible apply ite_P

theorem putStraps_keeps (s : State) (v : List Nat) (hs : P s) : P (State.putStraps s v) := by
  unfold State.putStraps
  extract_lets y0 y1 y2
  have hy0 : P y0 := by
    subst y0
    repeat' first
      | with_reducible assumption
      | with_reducible refine hP.wr _ _ _ _ _ ?_
  have hy1 : P y1 := by
    subst y1
    repeat' first
      | with_reducible assumption
      | with_reducible refine hP.wr _ _ _ _ _ ?_
  have hy2 : P y2 := by
    subst y2
    repeat' first
      | with_reducible assumption
      | with_reducible refine hP.wr _ _ _ _ _ ?_
  clear_value y0 y1 y2
  repeat' first
    | with_reducible assumption
    | with_reducible refine hP.wr _ _ _ _ _ ?_

theorem fwupFail_keeps (s : State) (cause : Nat) (check : Nat) (hs : P s) : P (State.fwupFail s cause check) := by
  unfold State.fwupFail
  extract_lets y0 y1 y2 y3
  have hy3 : P y3 := by
    subst y3
    repeat' first
      | with_reducible assumption
      | (fail_if_no_progress with_reducible refine upd hP ?_ rfl)
  clear_value y0 y1 y2 y3
  repeat' first
    | with_reducible assumption
    | with_reducible apply event_keeps hP

theorem sendSnap_keeps (s : State) (q : EddyReq) (b : SnapBody) (hs : P s) : P (State.sendSnap s q b) := by
  unfold State.sendSnap
  extract_lets y0
  clear_value y0
  repeat' first
    | with_reducible assumption
    | with_reducible apply brSend_keeps hP
    | with_reducible apply tick_keeps hP
    | (fail_if_no_progress with_reducible refine upd hP ?_ rfl)
    | with_reducible apply ite_P
    | extract_lets
    | split

theorem applyReq_keeps (s : State) (q : EddyReq) (hs : P s) : P (State.applyReq s q) := by
  unfold State.applyReq
  split
  · exact sendSnap_keeps hP _ _ _ hs
  · extract_lets m fields b r k e0 s0 e1 s1 s2 s3 s4 s5 s6 e2 s7 s8
    have h0 : P s0 := upd hP hs rfl
    have h1 : P s1 := upd hP h0 rfl
    have h2 : P s2 := hP.count _ _ _ _ h1
    have h3 : P s3 := ite_P (hP.count _ _ _ _ h2) h2
    have h4 : P s4 := ite_P (hP.count _ _ _ _ h3) h3
    have h5 : P s5 := ite_P (hP.count _ _ _ _ h4) h4
    have h6 : P s6 := hP.count _ _ _ _ h5
    clear_value s6 s5 s4 s3 s2 s1 s0
    refine sendSnap_keeps hP _ _ _ ?_
    have h7 : P s7 := upd hP h6 rfl
    clear_value s7
    subst s8
    split
    · exact event_keeps hP _ _ _ _ _ h7
    · exact h6

theorem lateReq_keeps (s : State) (q : EddyReq) (hs : P s) : P (State.lateReq s q) := by
  unfold State.lateReq
  extract_lets y0 y1 y2 y3
  have hy0 : P y0 := by
    subst y0
    repeat' first
      | with_reducible assumption
      | with_reducible apply tick_keeps hP
  have hy2 : P y2 := by
    subst y2
    repeat' first
      | with_reducible assumption
      | (fail_if_no_progress with_reducible refine upd hP ?_ rfl)
  have hy3 : P y3 := by
    subst y3
    repeat' first
      | with_reducible assumption
      | with_reducible apply event_keeps hP
      | with_reducible apply ite_P
  clear_value y0 y1 y2 y3
  repeat' first
    | with_reducible assumption
    | with_reducible apply sendSnap_keeps hP

theorem mismatchReq_keeps (s : State) (q : EddyReq) (hs : P s) : P (State.mismatchReq s q) := by
  unfold State.mismatchReq
  extract_lets y0 y1 y2 y3
  have hy0 : P y0 := by
    subst y0
    repeat' first
      | with_reducible assumption
      | with_reducible apply tick_keeps hP
  have hy2 : P y2 := by
    subst y2
    repeat' first
      | with_reducible assumption
      | (fail_if_no_progress with_reducible refine upd hP ?_ rfl)
  have hy3 : P y3 := by
    subst y3
    repeat' first
      | with_reducible assumption
      | with_reducible apply event_keeps hP
      | with_reducible apply ite_P
  clear_value y0 y1 y2 y3
  repeat' first
    | with_reducible assumption
    | with_reducible apply sendSnap_keeps hP

theorem orderReq_keeps (s : State) (q : EddyReq) (port : Option Nat) (hs : P s) : P (State.orderReq s q port) := by
  unfold State.orderReq
  extract_lets y0 y1 y2 y3 y4 y5 y6 y7
  have hy4 : P y4 := by
    subst y4
    repeat' first
      | with_reducible assumption
      | (fail_if_no_progress with_reducible refine upd hP ?_ rfl)
  have hy5 : P y5 := by
    subst y5
    repeat' first
      | with_reducible assumption
      | with_reducible apply tick_keeps hP
  have hy7 : P y7 := by
    subst y7
    repeat' first
      | with_reducible assumption
      | (fail_if_no_progress with_reducible refine upd hP ?_ rfl)
  clear_value y0 y1 y2 y3 y4 y5 y6 y7
  repeat' first
    | with_reducible assumption
    | with_reducible apply event_keeps hP
    | with_reducible apply ite_P

theorem arriveReq_keeps (s : State) (q : EddyReq) (port : Option Nat) (hs : P s) : P (State.arriveReq s q port) := by
  unfold State.arriveReq
  repeat' first
    | with_reducible assumption
    | with_reducible apply lateReq_keeps hP
    | with_reducible apply mismatchReq_keeps hP
    | with_reducible apply sendSnap_keeps hP
    | with_reducible apply orderReq_keeps hP
    | with_reducible apply ite_P

theorem lateRec_keeps (s : State) (h0 : Nat) (i : Nat) (e : RecEnt) (b : SnapBody) (hs : P s) : P (State.lateRec s h0 i e b) := by
  unfold State.lateRec
  extract_lets y0 y1
  have hy1 : P y1 := by
    subst y1
    repeat' first
      | with_reducible assumption
      | with_reducible apply setEnt_keeps hP
  clear_value y0 y1
  repeat' first
    | with_reducible assumption
    | with_reducible apply setEnt_keeps hP
    | with_reducible apply handRequests_keeps hP
    | with_reducible apply endRec_keeps hP
    | with_reducible apply ite_P
    | split

theorem arriveSnap_keeps (s : State) (b : SnapBody) (hs : P s) : P (State.arriveSnap s b) := by
  unfold State.arriveSnap
  extract_lets y0 y1 y2 y3 y4
  have hy3 : P y3 := by
    subst y3
    repeat' first
      | with_reducible assumption
      | (fail_if_no_progress with_reducible refine upd hP ?_ rfl)
  have hy4 : P y4 := by
    subst y4
    repeat' first
      | with_reducible assumption
      | with_reducible apply tick_keeps hP
      | with_reducible apply ite_P
      | (clear_value *; split)
  subst y0
  try beta_reduce
  repeat' first
    | with_reducible assumption
    | with_reducible apply lateRec_keeps hP
    | with_reducible apply snapsReady_keeps hP
    | with_reducible apply setEnt_keeps hP
    | with_reducible apply ite_P
    | split

theorem clearStore_keeps (s : State) (t : Nat) (cls : Option Nat) (hs : P s) : P (State.clearStore s t cls) := by
  unfold State.clearStore
  extract_lets y0 y1
  subst y0
  try beta_reduce
  repeat' first
    | with_reducible assumption
    | (fail_if_no_progress with_reducible refine upd hP ?_ rfl)

theorem execEddyFenceRelease_keeps (hub : Nat) (s : State) (hs : P s) : OutP P (execEddyFenceRelease hub s) := by
  unfold execEddyFenceRelease
  repeat' first
    | with_reducible assumption
    | with_reducible apply applyReq_keeps hP
    | with_reducible apply out_gated
    | (fail_if_no_progress with_reducible refine upd hP ?_ rfl)
    | with_reducible apply out_next
    | with_reducible apply ite_OutP
    | extract_lets
    | split

theorem execEddyReq_keeps (port : Option Nat) (q : EddyReq) (s : State) (hs : P s) : OutP P (execEddyReq port q s) := by
  unfold execEddyReq
  repeat' first
    | with_reducible assumption
    | with_reducible apply arriveReq_keeps hP
    | with_reducible apply out_gated
    | (fail_if_no_progress with_reducible refine upd hP ?_ rfl)
    | with_reducible apply out_next
    | with_reducible apply ite_OutP
    | extract_lets
    | split

theorem execEddySnap_keeps (port : Option Nat) (b : SnapBody) (s : State) (hs : P s) : OutP P (execEddySnap port b s) := by
  unfold execEddySnap
  repeat' first
    | with_reducible assumption
    | with_reducible apply arriveSnap_keeps hP
    | with_reducible apply out_gated
    | (fail_if_no_progress with_reducible refine upd hP ?_ rfl)
    | with_reducible apply out_next
    | with_reducible apply ite_OutP
    | extract_lets
    | split

theorem execSnapshotWaitExpiry_keeps (hub : Nat) (ent : Nat) (s : State) (hs : P s) : OutP P (execSnapshotWaitExpiry hub ent s) := by
  unfold execSnapshotWaitExpiry
  repeat' first
    | with_reducible assumption
    | with_reducible apply endRec_keeps hP
    | with_reducible apply snapsReady_keeps hP
    | with_reducible apply setEnt_keeps hP
    | with_reducible apply out_gated
    | with_reducible apply out_next
    | with_reducible apply ite_OutP
    | extract_lets
    | split

theorem countRun_keeps (s : State) (hub : Nat) (engine : Nat) (r : VeRun) (hs : P s) : P (State.countRun s hub engine r) := by
  unfold State.countRun
  extract_lets y0 y1
  have hy1 : P y1 := by
    subst y1
    repeat' first
      | with_reducible assumption
      | with_reducible refine hP.count _ _ _ _ ?_
      | with_reducible apply tick_keeps hP
  clear_value y0 y1
  repeat' first
    | with_reducible assumption
    | with_reducible refine hP.count _ _ _ _ ?_
    | with_reducible refine foldl_keeps _ ?_ (fun s x hs => ?_)

theorem deliver_keeps (s : State) (hub : Nat) (i : Nat) (r : VeRun) (l : Lane) (hs : P s) : P (State.deliver s hub i r l) := by
  unfold State.deliver
  repeat' first
    | with_reducible assumption
    | with_reducible apply vectorReady_keeps hP
    | with_reducible apply resultsReady_keeps hP
    | with_reducible apply setEnt_keeps hP
    | with_reducible apply ite_P
    | split

theorem veExec_keeps (s : State) (hub : Nat) (engine : Nat) (op : Nat) (f : LoopFrame → VIns → Lane → Lane) (hs : P s) : OutP P (State.veExec s hub engine op f) := by
  unfold State.veExec
  extract_lets y0
  clear_value y0
  repeat' first
    | with_reducible assumption
    | with_reducible apply setVe_keeps hP
    | with_reducible apply out_next
    | with_reducible apply ite_OutP
    | split

theorem execVeAbs_keeps (hub : Nat) (engine : Nat) (s : State) (hs : P s) : OutP P (execVeAbs hub engine s) := by
  unfold execVeAbs
  repeat' first
    | with_reducible assumption
    | with_reducible apply veExec_keeps hP
    | with_reducible apply out_gated

theorem execVeAdd_keeps (hub : Nat) (engine : Nat) (s : State) (hs : P s) : OutP P (execVeAdd hub engine s) := by
  unfold execVeAdd
  repeat' first
    | with_reducible assumption
    | with_reducible apply veExec_keeps hP
    | with_reducible apply out_gated

theorem execVeAdds_keeps (hub : Nat) (engine : Nat) (s : State) (hs : P s) : OutP P (execVeAdds hub engine s) := by
  unfold execVeAdds
  repeat' first
    | with_reducible assumption
    | with_reducible apply veExec_keeps hP
    | with_reducible apply out_gated

theorem execVeAddus_keeps (hub : Nat) (engine : Nat) (s : State) (hs : P s) : OutP P (execVeAddus hub engine s) := by
  unfold execVeAddus
  repeat' first
    | with_reducible assumption
    | with_reducible apply veExec_keeps hP
    | with_reducible apply out_gated

theorem execVeAnd_keeps (hub : Nat) (engine : Nat) (s : State) (hs : P s) : OutP P (execVeAnd hub engine s) := by
  unfold execVeAnd
  repeat' first
    | with_reducible assumption
    | with_reducible apply veExec_keeps hP
    | with_reducible apply out_gated

theorem execVeAndn_keeps (hub : Nat) (engine : Nat) (s : State) (hs : P s) : OutP P (execVeAndn hub engine s) := by
  unfold execVeAndn
  repeat' first
    | with_reducible assumption
    | with_reducible apply veExec_keeps hP
    | with_reducible apply out_gated

theorem execVeBatchComplete_keeps (hub : Nat) (engine : Nat) (s : State) (hs : P s) : OutP P (execVeBatchComplete hub engine s) := by
  unfold execVeBatchComplete
  repeat' first
    | with_reducible assumption
    | with_reducible apply countRun_keeps hP
    | with_reducible apply setVe_keeps hP
    | with_reducible apply deliver_keeps hP
    | with_reducible apply out_gated
    | with_reducible apply out_next
    | with_reducible apply ite_OutP
    | with_reducible refine foldl_keeps _ ?_ (fun s x hs => ?_)
    | extract_lets
    | split

theorem execVeBatchLaunch_keeps (hub : Nat) (engine : Nat) (batch : Nat) (s : State) (hs : P s) : OutP P (execVeBatchLaunch hub engine batch s) := by
  unfold execVeBatchLaunch
  repeat' first
    | with_reducible assumption
    | with_reducible apply setVe_keeps hP
    | with_reducible apply setEnt_keeps hP
    | with_reducible apply out_gated
    | with_reducible apply out_next
    | with_reducible apply ite_OutP
    | with_reducible refine foldl_keeps _ ?_ (fun s x hs => ?_)
    | extract_lets
    | split
    | (clear_value *; split)

theorem execVeBatchWaitExpiry_keeps (hub : Nat) (batch : Nat) (s : State) (hs : P s) : OutP P (execVeBatchWaitExpiry hub batch s) := by
  unfold execVeBatchWaitExpiry
  repeat' first
    | with_reducible assumption
    | with_reducible apply setVe_keeps hP
    | with_reducible apply out_gated
    | with_reducible apply out_next
    | with_reducible apply ite_OutP
    | extract_lets
    | split

theorem execVeBfi_keeps (hub : Nat) (engine : Nat) (s : State) (hs : P s) : OutP P (execVeBfi hub engine s) := by
  unfold execVeBfi
  repeat' first
    | with_reducible assumption
    | with_reducible apply veExec_keeps hP
    | with_reducible apply out_gated

theorem execVeBfx_keeps (hub : Nat) (engine : Nat) (s : State) (hs : P s) : OutP P (execVeBfx hub engine s) := by
  unfold execVeBfx
  repeat' first
    | with_reducible assumption
    | with_reducible apply veExec_keeps hP
    | with_reducible apply out_gated

theorem execVeBkt_keeps (hub : Nat) (engine : Nat) (s : State) (hs : P s) : OutP P (execVeBkt hub engine s) := by
  unfold execVeBkt
  repeat' first
    | with_reducible assumption
    | with_reducible apply veExec_keeps hP
    | with_reducible apply out_gated

theorem execVeClrm_keeps (hub : Nat) (engine : Nat) (s : State) (hs : P s) : OutP P (execVeClrm hub engine s) := by
  unfold execVeClrm
  repeat' first
    | with_reducible assumption
    | with_reducible apply veExec_keeps hP
    | with_reducible apply out_gated

theorem execVeClz_keeps (hub : Nat) (engine : Nat) (s : State) (hs : P s) : OutP P (execVeClz hub engine s) := by
  unfold execVeClz
  repeat' first
    | with_reducible assumption
    | with_reducible apply veExec_keeps hP
    | with_reducible apply out_gated

theorem execVeCmp_keeps (hub : Nat) (engine : Nat) (s : State) (hs : P s) : OutP P (execVeCmp hub engine s) := by
  unfold execVeCmp
  repeat' first
    | with_reducible assumption
    | with_reducible apply veExec_keeps hP
    | with_reducible apply out_gated

theorem execVeCvtfi_keeps (hub : Nat) (engine : Nat) (s : State) (hs : P s) : OutP P (execVeCvtfi hub engine s) := by
  unfold execVeCvtfi
  repeat' first
    | with_reducible assumption
    | with_reducible apply veExec_keeps hP
    | with_reducible apply out_gated

theorem execVeCvtif_keeps (hub : Nat) (engine : Nat) (s : State) (hs : P s) : OutP P (execVeCvtif hub engine s) := by
  unfold execVeCvtif
  repeat' first
    | with_reducible assumption
    | with_reducible apply veExec_keeps hP
    | with_reducible apply out_gated

theorem execVeDivs_keeps (hub : Nat) (engine : Nat) (s : State) (hs : P s) : OutP P (execVeDivs hub engine s) := by
  unfold execVeDivs
  repeat' first
    | with_reducible assumption
    | with_reducible apply veExec_keeps hP
    | with_reducible apply out_gated

theorem execVeDivu_keeps (hub : Nat) (engine : Nat) (s : State) (hs : P s) : OutP P (execVeDivu hub engine s) := by
  unfold execVeDivu
  repeat' first
    | with_reducible assumption
    | with_reducible apply veExec_keeps hP
    | with_reducible apply out_gated

theorem execVeEndl_keeps (hub : Nat) (engine : Nat) (s : State) (hs : P s) : OutP P (execVeEndl hub engine s) := by
  unfold execVeEndl
  repeat' first
    | with_reducible assumption
    | with_reducible apply setVe_keeps hP
    | with_reducible apply out_gated
    | with_reducible apply out_next
    | with_reducible apply ite_OutP
    | extract_lets
    | split

theorem execVeFabs_keeps (hub : Nat) (engine : Nat) (s : State) (hs : P s) : OutP P (execVeFabs hub engine s) := by
  unfold execVeFabs
  repeat' first
    | with_reducible assumption
    | with_reducible apply veExec_keeps hP
    | with_reducible apply out_gated

theorem execVeFadd_keeps (hub : Nat) (engine : Nat) (s : State) (hs : P s) : OutP P (execVeFadd hub engine s) := by
  unfold execVeFadd
  repeat' first
    | with_reducible assumption
    | with_reducible apply veExec_keeps hP
    | with_reducible apply out_gated

theorem execVeFdiv_keeps (hub : Nat) (engine : Nat) (s : State) (hs : P s) : OutP P (execVeFdiv hub engine s) := by
  unfold execVeFdiv
  repeat' first
    | with_reducible assumption
    | with_reducible apply veExec_keeps hP
    | with_reducible apply out_gated

theorem execVeFexp2_keeps (hub : Nat) (engine : Nat) (s : State) (hs : P s) : OutP P (execVeFexp2 hub engine s) := by
  unfold execVeFexp2
  repeat' first
    | with_reducible assumption
    | with_reducible apply veExec_keeps hP
    | with_reducible apply out_gated

theorem execVeFlog2_keeps (hub : Nat) (engine : Nat) (s : State) (hs : P s) : OutP P (execVeFlog2 hub engine s) := by
  unfold execVeFlog2
  repeat' first
    | with_reducible assumption
    | with_reducible apply veExec_keeps hP
    | with_reducible apply out_gated

theorem execVeFmax_keeps (hub : Nat) (engine : Nat) (s : State) (hs : P s) : OutP P (execVeFmax hub engine s) := by
  unfold execVeFmax
  repeat' first
    | with_reducible assumption
    | with_reducible apply veExec_keeps hP
    | with_reducible apply out_gated

theorem execVeFmin_keeps (hub : Nat) (engine : Nat) (s : State) (hs : P s) : OutP P (execVeFmin hub engine s) := by
  unfold execVeFmin
  repeat' first
    | with_reducible assumption
    | with_reducible apply veExec_keeps hP
    | with_reducible apply out_gated

theorem execVeFmul_keeps (hub : Nat) (engine : Nat) (s : State) (hs : P s) : OutP P (execVeFmul hub engine s) := by
  unfold execVeFmul
  repeat' first
    | with_reducible assumption
    | with_reducible apply veExec_keeps hP
    | with_reducible apply out_gated

theorem execVeFneg_keeps (hub : Nat) (engine : Nat) (s : State) (hs : P s) : OutP P (execVeFneg hub engine s) := by
  unfold execVeFneg
  repeat' first
    | with_reducible assumption
    | with_reducible apply veExec_keeps hP
    | with_reducible apply out_gated

theorem execVeFrcp_keeps (hub : Nat) (engine : Nat) (s : State) (hs : P s) : OutP P (execVeFrcp hub engine s) := by
  unfold execVeFrcp
  repeat' first
    | with_reducible assumption
    | with_reducible apply veExec_keeps hP
    | with_reducible apply out_gated

theorem execVeFsqrt_keeps (hub : Nat) (engine : Nat) (s : State) (hs : P s) : OutP P (execVeFsqrt hub engine s) := by
  unfold execVeFsqrt
  repeat' first
    | with_reducible assumption
    | with_reducible apply veExec_keeps hP
    | with_reducible apply out_gated

theorem execVeFsub_keeps (hub : Nat) (engine : Nat) (s : State) (hs : P s) : OutP P (execVeFsub hub engine s) := by
  unfold execVeFsub
  repeat' first
    | with_reducible assumption
    | with_reducible apply veExec_keeps hP
    | with_reducible apply out_gated

theorem execVeLd_keeps (hub : Nat) (engine : Nat) (s : State) (hs : P s) : OutP P (execVeLd hub engine s) := by
  unfold execVeLd
  repeat' first
    | with_reducible assumption
    | with_reducible apply veExec_keeps hP
    | with_reducible apply out_gated

theorem execVeLoop_keeps (hub : Nat) (engine : Nat) (s : State) (hs : P s) : OutP P (execVeLoop hub engine s) := by
  unfold execVeLoop
  repeat' first
    | with_reducible assumption
    | with_reducible apply setVe_keeps hP
    | with_reducible apply out_gated
    | with_reducible apply out_next
    | with_reducible apply ite_OutP
    | extract_lets
    | split

theorem execVeMaxs_keeps (hub : Nat) (engine : Nat) (s : State) (hs : P s) : OutP P (execVeMaxs hub engine s) := by
  unfold execVeMaxs
  repeat' first
    | with_reducible assumption
    | with_reducible apply veExec_keeps hP
    | with_reducible apply out_gated

theorem execVeMaxu_keeps (hub : Nat) (engine : Nat) (s : State) (hs : P s) : OutP P (execVeMaxu hub engine s) := by
  unfold execVeMaxu
  repeat' first
    | with_reducible assumption
    | with_reducible apply veExec_keeps hP
    | with_reducible apply out_gated

theorem execVeMins_keeps (hub : Nat) (engine : Nat) (s : State) (hs : P s) : OutP P (execVeMins hub engine s) := by
  unfold execVeMins
  repeat' first
    | with_reducible assumption
    | with_reducible apply veExec_keeps hP
    | with_reducible apply out_gated

theorem execVeMinu_keeps (hub : Nat) (engine : Nat) (s : State) (hs : P s) : OutP P (execVeMinu hub engine s) := by
  unfold execVeMinu
  repeat' first
    | with_reducible assumption
    | with_reducible apply veExec_keeps hP
    | with_reducible apply out_gated

theorem execVeMissf_keeps (hub : Nat) (engine : Nat) (s : State) (hs : P s) : OutP P (execVeMissf hub engine s) := by
  unfold execVeMissf
  repeat' first
    | with_reducible assumption
    | with_reducible apply veExec_keeps hP
    | with_reducible apply out_gated

theorem execVeMov_keeps (hub : Nat) (engine : Nat) (s : State) (hs : P s) : OutP P (execVeMov hub engine s) := by
  unfold execVeMov
  repeat' first
    | with_reducible assumption
    | with_reducible apply veExec_keeps hP
    | with_reducible apply out_gated

theorem execVeMovi_keeps (hub : Nat) (engine : Nat) (s : State) (hs : P s) : OutP P (execVeMovi hub engine s) := by
  unfold execVeMovi
  repeat' first
    | with_reducible assumption
    | with_reducible apply veExec_keeps hP
    | with_reducible apply out_gated

theorem execVeMul_keeps (hub : Nat) (engine : Nat) (s : State) (hs : P s) : OutP P (execVeMul hub engine s) := by
  unfold execVeMul
  repeat' first
    | with_reducible assumption
    | with_reducible apply veExec_keeps hP
    | with_reducible apply out_gated

theorem execVeMulhs_keeps (hub : Nat) (engine : Nat) (s : State) (hs : P s) : OutP P (execVeMulhs hub engine s) := by
  unfold execVeMulhs
  repeat' first
    | with_reducible assumption
    | with_reducible apply veExec_keeps hP
    | with_reducible apply out_gated

theorem execVeMulhu_keeps (hub : Nat) (engine : Nat) (s : State) (hs : P s) : OutP P (execVeMulhu hub engine s) := by
  unfold execVeMulhu
  repeat' first
    | with_reducible assumption
    | with_reducible apply veExec_keeps hP
    | with_reducible apply out_gated

theorem execVeNop_keeps (hub : Nat) (engine : Nat) (s : State) (hs : P s) : OutP P (execVeNop hub engine s) := by
  unfold execVeNop
  repeat' first
    | with_reducible assumption
    | with_reducible apply veExec_keeps hP
    | with_reducible apply out_gated

theorem execVeOr_keeps (hub : Nat) (engine : Nat) (s : State) (hs : P s) : OutP P (execVeOr hub engine s) := by
  unfold execVeOr
  repeat' first
    | with_reducible assumption
    | with_reducible apply veExec_keeps hP
    | with_reducible apply out_gated

theorem execVePlog_keeps (hub : Nat) (engine : Nat) (s : State) (hs : P s) : OutP P (execVePlog hub engine s) := by
  unfold execVePlog
  repeat' first
    | with_reducible assumption
    | with_reducible apply veExec_keeps hP
    | with_reducible apply out_gated

theorem execVePopc_keeps (hub : Nat) (engine : Nat) (s : State) (hs : P s) : OutP P (execVePopc hub engine s) := by
  unfold execVePopc
  repeat' first
    | with_reducible assumption
    | with_reducible apply veExec_keeps hP
    | with_reducible apply out_gated

theorem execVePwl_keeps (hub : Nat) (engine : Nat) (s : State) (hs : P s) : OutP P (execVePwl hub engine s) := by
  unfold execVePwl
  repeat' first
    | with_reducible assumption
    | with_reducible apply veExec_keeps hP
    | with_reducible apply out_gated

theorem execVeRdf_keeps (hub : Nat) (engine : Nat) (s : State) (hs : P s) : OutP P (execVeRdf hub engine s) := by
  unfold execVeRdf
  repeat' first
    | with_reducible assumption
    | with_reducible apply veExec_keeps hP
    | with_reducible apply out_gated

theorem execVeSar_keeps (hub : Nat) (engine : Nat) (s : State) (hs : P s) : OutP P (execVeSar hub engine s) := by
  unfold execVeSar
  repeat' first
    | with_reducible assumption
    | with_reducible apply veExec_keeps hP
    | with_reducible apply out_gated

theorem execVeSel_keeps (hub : Nat) (engine : Nat) (s : State) (hs : P s) : OutP P (execVeSel hub engine s) := by
  unfold execVeSel
  repeat' first
    | with_reducible assumption
    | with_reducible apply veExec_keeps hP
    | with_reducible apply out_gated

theorem execVeSetm_keeps (hub : Nat) (engine : Nat) (s : State) (hs : P s) : OutP P (execVeSetm hub engine s) := by
  unfold execVeSetm
  repeat' first
    | with_reducible assumption
    | with_reducible apply veExec_keeps hP
    | with_reducible apply out_gated

theorem execVeShl_keeps (hub : Nat) (engine : Nat) (s : State) (hs : P s) : OutP P (execVeShl hub engine s) := by
  unfold execVeShl
  repeat' first
    | with_reducible assumption
    | with_reducible apply veExec_keeps hP
    | with_reducible apply out_gated

theorem execVeShr_keeps (hub : Nat) (engine : Nat) (s : State) (hs : P s) : OutP P (execVeShr hub engine s) := by
  unfold execVeShr
  repeat' first
    | with_reducible assumption
    | with_reducible apply veExec_keeps hP
    | with_reducible apply out_gated

theorem execVeStc_keeps (hub : Nat) (engine : Nat) (s : State) (hs : P s) : OutP P (execVeStc hub engine s) := by
  unfold execVeStc
  repeat' first
    | with_reducible assumption
    | with_reducible apply veExec_keeps hP
    | with_reducible apply out_gated

theorem execVeStf_keeps (hub : Nat) (engine : Nat) (s : State) (hs : P s) : OutP P (execVeStf hub engine s) := by
  unfold execVeStf
  repeat' first
    | with_reducible assumption
    | with_reducible apply veExec_keeps hP
    | with_reducible apply out_gated

theorem execVeStf2_keeps (hub : Nat) (engine : Nat) (s : State) (hs : P s) : OutP P (execVeStf2 hub engine s) := by
  unfold execVeStf2
  repeat' first
    | with_reducible assumption
    | with_reducible apply veExec_keeps hP
    | with_reducible apply out_gated

theorem execVeStr_keeps (hub : Nat) (engine : Nat) (s : State) (hs : P s) : OutP P (execVeStr hub engine s) := by
  unfold execVeStr
  repeat' first
    | with_reducible assumption
    | with_reducible apply veExec_keeps hP
    | with_reducible apply out_gated

theorem execVeSub_keeps (hub : Nat) (engine : Nat) (s : State) (hs : P s) : OutP P (execVeSub hub engine s) := by
  unfold execVeSub
  repeat' first
    | with_reducible assumption
    | with_reducible apply veExec_keeps hP
    | with_reducible apply out_gated

theorem execVeSubs_keeps (hub : Nat) (engine : Nat) (s : State) (hs : P s) : OutP P (execVeSubs hub engine s) := by
  unfold execVeSubs
  repeat' first
    | with_reducible assumption
    | with_reducible apply veExec_keeps hP
    | with_reducible apply out_gated

theorem execVeSubus_keeps (hub : Nat) (engine : Nat) (s : State) (hs : P s) : OutP P (execVeSubus hub engine s) := by
  unfold execVeSubus
  repeat' first
    | with_reducible assumption
    | with_reducible apply veExec_keeps hP
    | with_reducible apply out_gated

theorem execVeXor_keeps (hub : Nat) (engine : Nat) (s : State) (hs : P s) : OutP P (execVeXor hub engine s) := by
  unfold execVeXor
  repeat' first
    | with_reducible assumption
    | with_reducible apply veExec_keeps hP
    | with_reducible apply out_gated

theorem sendAttached_keeps (s : State) (m : BrMsg) (hs : P s) : FstP P (State.sendAttached s m) := by
  unfold State.sendAttached
  extract_lets y0 y1
  clear_value y0 y1
  repeat' first
    | with_reducible assumption
    | with_reducible apply brSend_keeps hP
    | with_reducible apply attDrop_keeps hP
    | with_reducible apply ite_FstP
    | extract_lets
    | with_reducible apply fst_mk

theorem brRoute_keeps (s : State) (h0 : Nat) (inPort : Option Nat) (m : BrMsg) (hs : P s) : FstP P (State.brRoute s h0 inPort m) := by
  unfold State.brRoute
  repeat' first
    | with_reducible assumption
    | with_reducible apply sendAttached_keeps hP
    | with_reducible apply tick_keeps hP
    | with_reducible apply brSend_keeps hP
    | with_reducible apply ite_FstP
    | extract_lets
    | split
    | with_reducible apply fst_mk

theorem brAgain_keeps (s : State) (b : Nat) (m : BrMsg) (hs : P s) : P (State.brAgain s b m) := by
  unfold State.brAgain
  extract_lets y0 y1 y2 y3
  have hy1 : P y1 := by
    subst y1
    repeat' first
      | with_reducible assumption
      | with_reducible apply setBrPort_keeps hP
  have hy3 : P y3 := by
    subst y3
    repeat' first
      | with_reducible assumption
      | (fail_if_no_progress with_reducible refine upd hP ?_ rfl)
  clear_value y0 y1 y2 y3
  repeat' first
    | with_reducible assumption
    | with_reducible refine hP.count _ _ _ _ ?_

theorem listUndeliv_keeps (s : State) (tenant : Nat) (dest : Nat) (en : Nat) (hs : P s) : P (State.listUndeliv s tenant dest en) := by
  unfold State.listUndeliv
  extract_lets y0 y1 y2 y3 y4
  have hy0 : P y0 := by
    subst y0
    repeat' first
      | with_reducible assumption
      | with_reducible apply tick_keeps hP
  have hy4 : P y4 := by
    subst y4
    repeat' first
      | with_reducible assumption
      | (fail_if_no_progress with_reducible refine upd hP ?_ rfl)
  clear_value y0 y1 y2 y3 y4
  repeat' first
    | with_reducible assumption
    | with_reducible apply event_keeps hP
    | with_reducible apply ite_P

theorem lostList_keeps (s : State) (m : BrMsg) (hs : P s) : P (State.lostList s m) := by
  unfold State.lostList
  repeat' first
    | with_reducible assumption
    | with_reducible apply listUndeliv_keeps hP
    | with_reducible apply ite_P

theorem setDetours_keeps (s : State) (hs : P s) : P (State.setDetours s) := by
  unfold State.setDetours
  repeat' first
    | with_reducible assumption
    | with_reducible apply setBrPort_keeps hP
    | with_reducible apply ite_P
    | with_reducible refine foldl_keeps _ ?_ (fun s x hs => ?_)

theorem brDown_keeps (s : State) (b : Nat) (cause : Nat) (hs : P s) : P (State.brDown s b cause) := by
  unfold State.brDown
  extract_lets y0 y1 y2 y3 y4 y5 y6 y7 y8 y9 y10 y11
  have hy6 : P y6 := by
    subst y6
    repeat' first
      | with_reducible assumption
      | with_reducible apply setBrPort_keeps hP
  have hy7 : P y7 := by
    subst y7
    repeat' first
      | with_reducible assumption
      | with_reducible apply event_keeps hP
      | with_reducible apply ite_P
  have hy9 : P y9 := by
    subst y9
    repeat' first
      | with_reducible assumption
      | with_reducible apply lostList_keeps hP
      | with_reducible apply brAgain_keeps hP
      | with_reducible apply tick_keeps hP
      | with_reducible apply ite_P
      | with_reducible refine foldl_keeps _ ?_ (fun s x hs => ?_)
      | extract_lets
      | (with_reducible apply FstP.out; with_reducible apply sendAttached_keeps hP)
  have hy10 : P y10 := by
    subst y10
    repeat' first
      | with_reducible assumption
      | with_reducible apply setDetours_keeps hP
  have hy11 : P y11 := by
    subst y11
    repeat' first
      | with_reducible assumption
      | with_reducible apply event_keeps hP
      | with_reducible apply ite_P
  clear_value y0 y1 y2 y3 y4 y5 y6 y7 y8 y9 y10 y11
  repeat' first
    | with_reducible assumption
    | with_reducible apply noteDegraded_keeps hP
    | with_reducible apply ite_P

theorem brUp_keeps (s : State) (b : Nat) (hs : P s) : P (State.brUp s b) := by
  unfold State.brUp
  extract_lets y0 y1 y2 y3 y4 y5
  have hy3 : P y3 := by
    subst y3
    repeat' first
      | with_reducible assumption
      | (fail_if_no_progress with_reducible refine upd hP ?_ rfl)
      | with_reducible apply ite_P
  have hy4 : P y4 := by
    subst y4
    repeat' first
      | with_reducible assumption
      | with_reducible apply brPump_keeps hP
      | with_reducible apply setBrPort_keeps hP
  have hy5 : P y5 := by
    subst y5
    repeat' first
      | with_reducible assumption
      | with_reducible apply event_keeps hP
  clear_value y0 y1 y2 y3 y4 y5
  repeat' first
    | with_reducible assumption
    | with_reducible apply noteDegraded_keeps hP
    | with_reducible apply setDetours_keeps hP

theorem batchFault_keeps (s : State) (h0 : Nat) (v : Nat) (hs : P s) : P (State.batchFault s h0 v) := by
  unfold State.batchFault
  extract_lets y0 y1
  have hy1 : P y1 := by
    subst y1
    repeat' first
      | with_reducible assumption
      | with_reducible apply setVe_keeps hP
  clear_value y0 y1
  repeat' first
    | with_reducible assumption
    | with_reducible apply event_keeps hP
    | with_reducible apply latch_keeps hP
    | with_reducible apply featReady_keeps hP
    | with_reducible apply setEnt_keeps hP
    | with_reducible apply finishReady_keeps hP
    | with_reducible apply endRec_keeps hP
    | with_reducible apply ite_P
    | with_reducible refine foldl_keeps _ ?_ (fun s x hs => ?_)
    | extract_lets
    | split

theorem beginReinstate_keeps (s : State) (u : Nat) (hs : P s) : P (State.beginReinstate s u) := by
  unfold State.beginReinstate
  extract_lets y0 y1 y2
  have hy1 : P y1 := by
    subst y1
    repeat' first
      | with_reducible assumption
      | (fail_if_no_progress with_reducible refine upd hP ?_ rfl)
  clear_value y0 y1 y2
  repeat' first
    | with_reducible assumption
    | with_reducible apply setBrPort_keeps hP
    | with_reducible apply ite_P

theorem clearUnit_keeps (s : State) (d : Nat) (x : Nat) (hs : P s) : P (State.clearUnit s d x) := by
  unfold State.clearUnit
  extract_lets y0
  clear_value y0
  repeat' first
    | with_reducible assumption
    | (fail_if_no_progress with_reducible refine upd hP ?_ rfl)

theorem setWin_keeps (s : State) (u : Nat) (w : FaultWin) (hs : P s) : P (State.setWin s u w) := by
  unfold State.setWin
  extract_lets y0
  clear_value y0
  repeat' first
    | with_reducible assumption
    | (fail_if_no_progress with_reducible refine upd hP ?_ rfl)

theorem seatSlot_keeps (s : State) (d : Nat) (t : Nat) (sl : Nat) (hs : P s) : P (State.seatSlot s d t sl) := by
  unfold State.seatSlot
  repeat' first
    | with_reducible assumption
    | with_reducible apply setTile_keeps hP
    | with_reducible apply abortTasks_keeps hP
    | split

theorem replaceSlot_keeps (s : State) (d : Nat) (t : Nat) (sl : Nat) (hs : P s) : P (State.replaceSlot s d t sl) := by
  unfold State.replaceSlot
  repeat' first
    | with_reducible assumption
    | with_reducible apply seatSlot_keeps hP
    | with_reducible apply event_keeps hP

theorem tileFail_keeps (s : State) (d : Nat) (t : Nat) (hs : P s) : P (State.tileFail s d t) := by
  unfold State.tileFail
  extract_lets y0 y1 y2 y3 y4
  have hy2 : P y2 := by
    subst y2
    repeat' first
      | with_reducible assumption
      | with_reducible apply setTile_keeps hP
  have hy3 : P y3 := by
    subst y3
    repeat' first
      | with_reducible assumption
      | with_reducible apply clearUnit_keeps hP
      | with_reducible apply abortTasks_keeps hP
  clear_value y0 y1 y2 y3 y4
  repeat' first
    | with_reducible assumption
    | with_reducible apply replaceSlot_keeps hP
    | with_reducible refine foldl_keeps _ ?_ (fun s x hs => ?_)

theorem endSearches_keeps (s : State) (cause : Nat) (hit : Nat → Nat → Bool) (hs : P s) : P (State.endSearches s cause hit) := by
  unfold State.endSearches
  extract_lets y0
  clear_value y0
  repeat' first
    | with_reducible assumption
    | with_reducible apply latch_keeps hP
    | with_reducible apply setEnt_keeps hP
    | with_reducible apply endRec_keeps hP
    | with_reducible apply ite_P
    | with_reducible refine foldl_keeps _ ?_ (fun s x hs => ?_)
    | extract_lets
    | split

theorem endWork_keeps (s : State) (u : Nat) (hs : P s) : P (State.endWork s u) := by
  unfold State.endWork
  extract_lets y0 y1 y2
  clear_value y0 y1 y2
  repeat' first
    | with_reducible assumption
    | with_reducible apply endSearches_keeps hP
    | with_reducible apply abortTasks_keeps hP

theorem beginReset_keeps (s : State) (u : Nat) (hs : P s) : P (State.beginReset s u) := by
  unfold State.beginReset
  extract_lets y0 y1
  have hy1 : P y1 := by
    subst y1
    with_reducible apply endWork_keeps hP
    assumption
  clear_value y0 y1
  repeat' first
    | with_reducible assumption
    | with_reducible apply clearUnit_keeps hP
    | with_reducible apply setTile_keeps hP
    | with_reducible apply setMu_keeps hP
    | with_reducible apply ite_P

theorem replaceMu_keeps (s : State) (d : Nat) (m : Nat) (l : Nat) (hs : P s) : P (State.replaceMu s d m l) := by
  unfold State.replaceMu
  repeat' first
    | with_reducible assumption
    | with_reducible apply setMu_keeps hP
    | with_reducible apply abortTasks_keeps hP
    | split

theorem muFail_keeps (s : State) (d : Nat) (m : Nat) (hs : P s) : P (State.muFail s d m) := by
  unfold State.muFail
  extract_lets y0 y1 y2 y3 y4 y5
  have hy3 : P y3 := by
    subst y3
    repeat' first
      | with_reducible assumption
      | with_reducible apply endSearches_keeps hP
      | with_reducible apply setMu_keeps hP
  have hy4 : P y4 := by
    subst y4
    repeat' first
      | with_reducible assumption
      | with_reducible apply clearUnit_keeps hP
      | with_reducible apply abortTasks_keeps hP
  clear_value y0 y1 y2 y3 y4 y5
  repeat' first
    | with_reducible assumption
    | with_reducible apply replaceMu_keeps hP
    | with_reducible refine foldl_keeps _ ?_ (fun s x hs => ?_)

theorem linkSearches_keeps (s : State) (link : Nat) (hs : P s) : P (State.linkSearches s link) := by
  unfold State.linkSearches
  repeat' first
    | with_reducible assumption
    | with_reducible apply endSearches_keeps hP

theorem engineFail_keeps (s : State) (h0 : Nat) (v : Nat) (hs : P s) : P (State.engineFail s h0 v) := by
  unfold State.engineFail
  extract_lets y0 y1 y2 y3
  have hy0 : P y0 := by
    subst y0
    repeat' first
      | with_reducible assumption
      | with_reducible apply batchFault_keeps hP
  have hy2 : P y2 := by
    subst y2
    repeat' first
      | with_reducible assumption
      | with_reducible apply setEngine_keeps hP
  clear_value y0 y1 y2 y3
  repeat' first
    | with_reducible assumption
    | with_reducible apply setEngine_keeps hP
    | split

theorem fetchFail_keeps (s : State) (h0 : Nat) (e : Nat) (hs : P s) : P (State.fetchFail s h0 e) := by
  unfold State.fetchFail
  extract_lets y0 y1 y2 y3 y4
  have hy3 : P y3 := by
    subst y3
    repeat' first
      | with_reducible assumption
      | with_reducible apply abortTasks_keeps hP
  clear_value y0 y1 y2 y3 y4
  repeat' first
    | with_reducible assumption
    | with_reducible apply setHub_keeps hP
    | split

theorem losePartition_keeps (s : State) (p : Nat) (hs : P s) : P (State.losePartition s p) := by
  unfold State.losePartition
  extract_lets y0 y1
  have hy1 : P y1 := by
    subst y1
    repeat' first
      | with_reducible assumption
      | (fail_if_no_progress with_reducible refine upd hP ?_ rfl)
  clear_value y0 y1
  repeat' first
    | with_reducible assumption
    | with_reducible apply event_keeps hP
    | with_reducible apply ite_P

theorem stackFail_keeps (s : State) (p : Nat) (hs : P s) : P (State.stackFail s p) := by
  unfold State.stackFail
  extract_lets y0 y1 y2 y3 y4 y5 y6 y7
  have hy3 : P y3 := by
    subst y3
    repeat' first
      | with_reducible assumption
      | (fail_if_no_progress with_reducible refine upd hP ?_ rfl)
  have hy6 : P y6 := by
    subst y6
    repeat' first
      | with_reducible assumption
      | (fail_if_no_progress with_reducible refine upd hP ?_ rfl)
  have hy7 : P y7 := by
    subst y7
    repeat' first
      | with_reducible assumption
      | with_reducible apply event_keeps hP
      | with_reducible apply losePartition_keeps hP
  clear_value y0 y1 y3 y5 y6 y7
  repeat' first
    | with_reducible assumption
    | with_reducible apply endSweep_keeps hP

theorem lastingEffect_keeps (s : State) (u : Nat) (hs : P s) : P (State.lastingEffect s u) := by
  unfold State.lastingEffect
  extract_lets y0 y1 y2 y3 y4 y5 y6 y7 y8 y9
  have hy2 : P y2 := by
    subst y2
    repeat' first
      | with_reducible assumption
      | with_reducible apply linkSearches_keeps hP
  have hy4 : P y4 := by
    subst y4
    repeat' first
      | with_reducible assumption
      | (fail_if_no_progress with_reducible refine upd hP ?_ rfl)
  have hy7 : P y7 := by
    subst y7
    repeat' first
      | with_reducible assumption
      | with_reducible apply ite_P
      | (fail_if_no_progress with_reducible refine upd hP ?_ rfl)
  have hy9 : P y9 := by
    subst y9
    repeat' first
      | with_reducible assumption
      | (fail_if_no_progress with_reducible refine upd hP ?_ rfl)
  clear_value y0 y1 y2 y3 y4 y5 y6 y7 y8 y9
  repeat' first
    | with_reducible assumption
    | with_reducible apply tileFail_keeps hP
    | with_reducible apply muFail_keeps hP
    | with_reducible apply endSearches_keeps hP
    | with_reducible apply abortTasks_keeps hP
    | with_reducible refine hP.warm _ _ _ ?_
    | with_reducible apply engineFail_keeps hP
    | with_reducible apply fetchFail_keeps hP
    | with_reducible apply stackFail_keeps hP
    | with_reducible apply losePartition_keeps hP
    | with_reducible apply brDown_keeps hP
    | with_reducible apply ite_P
    | with_reducible refine foldl_keeps _ ?_ (fun s x hs => ?_)
    | split

theorem markLasting_keeps (s : State) (u : Nat) (why : Nat) (hs : P s) : P (State.markLasting s u why) := by
  unfold State.markLasting
  extract_lets y0 y1 y2 y3
  have hy1 : P y1 := by
    subst y1
    repeat' first
      | with_reducible assumption
      | with_reducible apply setWin_keeps hP
  have hy2 : P y2 := by
    subst y2
    repeat' first
      | with_reducible assumption
      | with_reducible apply latch_keeps hP
  have hy3 : P y3 := by
    subst y3
    repeat' first
      | with_reducible assumption
      | with_reducible apply event_keeps hP
  clear_value y0 y1 y2 y3
  repeat' first
    | with_reducible assumption
    | with_reducible apply noteDegraded_keeps hP
    | with_reducible apply lastingEffect_keeps hP
    | with_reducible apply ite_P

theorem execVeSpareIn_keeps (hub : Nat) (engine : Nat) (s : State) (hs : P s) : OutP P (execVeSpareIn hub engine s) := by
  unfold execVeSpareIn
  repeat' first
    | with_reducible assumption
    | with_reducible apply setEngine_keeps hP
    | with_reducible apply markLasting_keeps hP
    | with_reducible apply noteDegraded_keeps hP
    | with_reducible apply event_keeps hP
    | with_reducible apply out_gated
    | with_reducible apply out_next
    | extract_lets
    | split

theorem countErr_keeps (s : State) (u : Nat) (corr : Bool) (hs : P s) : P (State.countErr s u corr) := by
  unfold State.countErr
  extract_lets y0 y1 y2 y3 y4 y5
  have hy1 : P y1 := by
    subst y1
    repeat' first
      | with_reducible assumption
      | with_reducible apply tick_keeps hP
  have hy5 : P y5 := by
    subst y5
    repeat' first
      | with_reducible assumption
      | with_reducible apply setWin_keeps hP
  clear_value y0 y1 y2 y3 y4 y5
  repeat' first
    | with_reducible assumption
    | with_reducible apply markLasting_keeps hP
    | with_reducible apply ite_P

theorem unitError_keeps (s : State) (u : Nat) (hs : P s) : P (State.unitError s u) := by
  unfold State.unitError
  extract_lets y0
  have hy0 : P y0 := by
    subst y0
    repeat' first
      | with_reducible assumption
      | with_reducible apply countErr_keeps hP
      | with_reducible apply endWork_keeps hP
  clear_value y0
  repeat' first
    | with_reducible assumption
    | with_reducible apply beginReset_keeps hP
    | with_reducible apply ite_P

theorem imagesAgain_keeps (s : State) (u : Nat) (hs : P s) : P (State.imagesAgain s u) := by
  unfold State.imagesAgain
  extract_lets y0 y1 y2 y3
  have hy3 : P y3 := by
    subst y3
    repeat' first
      | with_reducible assumption
      | with_reducible apply countWrites_keeps hP
      | with_reducible refine foldl_keeps _ ?_ (fun s x hs => ?_)
  clear_value y0 y1 y2 y3
  repeat' first
    | with_reducible assumption
    | with_reducible apply countWrites_keeps hP
    | with_reducible apply ite_P
    | with_reducible refine foldl_keeps _ ?_ (fun s x hs => ?_)

theorem reinstated_keeps (s : State) (u : Nat) (v : Nat) (hs : P s) : P (State.reinstated s u v) := by
  unfold State.reinstated
  extract_lets y0 y1
  have hy1 : P y1 := by
    subst y1
    repeat' first
      | with_reducible assumption
      | (fail_if_no_progress with_reducible refine upd hP ?_ rfl)
  clear_value y0 y1
  repeat' first
    | with_reducible assumption
    | with_reducible apply noteDegraded_keeps hP
    | with_reducible apply event_keeps hP

theorem execDieLinkTrainingComplete_keeps (link : Nat) (s : State) (hs : P s) : OutP P (execDieLinkTrainingComplete link s) := by
  unfold execDieLinkTrainingComplete
  repeat' first
    | with_reducible assumption
    | with_reducible apply reinstated_keeps hP
    | with_reducible apply out_gated
    | (fail_if_no_progress with_reducible refine upd hP ?_ rfl)
    | with_reducible apply out_next
    | with_reducible apply ite_OutP

theorem execMuRemapped_keeps (die : Nat) (unit : Nat) (s : State) (hs : P s) : OutP P (execMuRemapped die unit s) := by
  unfold execMuRemapped
  repeat' first
    | with_reducible assumption
    | with_reducible apply replaceMu_keeps hP
    | with_reducible apply setMu_keeps hP
    | with_reducible apply countWrites_keeps hP
    | with_reducible apply setHwT_keeps hP
    | with_reducible apply noteDegraded_keeps hP
    | with_reducible apply event_keeps hP
    | with_reducible apply out_gated
    | with_reducible apply out_next
    | with_reducible apply ite_OutP
    | with_reducible refine foldl_keeps _ ?_ (fun s x hs => ?_)
    | extract_lets
    | split

theorem execMuSpareLoaded_keeps (die : Nat) (unit : Nat) (s : State) (hs : P s) : OutP P (execMuSpareLoaded die unit s) := by
  unfold execMuSpareLoaded
  repeat' first
    | with_reducible assumption
    | with_reducible apply markLasting_keeps hP
    | with_reducible apply setMu_keeps hP
    | with_reducible apply countWrites_keeps hP
    | with_reducible apply noteDegraded_keeps hP
    | with_reducible apply event_keeps hP
    | with_reducible apply out_gated
    | with_reducible apply out_next
    | with_reducible apply ite_OutP
    | with_reducible refine foldl_keeps _ ?_ (fun s x hs => ?_)
    | extract_lets
    | split

theorem execRelUnitReset_keeps (unit : Nat) (pass : Bool) (s : State) (hs : P s) : OutP P (execRelUnitReset unit pass s) := by
  unfold execRelUnitReset
  repeat' first
    | with_reducible assumption
    | with_reducible apply setTile_keeps hP
    | with_reducible apply setMu_keeps hP
    | with_reducible apply imagesAgain_keeps hP
    | with_reducible apply event_keeps hP
    | with_reducible apply markLasting_keeps hP
    | with_reducible apply out_gated
    | with_reducible apply out_next
    | with_reducible apply ite_OutP
    | with_reducible apply ite_P

theorem execTileSlotRemapped_keeps (die : Nat) (tile : Nat) (s : State) (hs : P s) : OutP P (execTileSlotRemapped die tile s) := by
  unfold execTileSlotRemapped
  repeat' first
    | with_reducible assumption
    | with_reducible apply seatSlot_keeps hP
    | with_reducible apply setTile_keeps hP
    | with_reducible apply noteDegraded_keeps hP
    | with_reducible apply event_keeps hP
    | with_reducible apply out_gated
    | with_reducible apply out_next
    | with_reducible apply ite_OutP
    | extract_lets
    | split

theorem execTileSpareLoaded_keeps (die : Nat) (tile : Nat) (s : State) (hs : P s) : OutP P (execTileSpareLoaded die tile s) := by
  unfold execTileSpareLoaded
  repeat' first
    | with_reducible assumption
    | with_reducible apply markLasting_keeps hP
    | with_reducible apply setTile_keeps hP
    | with_reducible apply noteDegraded_keeps hP
    | with_reducible apply event_keeps hP
    | with_reducible apply out_gated
    | with_reducible apply out_next
    | with_reducible apply ite_OutP
    | extract_lets
    | split

theorem execUnitReinstate_keeps (unit : Nat) (pass : Bool) (s : State) (hs : P s) : OutP P (execUnitReinstate unit pass s) := by
  unfold execUnitReinstate
  repeat' first
    | with_reducible assumption
    | with_reducible apply reinstated_keeps hP
    | with_reducible apply setTile_keeps hP
    | with_reducible apply setMu_keeps hP
    | with_reducible apply setEngine_keeps hP
    | with_reducible apply beginReinstate_keeps hP
    | with_reducible apply out_gated
    | (fail_if_no_progress with_reducible refine upd hP ?_ rfl)
    | with_reducible apply out_next
    | with_reducible apply ite_OutP
    | with_reducible apply ite_P
    | extract_lets
    | split

theorem execUnitReset_keeps (unit : Nat) (s : State) (hs : P s) : OutP P (execUnitReset unit s) := by
  unfold execUnitReset
  repeat' first
    | with_reducible assumption
    | with_reducible apply beginReset_keeps hP
    | with_reducible apply out_gated
    | with_reducible apply out_next
    | with_reducible apply ite_P

theorem execUnitRetire_keeps (unit : Nat) (s : State) (hs : P s) : OutP P (execUnitRetire unit s) := by
  unfold execUnitRetire
  repeat' first
    | with_reducible assumption
    | with_reducible apply markLasting_keeps hP
    | with_reducible apply out_gated
    | with_reducible apply out_next
    | with_reducible apply ite_P

theorem execWatchdogExpiry_keeps (s : State) (hs : P s) : OutP P (execWatchdogExpiry s) := by
  unfold execWatchdogExpiry
  repeat' first
    | with_reducible assumption
    | with_reducible refine hP.warm _ _ _ ?_
    | with_reducible apply out_gated
    | with_reducible apply out_next

theorem searchLogical_keeps (s : State) (m : ModelSet) (img : MuImage) (x : Nat) (key : Nat) (g : Nat) (ups : Upsets) (hs : P s) : FstP P (State.searchLogical s m img x key g ups) := by
  unfold State.searchLogical
  extract_lets y0 y1 y2
  have hy2 : P y2 := by
    subst y2
    repeat' first
      | with_reducible assumption
      | with_reducible apply tick_keeps hP
      | with_reducible refine foldl_keeps _ ?_ (fun s x hs => ?_)
  clear_value y0 y1 y2
  repeat' first
    | with_reducible assumption
    | with_reducible apply tick_keeps hP
    | with_reducible apply countErr_keeps hP
    | with_reducible apply unitError_keeps hP
    | with_reducible refine foldl_keeps _ ?_ (fun s x hs => ?_)
    | extract_lets
    | split
    | with_reducible apply fst_mk

theorem treeNoMatch_keeps (s : State) (m : ModelSet) (x : Nat) (sel : Nat) (ens : Nat) (t : Nat) (hs : P s) : P (State.treeNoMatch s m x sel ens t) := by
  unfold State.treeNoMatch
  extract_lets y0
  clear_value y0
  repeat' first
    | with_reducible assumption
    | with_reducible apply tick_keeps hP
    | with_reducible apply setMu_keeps hP
    | with_reducible apply event_keeps hP
    | with_reducible apply ite_P
    | split

theorem countLanes_keeps (s : State) (tile : Nat) (n : Nat) (pool : Bool) (hs : P s) : P (State.countLanes s tile n pool) := by
  unfold State.countLanes
  extract_lets y0 y1 y2
  have hy1 : P y1 := by
    subst y1
    repeat' first
      | with_reducible assumption
      | (fail_if_no_progress with_reducible refine upd hP ?_ rfl)
  have hy2 : P y2 := by
    subst y2
    repeat' first
      | with_reducible assumption
      | with_reducible refine hP.count _ _ _ _ ?_
  clear_value y0 y1 y2
  repeat' first
    | with_reducible assumption
    | with_reducible refine hP.count _ _ _ _ ?_
    | with_reducible apply ite_P

theorem markSat_keeps (s : State) (h0 : Nat) (i : Nat) (opt : Option Nat) (b : Bool) (hs : P s) : P (State.markSat s h0 i opt b) := by
  unfold State.markSat
  repeat' first
    | with_reducible assumption
    | with_reducible apply setEnt_keeps hP
    | with_reducible apply ite_P
    | extract_lets
    | split

theorem evalSel_keeps (s : State) (c : EvalCtx) (t : TileIns) (ups : Upsets) (sel : Nat) (hs : P s) : FstP P (State.evalSel s c t ups sel) := by
  unfold State.evalSel
  extract_lets y0 y1 y2
  clear_value y0 y1 y2
  repeat' first
    | with_reducible assumption
    | with_reducible apply searchLogical_keeps hP
    | with_reducible apply treeNoMatch_keeps hP
    | with_reducible apply markSat_keeps hP
    | extract_lets
    | (with_reducible apply fst_eq; with_reducible assumption)
    | split
    | with_reducible apply fst_mk

theorem evalSels_keeps (s : State) (c : EvalCtx) (ups : Upsets) (a3 : TileIns) (a4 : List Nat) (hs : P s) : FstP P (State.evalSels s c ups a3 a4) := by
  induction a4 generalizing s a3 with
  | nil => unfold State.evalSels; exact fst_mk hs
  | cons x l ih =>
    unfold State.evalSels
    have h := evalSel_keeps hP s c a3 ups x hs
    split
    · rename_i e; rw [e] at h; exact ih _ _ h.out
    · rename_i e; rw [e] at h; exact fst_mk h.out

theorem evalTree_keeps (s : State) (c : EvalCtx) (t : TileIns) (idx : Nat) (hs : P s) : FstP P (State.evalTree s c t idx) := by
  unfold State.evalTree
  extract_lets y0 y1 y2 y3 y4
  have hy4 : P y4 := by
    subst y4
    repeat' first
      | with_reducible assumption
      | with_reducible apply countLanes_keeps hP
  clear_value y0 y1 y2 y3 y4
  repeat' first
    | with_reducible assumption
    | with_reducible apply markSat_keeps hP
    | with_reducible apply fst_mk

theorem evalTrees_keeps (s : State) (c : EvalCtx) (t : TileIns) (l : List Nat) (hs : P s) : FstP P (State.evalTrees s c t l) := by
  unfold State.evalTrees
  repeat' first
    | with_reducible assumption
    | with_reducible apply evalTree_keeps hP
    | with_reducible refine foldlf_keeps _ ?_ (fun s x hs => ?_)
    | extract_lets
    | with_reducible exact FstP.out ‹_›
    | with_reducible apply fst_mk

theorem putIns_keeps (s : State) (t : TileIns) (hs : P s) : P (State.putIns s t) := by
  unfold State.putIns
  extract_lets y0
  clear_value y0
  repeat' first
    | with_reducible assumption
    | (fail_if_no_progress with_reducible refine upd hP ?_ rfl)

theorem meetSpill_keeps (s : State) (idx : Nat) (a2 : List TileIns) (hs : P s) : P (State.meetSpill s idx a2) := by
  induction a2 generalizing s with
  | nil =>
    unfold State.meetSpill
    repeat' first
      | with_reducible assumption
  | cons x l ih =>
    unfold State.meetSpill
    repeat' first
      | (with_reducible refine ih _ ?_)
      | (with_reducible refine (evalTree_keeps hP _ _ _ _ ?_).out)
      | with_reducible assumption
      | with_reducible apply putIns_keeps hP
      | with_reducible apply ite_P
      | split

theorem stageDone_keeps (s : State) (h0 : Nat) (i : Nat) (e : RecEnt) (en : Ensemble) (o : Readouts) (hs : P s) : P (State.stageDone s h0 i e en o) := by
  unfold State.stageDone
  extract_lets y0 y1 y2 y3 y4 y5 y6 y7 y8
  have hy6 : P y6 := by
    subst y6
    repeat' first
      | with_reducible assumption
      | with_reducible apply setEnt_keeps hP
  have hy7 : P y7 := by
    subst y7
    repeat' first
      | with_reducible assumption
      | with_reducible apply freeVector_keeps hP
  have hy8 : P y8 := by
    subst y8
    repeat' first
      | with_reducible assumption
      | with_reducible apply takeBuffer_keeps hP
      | with_reducible apply ite_P
  clear_value y0 y1 y2 y3 y4 y5 y6 y7 y8
  repeat' first
    | with_reducible assumption
    | with_reducible apply setEnt_keeps hP
    | with_reducible apply finishReady_keeps hP
    | with_reducible apply enterBuffer_keeps hP
    | with_reducible apply ite_P

theorem takeVector_keeps (s : State) (x : DieRec) (m : ModelSet) (n : Nat) (a4 : List (Nat × Bool)) (hs : P s) : OptP P (State.takeVector s x m n a4) := by
  induction a4 generalizing s with
  | nil =>
    unfold State.takeVector
    repeat' first
      | with_reducible assumption
      | with_reducible apply opt_some
  | cons u us ih =>
    unfold State.takeVector
    repeat' first
      | (with_reducible refine ih _ ?_)
      | (fail_if_no_progress with_reducible refine upd hP ?_ rfl)
      | with_reducible assumption
      | with_reducible apply opt_none
      | with_reducible apply ite_OptP

theorem vectorIn_keeps (s : State) (x : DieRec) (c : EvalCtx) (e : RecEnt) (rep : Nat) (unit : Nat) (phys : Nat) (hs : P s) : OptP P (State.vectorIn s x c e rep unit phys) := by
  unfold State.vectorIn
  repeat' first
    | with_reducible assumption
    | with_reducible apply takeVector_keeps hP
    | with_reducible apply opt_some
    | with_reducible apply ite_OptP

theorem execClear_keeps (die : Nat) (unit : Nat) (hub : Nat) (ent : Nat) (opt : Option Nat) (s : State) (hs : P s) : OutP P (execClear die unit hub ent opt s) := by
  unfold execClear
  repeat' first
    | with_reducible assumption
    | with_reducible apply trimBufs_keeps hP
    | with_reducible apply out_gated
    | (fail_if_no_progress with_reducible refine upd hP ?_ rfl)
    | with_reducible apply out_next

theorem execDiePartialReturn_keeps (die : Nat) (hub : Nat) (s : State) (hs : P s) : OutP P (execDiePartialReturn die hub s) := by
  unfold execDiePartialReturn
  repeat' first
    | with_reducible assumption
    | with_reducible apply pumpPartials_keeps hP
    | with_reducible apply setEnt_keeps hP
    | with_reducible refine hP.count _ _ _ _ ?_
    | with_reducible apply stageDone_keeps hP
    | with_reducible apply patchHeld_keeps hP
    | with_reducible apply out_gated
    | (fail_if_no_progress with_reducible refine upd hP ?_ rfl)
    | with_reducible apply out_next
    | with_reducible apply ite_OutP
    | with_reducible apply ite_P
    | extract_lets
    | split

theorem execDrain_keeps (die : Nat) (unit : Nat) (hub : Nat) (ent : Nat) (opt : Option Nat) (s : State) (hs : P s) : OutP P (execDrain die unit hub ent opt s) := by
  unfold execDrain
  repeat' first
    | with_reducible assumption
    | with_reducible refine hP.count _ _ _ _ ?_
    | with_reducible apply sendPartial_keeps hP
    | with_reducible apply out_gated
    | (fail_if_no_progress with_reducible refine upd hP ?_ rfl)
    | with_reducible apply out_next
    | with_reducible apply ite_OutP
    | with_reducible apply ite_P
    | extract_lets
    | split

theorem execEval_keeps (die : Nat) (unit : Nat) (hub : Nat) (ent : Nat) (opt : Option Nat) (order : List Nat) (upsets : List (Nat × Nat × MuEntry)) (s : State) (hs : P s) : OutP P (execEval die unit hub ent opt order upsets s) := by
  unfold execEval
  repeat' first
    | with_reducible assumption
    | with_reducible apply vectorIn_keeps hP
    | with_reducible apply setDieRec_keeps hP
    | with_reducible apply putIns_keeps hP
    | with_reducible apply evalSels_keeps hP
    | with_reducible apply trimBufs_keeps hP
    | with_reducible apply out_gated
    | (fail_if_no_progress with_reducible refine upd hP ?_ rfl)
    | with_reducible apply out_next
    | with_reducible apply ite_OutP
    | extract_lets
    | (with_reducible apply fst_eq; with_reducible assumption)
    | (with_reducible apply FstP.out; with_reducible apply evalTrees_keeps hP)
    | (with_reducible apply FstP.out; with_reducible apply evalTree_keeps hP)
    | (with_reducible apply opt_eq; with_reducible assumption)
    | split

theorem execEvalComplete_keeps (die : Nat) (unit : Nat) (hub : Nat) (ent : Nat) (opt : Option Nat) (s : State) (hs : P s) : OutP P (execEvalComplete die unit hub ent opt s) := by
  unfold execEvalComplete
  repeat' first
    | with_reducible assumption
    | with_reducible apply trimBufs_keeps hP
    | with_reducible apply putIns_keeps hP
    | with_reducible apply evalSels_keeps hP
    | with_reducible apply out_gated
    | with_reducible apply out_next
    | with_reducible apply ite_OutP
    | extract_lets
    | (with_reducible apply fst_eq; with_reducible assumption)
    | (with_reducible apply FstP.out; with_reducible apply evalTrees_keeps hP)
    | split

theorem execPoolUnitTake_keeps (die : Nat) (tile : Nat) (owner : Nat) (hub : Nat) (ent : Nat) (opt : Option Nat) (first : Nat) (count : Nat) (s : State) (hs : P s) : OutP P (execPoolUnitTake die tile owner hub ent opt first count s) := by
  unfold execPoolUnitTake
  repeat' first
    | with_reducible assumption
    | with_reducible apply putIns_keeps hP
    | with_reducible apply setDieRec_keeps hP
    | with_reducible apply out_gated
    | (fail_if_no_progress with_reducible refine upd hP ?_ rfl)
    | with_reducible apply out_next
    | with_reducible apply ite_OutP
    | extract_lets
    | (with_reducible apply FstP.out; with_reducible apply evalTrees_keeps hP)
    | split

theorem execPreload_keeps (die : Nat) (hub : Nat) (ent : Nat) (opt : Option Nat) (s : State) (hs : P s) : OutP P (execPreload die hub ent opt s) := by
  unfold execPreload
  repeat' first
    | with_reducible assumption
    | with_reducible apply sendPartial_keeps hP
    | with_reducible apply out_gated
    | with_reducible apply out_next
    | with_reducible apply ite_OutP
    | extract_lets
    | split

theorem execSpillWindowFilled_keeps (die : Nat) (unit : Nat) (idx : Nat) (s : State) (hs : P s) : OutP P (execSpillWindowFilled die unit idx s) := by
  unfold execSpillWindowFilled
  repeat' first
    | with_reducible assumption
    | with_reducible apply setStream_keeps hP
    | with_reducible apply trimBufs_keeps hP
    | with_reducible apply meetSpill_keeps hP
    | with_reducible apply out_gated
    | with_reducible apply out_next
    | extract_lets
    | split

theorem journalApplied_keeps (s : State) (t : Nat) (body : List Byte) (hs : P s) : P (State.journalApplied s t body) := by
  unfold State.journalApplied
  extract_lets y0 y1 y2
  clear_value y0 y1 y2
  repeat' first
    | with_reducible assumption
    | with_reducible apply setHwT_keeps hP

theorem setActive_keeps (s : State) (t : Nat) (i : SetInst) (hs : P s) : P (State.setActive s t i) := by
  unfold State.setActive
  extract_lets y0
  clear_value y0
  repeat' first
    | with_reducible assumption
    | with_reducible apply setHwT_keeps hP

theorem writePart_keeps (s : State) (i : SetInst) (table : Nat) (k : Nat) (f : SMap MuEntry → SMap MuEntry) (hs : P s) : FstP P (State.writePart s i table k f) := by
  unfold State.writePart
  refine foldlf_keeps _ (fst_mk hs) (fun a x h => fst_mk ?_)
  split
  · exact hP.count _ _ _ _ h.out
  · exact h.out

theorem searchParts_keeps (s : State) (e : RecEnt) (m : ModelSet) (units : SMap MuImage) (table : Nat) (g : Nat) (ups : Upsets) (a7 : List Nat) (a8 : List (Nat × Nat × MuEntry)) (hs : P s) : FstP P (State.searchParts s e m units table g ups a7 a8) := by
  induction a7 generalizing s a8 with
  | nil => unfold State.searchParts; exact fst_mk hs
  | cons u us ih =>
    unfold State.searchParts
    extract_lets img sel
    have h := searchLogical_keeps hP s m img u (searchKey img m.ftable e.vec sel) g ups hs
    split
    · rename_i e; rw [e] at h; exact fst_mk h.out
    · rename_i e; rw [e] at h; exact ih _ _ h.out
    · rename_i e; rw [e] at h; exact ih _ _ h.out

theorem execMuScrubCompare_keeps (die : Nat) (unit : Nat) (upset : Option MuEntry) (s : State) (hs : P s) : OutP P (execMuScrubCompare die unit upset s) := by
  unfold execMuScrubCompare
  repeat' first
    | with_reducible assumption
    | with_reducible apply setMu_keeps hP
    | with_reducible apply tick_keeps hP
    | with_reducible apply event_keeps hP
    | with_reducible apply countErr_keeps hP
    | with_reducible apply out_gated
    | with_reducible apply out_next
    | with_reducible apply ite_OutP
    | extract_lets
    | split

theorem execRuleEditSettle_keeps (tenant : Nat) (table : Nat) (s : State) (hs : P s) : OutP P (execRuleEditSettle tenant table s) := by
  unfold execRuleEditSettle
  repeat' first
    | with_reducible refine (foldlf_keeps _ (fst_mk ?_) (fun a x h => ?_)).out
    | with_reducible refine writePart_keeps hP _ _ _ _ _ (FstP.out ‹_›)
    | with_reducible assumption
    | with_reducible apply setActive_keeps hP
    | with_reducible apply journalApplied_keeps hP
    | with_reducible apply event_keeps hP
    | with_reducible apply out_gated
    | with_reducible apply out_next
    | with_reducible apply ite_OutP
    | extract_lets
    | split

theorem execRuleSearch_keeps (hub : Nat) (ent : Nat) (slot : Nat) (upsets : List (Nat × Nat × MuEntry)) (s : State) (hs : P s) : OutP P (execRuleSearch hub ent slot upsets s) := by
  unfold execRuleSearch
  repeat' first
    | with_reducible assumption
    | with_reducible apply endRec_keeps hP
    | with_reducible apply setEnt_keeps hP
    | with_reducible apply searchParts_keeps hP
    | with_reducible apply finishReady_keeps hP
    | with_reducible apply trimBufs_keeps hP
    | with_reducible apply out_gated
    | with_reducible apply out_next
    | with_reducible apply ite_OutP
    | extract_lets
    | (with_reducible apply fst_eq; with_reducible assumption)
    | split

theorem countOverrun_keeps (s : State) (st : Settlement) (hs : P s) : P (State.countOverrun s st) := by
  unfold State.countOverrun
  extract_lets y0 y1
  have hy0 : P y0 := by
    subst y0
    repeat' first
      | with_reducible assumption
      | with_reducible refine hP.count _ _ _ _ ?_
  have hy1 : P y1 := by
    subst y1
    repeat' first
      | with_reducible assumption
      | with_reducible refine hP.count _ _ _ _ ?_
  clear_value y0 y1
  repeat' first
    | with_reducible assumption
    | with_reducible apply event_keeps hP
    | with_reducible apply ite_P

theorem sendPart_keeps (s : State) (p : CmdPart) (hs : P s) : P (State.sendPart s p) := by
  unfold State.sendPart
  extract_lets y0 y1 y2 y3 y4 y5
  have hy3 : FstP P y3 := by
    subst y3
    repeat' first
      | with_reducible assumption
      | with_reducible apply brRoute_keeps hP
  have hy4 : P y4 := by
    subst y4
    repeat' first
      | with_reducible refine hP.count _ _ _ _ ?_
      | extract_lets
      | with_reducible exact FstP.out ‹_›
  clear_value y0 y1 y2 y3 y4 y5
  repeat' first
    | with_reducible assumption
    | with_reducible apply listUndeliv_keeps hP
    | (fail_if_no_progress with_reducible refine upd hP ?_ rfl)
    | with_reducible apply ite_P
    | extract_lets
    | with_reducible exact FstP.out ‹_›

theorem endOrdered_keeps (s : State) (st : Settlement) (hs : P s) : P (State.endOrdered s st) := by
  unfold State.endOrdered
  extract_lets y0 y1 y2 y3 y4 y5 y6 y7 y8
  have hy1 : P y1 := by
    subst y1
    repeat' first
      | with_reducible assumption
      | with_reducible apply countOverrun_keeps hP
  have hy2 : P y2 := by
    subst y2
    repeat' first
      | with_reducible assumption
      | with_reducible apply setSettlement_keeps hP
  have hy3 : P y3 := by
    subst y3
    repeat' first
      | with_reducible assumption
      | with_reducible apply replyRoute_keeps hP
      | with_reducible refine foldl_keeps _ ?_ (fun s x hs => ?_)
  have hy8 : P y8 := by
    subst y8
    repeat' first
      | with_reducible assumption
      | (fail_if_no_progress with_reducible refine upd hP ?_ rfl)
  clear_value y0 y1 y2 y3 y4 y5 y6 y7 y8
  repeat' first
    | with_reducible assumption
    | with_reducible apply sendPart_keeps hP
    | (fail_if_no_progress with_reducible refine upd hP ?_ rfl)
    | with_reducible refine foldl_keeps _ ?_ (fun s x hs => ?_)

theorem settleFault_keeps (s : State) (st : Settlement) (hs : P s) : P (State.settleFault s st) := by
  unfold State.settleFault
  extract_lets y0 y1 y2 y3 y4 y5 y6
  have hy0 : P y0 := by
    subst y0
    repeat' first
      | with_reducible assumption
      | with_reducible apply latch_keeps hP
  have hy6 : P y6 := by
    subst y6
    repeat' first
      | with_reducible assumption
      | with_reducible apply setSettlement_keeps hP
  subst y1
  try beta_reduce
  repeat' first
    | with_reducible assumption
    | with_reducible apply setEnt_keeps hP
    | with_reducible apply endRec_keeps hP
    | with_reducible apply ite_P
    | with_reducible refine foldl_keeps _ ?_ (fun s x hs => ?_)
    | extract_lets
    | split

theorem settleOneLate_keeps (s : State) (st : Settlement) (x : SetlRec) (hs : P s) : P (State.settleOneLate s st x) := by
  unfold State.settleOneLate
  extract_lets y0 y1 y2 y3 y4 y5 y6
  have hy2 : P y2 := by
    subst y2
    repeat' first
      | with_reducible assumption
      | with_reducible apply setSettlement_keeps hP
  have hy3 : P y3 := by
    subst y3
    repeat' first
      | with_reducible assumption
      | with_reducible apply replyRoute_keeps hP
  clear_value y0 y1 y2 y3 y4 y5 y6
  repeat' first
    | with_reducible assumption
    | (fail_if_no_progress with_reducible refine upd hP ?_ rfl)

theorem settleLates_keeps (s : State) (t : Nat) (epoch : Nat) (a3 : Nat) (hs : P s) : P (State.settleLates s t epoch a3) := by
  induction a3 generalizing s with
  | zero =>
    unfold State.settleLates
    repeat' first
      | with_reducible assumption
  | succ n ih =>
    unfold State.settleLates
    repeat' first
      | (with_reducible refine ih _ ?_)
      | with_reducible assumption
      | with_reducible apply settleOneLate_keeps hP
      | split

theorem execLateCmdlistPart_keeps (tenant : Nat) (dest : Nat) (s : State) (hs : P s) : OutP P (execLateCmdlistPart tenant dest s) := by
  unfold execLateCmdlistPart
  repeat' first
    | with_reducible assumption
    | with_reducible apply sendPart_keeps hP
    | with_reducible apply out_gated
    | (fail_if_no_progress with_reducible refine upd hP ?_ rfl)
    | with_reducible apply out_next
    | with_reducible apply ite_OutP
    | extract_lets
    | split

theorem execLateRecordSettle_keeps (tenant : Nat) (epoch : Nat) (s : State) (hs : P s) : OutP P (execLateRecordSettle tenant epoch s) := by
  unfold execLateRecordSettle
  repeat' first
    | with_reducible assumption
    | with_reducible apply settleOneLate_keeps hP
    | with_reducible apply out_gated
    | with_reducible apply out_next
    | extract_lets
    | split

theorem execOrderedProcedureEnd_keeps (tenant : Nat) (epoch : Nat) (s : State) (hs : P s) : OutP P (execOrderedProcedureEnd tenant epoch s) := by
  unfold execOrderedProcedureEnd
  repeat' first
    | with_reducible assumption
    | with_reducible apply endOrdered_keeps hP
    | with_reducible apply out_gated
    | with_reducible apply out_next
    | with_reducible apply ite_OutP
    | extract_lets
    | split

theorem execSettlementClose_keeps (tenant : Nat) (epoch : Nat) (s : State) (hs : P s) : OutP P (execSettlementClose tenant epoch s) := by
  unfold execSettlementClose
  repeat' first
    | with_reducible assumption
    | with_reducible apply endOrdered_keeps hP
    | with_reducible apply settleLates_keeps hP
    | with_reducible apply event_keeps hP
    | with_reducible apply out_gated
    | (fail_if_no_progress with_reducible refine upd hP ?_ rfl)
    | with_reducible apply out_next
    | with_reducible apply ite_OutP
    | with_reducible apply ite_P
    | extract_lets
    | split

theorem execSettlementOpen_keeps (tenant : Nat) (epoch : Nat) (s : State) (hs : P s) : OutP P (execSettlementOpen tenant epoch s) := by
  unfold execSettlementOpen
  repeat' first
    | with_reducible assumption
    | with_reducible apply out_gated
    | (fail_if_no_progress with_reducible refine upd hP ?_ rfl)
    | with_reducible apply out_next
    | with_reducible apply ite_OutP

end Sys2Proof.Machine
end

