-- ==== Sys2Proof/Laws/ClosedFabric.lean ====
section
/-! SUPPORT. What every operation of Sluice, Braid, power, memory and registers keeps (`Closed`). -/

namespace Sys2Proof.Machine

variable {P : State → Prop} (hP : Closed P)
include hP

theorem setQue_keeps (s : State) (q : Nat) (x : SlQueue) (hs : P s) : P (State.setQue s q x) := by
  unfold State.setQue
  extract_lets y0
  clear_value y0
  repeat' first
    | with_reducible assumption
    | (fail_if_no_progress with_reducible refine upd hP ?_ rfl)

theorem setBar_keeps (s : State) (b : Nat) (x : Barrier) (hs : P s) : P (State.setBar s b x) := by
  unfold State.setBar
  extract_lets y0
  clear_value y0
  repeat' first
    | with_reducible assumption
    | (fail_if_no_progress with_reducible refine upd hP ?_ rfl)

theorem sendArrival_keeps (s : State) (b : Nat) (hs : P s) : P (State.sendArrival s b) := by
  unfold State.sendArrival
  extract_lets y0 y1 y2 y3
  have hy3 : P y3 := by
    subst y3
    repeat' first
      | with_reducible assumption
      | with_reducible apply setBar_keeps hP
  clear_value y0 y1 y2 y3
  repeat' first
    | with_reducible assumption
    | with_reducible apply ite_P
    | with_reducible refine foldl_keeps _ ?_ (fun s x hs => ?_)
    | extract_lets
    | (with_reducible apply FstP.out; with_reducible apply brRoute_keeps hP)

theorem arriveBar_keeps (s : State) (q : Nat) (b : Nat) (wait : Bool) (hs : P s) : FstP P (State.arriveBar s q b wait) := by
  unfold State.arriveBar
  extract_lets y0 y1 y2 y3 y4 y5
  have hy3 : P y3 := by
    subst y3
    repeat' first
      | with_reducible assumption
      | with_reducible apply setBar_keeps hP
  have hy5 : P y5 := by
    subst y5
    repeat' first
      | with_reducible assumption
      | with_reducible apply setQue_keeps hP
      | with_reducible apply ite_P
  clear_value y0 y1 y2 y3 y4 y5
  repeat' first
    | with_reducible assumption
    | with_reducible apply setQue_keeps hP
    | with_reducible apply setBar_keeps hP
    | with_reducible apply sendArrival_keeps hP
    | with_reducible apply ite_FstP
    | extract_lets
    | with_reducible apply fst_mk

theorem bwTickGroup_keeps (s : State) (h0 : Nat) (g : Nat) (hs : P s) : P (State.bwTickGroup s h0 g) := by
  unfold State.bwTickGroup
  extract_lets y0 y1 y2 y3 y4 y5
  clear_value y0 y1 y2 y3 y4 y5
  repeat' first
    | with_reducible assumption
    | (fail_if_no_progress with_reducible refine upd hP ?_ rfl)
    | with_reducible apply ite_P

theorem bwTick_keeps (s : State) (hs : P s) : P (State.bwTick s) := by
  unfold State.bwTick
  repeat' first
    | with_reducible assumption
    | with_reducible apply bwTickGroup_keeps hP
    | with_reducible apply ite_P
    | with_reducible refine foldl_keeps _ ?_ (fun s x hs => ?_)

theorem setSem_keeps (s : State) (i : Nat) (x : Sem) (hs : P s) : P (State.setSem s i x) := by
  unfold State.setSem
  extract_lets y0
  clear_value y0
  repeat' first
    | with_reducible assumption
    | (fail_if_no_progress with_reducible refine upd hP ?_ rfl)

theorem withdraw_keeps (s : State) (q : Nat) (hs : P s) : P (State.withdraw s q) := by
  unfold State.withdraw
  extract_lets y0 y1 y2 y3 y4 y5 y6
  have hy2 : P y2 := by
    subst y2
    repeat' first
      | with_reducible assumption
      | with_reducible apply setQue_keeps hP
  clear_value y0 y1 y2 y3 y4 y5 y6
  repeat' first
    | with_reducible assumption
    | with_reducible apply setSem_keeps hP
    | with_reducible apply setBar_keeps hP
    | split

theorem cmdErr_keeps (s : State) (q : Nat) (hs : P s) : P (State.cmdErr s q) := by
  unfold State.cmdErr
  extract_lets y0 y1 y2 y3
  have hy1 : P y1 := by
    subst y1
    repeat' first
      | with_reducible assumption
      | with_reducible apply withdraw_keeps hP
  have hy3 : P y3 := by
    subst y3
    repeat' first
      | with_reducible assumption
      | with_reducible apply setQue_keeps hP
  clear_value y0 y1 y2 y3
  repeat' first
    | with_reducible assumption
    | with_reducible apply event_keeps hP

theorem writeCount_keeps (s : State) (i : Nat) (v : Nat) (hs : P s) : P (State.writeCount s i v) := by
  unfold State.writeCount
  extract_lets y0
  clear_value y0
  repeat' first
    | with_reducible assumption
    | with_reducible apply setSem_keeps hP

theorem popQue_keeps (s : State) (q : Nat) (hs : P s) : P (State.popQue s q) := by
  unfold State.popQue
  extract_lets y0
  clear_value y0
  repeat' first
    | with_reducible assumption
    | with_reducible apply setQue_keeps hP

theorem semDec_keeps (s : State) (i : Nat) (k : Nat) (peer : Nat) (q : Nat) (hs : P s) : FstP P (State.semDec s i k peer q) := by
  unfold State.semDec
  extract_lets y0 y1
  have hy1 : P y1 := by
    subst y1
    repeat' first
      | with_reducible assumption
      | with_reducible apply setSem_keeps hP
  clear_value y0 y1
  repeat' first
    | with_reducible assumption
    | with_reducible apply setSem_keeps hP
    | with_reducible apply event_keeps hP
    | with_reducible apply ite_FstP
    | extract_lets
    | with_reducible apply fst_mk

theorem peerSignal_keeps (s : State) (flags : Nat) (id : Nat) (value : Nat) (hs : P s) : P (State.peerSignal s flags id value) := by
  unfold State.peerSignal
  extract_lets y0
  clear_value y0
  repeat' first
    | with_reducible assumption
    | with_reducible apply tick_keeps hP
    | with_reducible apply semAdd_keeps hP
    | with_reducible apply ite_P
    | extract_lets
    | (with_reducible apply FstP.out; with_reducible apply semDec_keeps hP)

theorem peerUndeliv_keeps (s : State) (q : Nat) (dst : Nat) (hs : P s) : P (State.peerUndeliv s q dst) := by
  unfold State.peerUndeliv
  extract_lets y0 y1 y2 y3
  have hy0 : P y0 := by
    subst y0
    repeat' first
      | with_reducible assumption
      | with_reducible apply tick_keeps hP
  have hy3 : P y3 := by
    subst y3
    repeat' first
      | with_reducible assumption
      | (fail_if_no_progress with_reducible refine upd hP ?_ rfl)
  clear_value y0 y1 y2 y3
  repeat' first
    | with_reducible assumption
    | with_reducible apply event_keeps hP
    | with_reducible apply ite_P

theorem sendSignal_keeps (s : State) (q : Nat) (c : QCmd) (hs : P s) : P (State.sendSignal s q c) := by
  unfold State.sendSignal
  extract_lets y0 y1
  have hy1 : FstP P y1 := by
    subst y1
    repeat' first
      | with_reducible assumption
      | with_reducible apply brRoute_keeps hP
  clear_value y0 y1
  repeat' first
    | with_reducible assumption
    | with_reducible apply peerSignal_keeps hP
    | with_reducible apply peerUndeliv_keeps hP
    | with_reducible apply ite_P
    | extract_lets
    | with_reducible exact FstP.out ‹_›

theorem execHead_keeps (s : State) (q : Nat) (c : QCmd) (hs : P s) : FstP P (State.execHead s q c) := by
  unfold State.execHead
  extract_lets y0 y1 y2 y3 y4 y5 y6 y7
  have hy2 : FstP P y2 := by
    subst y2
    repeat' first
      | with_reducible assumption
      | with_reducible apply semDec_keeps hP
  have hy4 : P y4 := by
    subst y4
    repeat' first
      | with_reducible assumption
      | with_reducible apply sendSignal_keeps hP
  have hy7 : FstP P y7 := by
    subst y7
    repeat' first
      | with_reducible assumption
      | with_reducible apply arriveBar_keeps hP
  clear_value y0 y1 y2 y3 y4 y5 y6 y7
  repeat' first
    | with_reducible assumption
    | with_reducible apply cmdErr_keeps hP
    | with_reducible apply popQue_keeps hP
    | with_reducible apply semAdd_keeps hP
    | with_reducible apply setSem_keeps hP
    | with_reducible apply setQue_keeps hP
    | with_reducible apply rearm_keeps hP
    | with_reducible apply ite_FstP
    | extract_lets
    | with_reducible refine opt_getD ?_ ?_
    | with_reducible exact FstP.out ‹_›
    | split
    | with_reducible apply fst_mk

theorem execHeads_keeps (s : State) (hs0 : List (Nat × QCmd)) (hs : P s) : FstP P (State.execHeads s hs0) := by
  unfold State.execHeads
  repeat' first
    | with_reducible assumption
    | with_reducible refine foldlf_keeps _ ?_ (fun s x hs => ?_)
    | extract_lets
    | with_reducible exact FstP.out ‹_›
    | (with_reducible apply FstP.out; with_reducible apply execHead_keeps hP)
    | split
    | with_reducible apply fst_mk

theorem runRound_keeps (s : State) (qs : List Nat) (hs : P s) : FstP P (State.runRound s qs) := by
  unfold State.runRound
  extract_lets y0 y1 y2 y3 y4 y5 y6 y7
  have hy2 : FstP P y2 := by
    subst y2
    repeat' first
      | with_reducible assumption
      | with_reducible apply execHeads_keeps hP
  have hy4 : P y4 := by
    subst y4
    repeat' first
      | with_reducible assumption
      | with_reducible apply semAdd_keeps hP
      | with_reducible refine foldl_keeps _ ?_ (fun s x hs => ?_)
      | extract_lets
      | with_reducible exact FstP.out ‹_›
  have hy5 : P y5 := by
    subst y5
    repeat' first
      | with_reducible assumption
      | with_reducible apply popQue_keeps hP
      | with_reducible refine foldl_keeps _ ?_ (fun s x hs => ?_)
  have hy6 : FstP P y6 := by
    subst y6
    repeat' first
      | with_reducible assumption
      | with_reducible apply execHeads_keeps hP
  have hy7 : FstP P y7 := by
    subst y7
    repeat' first
      | with_reducible apply execHeads_keeps hP
      | extract_lets
      | with_reducible exact FstP.out ‹_›
  subst y1
  try beta_reduce
  repeat' first
    | extract_lets
    | with_reducible exact FstP.out ‹_›
    | with_reducible apply fst_mk

theorem runTogether_keeps (s : State) (qs : List Nat) (a2 : Nat) (hs : P s) : P (State.runTogether s qs a2) := by
  induction a2 generalizing s qs with
  | zero =>
    unfold State.runTogether
    repeat' first
      | with_reducible assumption
  | succ n ih =>
    unfold State.runTogether
    repeat' first
      | (with_reducible refine ih _ _ ?_)
      | (with_reducible exact (runRound_keeps hP _ _ (by assumption)).out)
      | with_reducible assumption
      | with_reducible apply ite_P

theorem goOnAll_keeps (s : State) (qs : List Nat) (hs : P s) : P (State.goOnAll s qs) := by
  unfold State.goOnAll
  repeat' first
    | with_reducible assumption
    | with_reducible apply runTogether_keeps hP
    | with_reducible apply popQue_keeps hP
    | with_reducible refine foldl_keeps _ ?_ (fun s x hs => ?_)

theorem setMask_keeps (s : State) (b : Nat) (v : Nat) (hs : P s) : OptP P (State.setMask s b v) := by
  unfold State.setMask
  extract_lets y0 y1 y2 y3 y4 y5 y6 y7 y8
  have hy7 : P y7 := by
    subst y7
    repeat' first
      | with_reducible assumption
      | (fail_if_no_progress with_reducible refine upd hP ?_ rfl)
  have hy8 : P y8 := by
    subst y8
    repeat' first
      | with_reducible assumption
      | with_reducible apply setBar_keeps hP
  subst y4
  try beta_reduce
  repeat' first
    | with_reducible assumption
    | with_reducible apply sendArrival_keeps hP
    | with_reducible apply goOnAll_keeps hP
    | with_reducible apply opt_some
    | with_reducible apply opt_none
    | with_reducible apply ite_OptP

theorem writeDbarcfg_keeps (s : State) (k : Nat) (v : Nat) (hs : P s) : OptP P (State.writeDbarcfg s k v) := by
  unfold State.writeDbarcfg
  extract_lets y0
  clear_value y0
  repeat' first
    | with_reducible assumption
    | with_reducible refine hP.wr _ _ _ _ _ ?_
    | with_reducible apply setBar_keeps hP
    | with_reducible apply opt_some
    | with_reducible apply opt_none
    | with_reducible apply ite_OptP

theorem runQueue_keeps (s : State) (q : Nat) (a2 : Nat) (hs : P s) : P (State.runQueue s q a2) := by
  induction a2 generalizing s with
  | zero =>
    unfold State.runQueue
    repeat' first
      | with_reducible assumption
  | succ n ih =>
    unfold State.runQueue
    repeat' first
      | (with_reducible refine ih _ ?_)
      | (with_reducible refine (execHead_keeps hP _ _ _ ?_).out)
      | with_reducible assumption
      | with_reducible apply ite_P
      | extract_lets
      | split

theorem flushQueue_keeps (s : State) (q : Nat) (hs : P s) : P (State.flushQueue s q) := by
  unfold State.flushQueue
  extract_lets y0 y1
  have hy0 : P y0 := by
    subst y0
    repeat' first
      | with_reducible assumption
      | with_reducible apply withdraw_keeps hP
  clear_value y0 y1
  repeat' first
    | with_reducible assumption
    | with_reducible apply setQue_keeps hP

theorem holdQueue_keeps (s : State) (q : Nat) (on : Bool) (hs : P s) : P (State.holdQueue s q on) := by
  unfold State.holdQueue
  extract_lets y0
  have hy0 : P y0 := by
    subst y0
    repeat' first
      | with_reducible assumption
      | with_reducible refine hP.wr _ _ _ _ _ ?_
  clear_value y0
  repeat' first
    | with_reducible assumption
    | with_reducible apply runQueue_keeps hP
    | with_reducible apply ite_P

theorem resumeQueue_keeps (s : State) (q : Nat) (hs : P s) : P (State.resumeQueue s q) := by
  unfold State.resumeQueue
  extract_lets y0
  clear_value y0
  repeat' first
    | with_reducible assumption
    | with_reducible apply runQueue_keeps hP
    | with_reducible apply setQue_keeps hP
    | with_reducible apply ite_P

theorem countHeld_keeps (s : State) (b : Nat) (qs : List Nat) (hs : P s) : P (State.countHeld s b qs) := by
  unfold State.countHeld
  extract_lets y0
  have hy0 : FstP P y0 := by
    subst y0
    repeat' first
      | with_reducible assumption
      | with_reducible apply setQue_keeps hP
      | with_reducible refine foldlf_keeps _ ?_ (fun s x hs => ?_)
      | extract_lets
      | with_reducible exact FstP.out ‹_›
      | (with_reducible apply FstP.out; with_reducible apply arriveBar_keeps hP)
      | split
      | with_reducible apply fst_mk
  clear_value y0
  repeat' first
    | with_reducible apply goOnAll_keeps hP
    | extract_lets
    | with_reducible exact FstP.out ‹_›

theorem give_keeps (s : State) (q : Nat) (b : List Byte) (hs : P s) : P (State.give s q b) := by
  unfold State.give
  extract_lets y0
  clear_value y0
  repeat' first
    | with_reducible assumption
    | with_reducible apply runQueue_keeps hP
    | with_reducible apply setQue_keeps hP
    | with_reducible apply ite_P

theorem goOn_keeps (s : State) (q : Nat) (hs : P s) : P (State.goOn s q) := by
  unfold State.goOn
  repeat' first
    | with_reducible assumption
    | with_reducible apply runQueue_keeps hP
    | with_reducible apply popQue_keeps hP

theorem releaseBar_keeps (s : State) (b : Nat) (hs : P s) : P (State.releaseBar s b) := by
  unfold State.releaseBar
  extract_lets y0 y1
  have hy1 : P y1 := by
    subst y1
    repeat' first
      | with_reducible assumption
      | with_reducible apply setBar_keeps hP
  clear_value y0 y1
  repeat' first
    | with_reducible assumption
    | with_reducible apply goOnAll_keeps hP

theorem retryQueues_keeps (s : State) (hs : P s) : P (State.retryQueues s) := by
  unfold State.retryQueues
  extract_lets y0 y1 y2 y3
  have hy3 : P y3 := by
    subst y3
    repeat' first
      | with_reducible assumption
      | with_reducible apply setQue_keeps hP
      | with_reducible refine foldl_keeps _ ?_ (fun s x hs => ?_)
  subst y0
  try beta_reduce
  repeat' first
    | with_reducible assumption
    | with_reducible apply runTogether_keeps hP
    | with_reducible apply popQue_keeps hP
    | with_reducible refine foldl_keeps _ ?_ (fun s x hs => ?_)

theorem semError_keeps (s : State) (i : Nat) (hs : P s) : P (State.semError s i) := by
  unfold State.semError
  extract_lets y0 y1
  have hy1 : P y1 := by
    subst y1
    repeat' first
      | with_reducible assumption
      | with_reducible apply setSem_keeps hP
  clear_value y0 y1
  repeat' first
    | with_reducible assumption
    | with_reducible apply cmdErr_keeps hP
    | with_reducible refine foldl_keeps _ ?_ (fun s x hs => ?_)

theorem writeMask_keeps (s : State) (b : Nat) (word : Nat) (v : Nat) (hs : P s) : OptP P (State.writeMask s b word v) := by
  unfold State.writeMask
  extract_lets y0 y1 y2
  have hy2 : P y2 := by
    subst y2
    repeat' first
      | with_reducible assumption
      | (fail_if_no_progress with_reducible refine upd hP ?_ rfl)
  clear_value y0 y1 y2
  repeat' first
    | with_reducible assumption
    | with_reducible apply setMask_keeps hP
    | (fail_if_no_progress with_reducible refine upd hP ?_ rfl)
    | with_reducible apply opt_some
    | with_reducible apply opt_none
    | with_reducible apply ite_OptP

theorem execBarrierFullRelease_keeps (bar : Nat) (s : State) (hs : P s) : OutP P (execBarrierFullRelease bar s) := by
  unfold execBarrierFullRelease
  extract_lets y0 y1 y2
  have hy2 : P y2 := by
    subst y2
    repeat' first
      | with_reducible assumption
      | with_reducible apply setBar_keeps hP
  clear_value y0 y1 y2
  repeat' first
    | with_reducible assumption
    | with_reducible apply countHeld_keeps hP
    | with_reducible apply out_gated
    | with_reducible apply out_next
    | with_reducible apply ite_OutP

theorem execBarrierMaskWrite_keeps (bar : Nat) (word : Nat) (value : Nat) (s : State) (hs : P s) : OutP P (execBarrierMaskWrite bar word value s) := by
  unfold execBarrierMaskWrite
  repeat' first
    | with_reducible assumption
    | with_reducible apply writeMask_keeps hP
    | with_reducible apply out_gated
    | with_reducible apply out_next
    | extract_lets
    | with_reducible refine opt_getD ?_ ?_

theorem execBarrierRelease_keeps (bar : Nat) (s : State) (hs : P s) : OutP P (execBarrierRelease bar s) := by
  unfold execBarrierRelease
  repeat' first
    | with_reducible assumption
    | with_reducible apply releaseBar_keeps hP
    | with_reducible apply out_gated
    | with_reducible apply out_next
    | with_reducible apply ite_OutP

theorem execBwDeadlock_keeps (hub : Nat) (group : Nat) (s : State) (hs : P s) : OutP P (execBwDeadlock hub group s) := by
  unfold execBwDeadlock
  repeat' first
    | with_reducible assumption
    | with_reducible apply abortTask_keeps hP
    | with_reducible apply flushQueue_keeps hP
    | with_reducible apply setQue_keeps hP
    | with_reducible apply tick_keeps hP
    | with_reducible apply latch_keeps hP
    | with_reducible apply event_keeps hP
    | with_reducible apply out_gated
    | (fail_if_no_progress with_reducible refine upd hP ?_ rfl)
    | with_reducible apply out_next
    | with_reducible apply ite_OutP
    | with_reducible apply ite_P
    | extract_lets
    | split

theorem execDbarcfgWrite_keeps (k : Nat) (value : Nat) (s : State) (hs : P s) : OutP P (execDbarcfgWrite k value s) := by
  unfold execDbarcfgWrite
  repeat' first
    | with_reducible assumption
    | with_reducible apply writeDbarcfg_keeps hP
    | with_reducible apply out_gated
    | with_reducible apply out_next
    | with_reducible apply ite_OutP
    | extract_lets
    | with_reducible refine opt_getD ?_ ?_

theorem execDomainBarrierRelease_keeps (k : Nat) (s : State) (hs : P s) : OutP P (execDomainBarrierRelease k s) := by
  unfold execDomainBarrierRelease
  repeat' first
    | with_reducible assumption
    | with_reducible apply releaseBar_keeps hP
    | with_reducible apply out_gated
    | with_reducible apply out_next
    | with_reducible apply ite_OutP

theorem execQBar_keeps (q : Nat) (id : Nat) (amount : Nat) (flags : Nat) (arg : Nat) (s : State) (hs : P s) : OutP P (execQBar q id amount flags arg s) := by
  unfold execQBar
  repeat' first
    | with_reducible assumption
    | with_reducible apply give_keeps hP
    | with_reducible apply out_gated
    | with_reducible apply out_next

theorem execQBarnw_keeps (q : Nat) (id : Nat) (amount : Nat) (flags : Nat) (arg : Nat) (s : State) (hs : P s) : OutP P (execQBarnw q id amount flags arg s) := by
  unfold execQBarnw
  repeat' first
    | with_reducible assumption
    | with_reducible apply give_keeps hP
    | with_reducible apply out_gated
    | with_reducible apply out_next

theorem execQDec_keeps (q : Nat) (id : Nat) (amount : Nat) (flags : Nat) (arg : Nat) (s : State) (hs : P s) : OutP P (execQDec q id amount flags arg s) := by
  unfold execQDec
  repeat' first
    | with_reducible assumption
    | with_reducible apply give_keeps hP
    | with_reducible apply out_gated
    | with_reducible apply out_next

theorem execQRearm_keeps (q : Nat) (id : Nat) (amount : Nat) (flags : Nat) (arg : Nat) (s : State) (hs : P s) : OutP P (execQRearm q id amount flags arg s) := by
  unfold execQRearm
  repeat' first
    | with_reducible assumption
    | with_reducible apply give_keeps hP
    | with_reducible apply out_gated
    | with_reducible apply out_next

theorem execQRsig_keeps (q : Nat) (id : Nat) (amount : Nat) (flags : Nat) (arg : Nat) (s : State) (hs : P s) : OutP P (execQRsig q id amount flags arg s) := by
  unfold execQRsig
  repeat' first
    | with_reducible assumption
    | with_reducible apply give_keeps hP
    | with_reducible apply out_gated
    | with_reducible apply out_next

theorem execQSig_keeps (q : Nat) (id : Nat) (amount : Nat) (flags : Nat) (arg : Nat) (s : State) (hs : P s) : OutP P (execQSig q id amount flags arg s) := by
  unfold execQSig
  repeat' first
    | with_reducible assumption
    | with_reducible apply give_keeps hP
    | with_reducible apply out_gated
    | with_reducible apply out_next

theorem execQSset_keeps (q : Nat) (id : Nat) (amount : Nat) (flags : Nat) (arg : Nat) (s : State) (hs : P s) : OutP P (execQSset q id amount flags arg s) := by
  unfold execQSset
  repeat' first
    | with_reducible assumption
    | with_reducible apply give_keeps hP
    | with_reducible apply out_gated
    | with_reducible apply out_next

theorem execQWait_keeps (q : Nat) (id : Nat) (amount : Nat) (flags : Nat) (arg : Nat) (s : State) (hs : P s) : OutP P (execQWait q id amount flags arg s) := by
  unfold execQWait
  repeat' first
    | with_reducible assumption
    | with_reducible apply give_keeps hP
    | with_reducible apply out_gated
    | with_reducible apply out_next

theorem execQWaitbt_keeps (q : Nat) (id : Nat) (amount : Nat) (flags : Nat) (arg : Nat) (s : State) (hs : P s) : OutP P (execQWaitbt q id amount flags arg s) := by
  unfold execQWaitbt
  repeat' first
    | with_reducible assumption
    | with_reducible apply give_keeps hP
    | with_reducible apply out_gated
    | with_reducible apply out_next

theorem execQueueFlush_keeps (q : Nat) (s : State) (hs : P s) : OutP P (execQueueFlush q s) := by
  unfold execQueueFlush
  repeat' first
    | with_reducible assumption
    | with_reducible apply flushQueue_keeps hP
    | with_reducible apply out_gated
    | with_reducible apply out_next
    | with_reducible apply ite_OutP

theorem execQueueHold_keeps (q : Nat) (on : Bool) (s : State) (hs : P s) : OutP P (execQueueHold q on s) := by
  unfold execQueueHold
  repeat' first
    | with_reducible assumption
    | with_reducible apply holdQueue_keeps hP
    | with_reducible apply out_gated
    | with_reducible apply out_next
    | with_reducible apply ite_OutP

theorem execQueueResume_keeps (q : Nat) (s : State) (hs : P s) : OutP P (execQueueResume q s) := by
  unfold execQueueResume
  repeat' first
    | with_reducible assumption
    | with_reducible apply resumeQueue_keeps hP
    | with_reducible apply out_gated
    | with_reducible apply out_next
    | with_reducible apply ite_OutP

theorem execSemCountWrite_keeps (sem : Nat) (value : Nat) (s : State) (hs : P s) : OutP P (execSemCountWrite sem value s) := by
  unfold execSemCountWrite
  repeat' first
    | with_reducible assumption
    | with_reducible apply writeCount_keeps hP
    | with_reducible apply out_gated
    | with_reducible apply out_next
    | with_reducible apply ite_OutP

theorem execSluDbarStalled_keeps (k : Nat) (s : State) (hs : P s) : OutP P (execSluDbarStalled k s) := by
  unfold execSluDbarStalled
  repeat' first
    | with_reducible assumption
    | with_reducible apply setBar_keeps hP
    | with_reducible apply event_keeps hP
    | with_reducible apply out_gated
    | with_reducible apply out_next
    | with_reducible apply ite_OutP
    | extract_lets
    | split

theorem execSluiceArrival_keeps (dev : Nat) (bar : Nat) (gen : Nat) (a : Nat) (s : State) (hs : P s) : OutP P (execSluiceArrival dev bar gen a s) := by
  unfold execSluiceArrival
  repeat' first
    | with_reducible assumption
    | with_reducible apply tick_keeps hP
    | with_reducible apply event_keeps hP
    | with_reducible apply setBar_keeps hP
    | with_reducible apply out_gated
    | with_reducible apply out_next
    | with_reducible apply ite_OutP

theorem execSluiceSignal_keeps (port : Nat) (dev : Nat) (flags : Nat) (id : Nat) (value : Nat) (s : State) (hs : P s) : OutP P (execSluiceSignal port dev flags id value s) := by
  unfold execSluiceSignal
  repeat' first
    | with_reducible assumption
    | with_reducible apply peerSignal_keeps hP
    | with_reducible apply out_gated
    | with_reducible apply out_next
    | with_reducible apply ite_OutP

theorem execWaitGrant_keeps (sem : Nat) (s : State) (hs : P s) : OutP P (execWaitGrant sem s) := by
  unfold execWaitGrant
  repeat' first
    | with_reducible assumption
    | with_reducible apply goOn_keeps hP
    | with_reducible apply setSem_keeps hP
    | with_reducible apply out_gated
    | with_reducible apply out_next
    | with_reducible apply ite_OutP
    | extract_lets
    | split

theorem execWaitbtReached_keeps (q : Nat) (s : State) (hs : P s) : OutP P (execWaitbtReached q s) := by
  unfold execWaitbtReached
  repeat' first
    | with_reducible assumption
    | with_reducible apply goOn_keeps hP
    | with_reducible apply out_gated
    | with_reducible apply out_next
    | with_reducible apply ite_OutP

theorem rearmCore_keeps (s : State) (c : Nat) (hs : P s) : P (State.rearmCore s c) := by
  unfold State.rearmCore
  repeat' first
    | with_reducible assumption
    | with_reducible apply resumeQueue_keeps hP
    | with_reducible refine foldl_keeps _ ?_ (fun s x hs => ?_)

theorem coreStop_keeps (s : State) (c : Nat) (hs : P s) : P (State.coreStop s c) := by
  unfold State.coreStop
  extract_lets y0 y1 y2 y3 y4 y5 y6
  have hy2 : P y2 := by
    subst y2
    repeat' first
      | with_reducible assumption
      | with_reducible apply flushQueue_keeps hP
      | with_reducible apply setQue_keeps hP
      | with_reducible refine foldl_keeps _ ?_ (fun s x hs => ?_)
  have hy5 : P y5 := by
    subst y5
    repeat' first
      | with_reducible assumption
      | (fail_if_no_progress with_reducible refine upd hP ?_ rfl)
  have hy6 : P y6 := by
    subst y6
    repeat' first
      | with_reducible assumption
      | with_reducible apply countErr_keeps hP
  clear_value y0 y1 y2 y3 y4 y5 y6
  repeat' first
    | with_reducible assumption
    | with_reducible apply rearmCore_keeps hP
    | with_reducible apply ite_P

theorem sideCount_keeps (s : State) (u : Nat) (hs : P s) : P (State.sideCount s u) := by
  unfold State.sideCount
  repeat' first
    | with_reducible assumption
    | with_reducible apply tick_keeps hP
    | split

theorem uncorrectable_keeps (s : State) (u : Nat) (detail : Nat) (hs : P s) : P (State.uncorrectable s u detail) := by
  unfold State.uncorrectable
  extract_lets y0 y1 y2 y3
  have hy1 : P y1 := by
    subst y1
    repeat' first
      | with_reducible assumption
      | with_reducible apply endSearches_keeps hP
      | with_reducible apply ite_P
  clear_value y0 y1 y2 y3
  repeat' first
    | with_reducible assumption
    | with_reducible apply unitError_keeps hP
    | with_reducible apply countErr_keeps hP
    | with_reducible apply abortTasks_keeps hP
    | with_reducible apply linkSearches_keeps hP
    | with_reducible apply batchFault_keeps hP
    | with_reducible apply abortTask_keeps hP
    | with_reducible apply settleFault_keeps hP
    | with_reducible apply coreStop_keeps hP
    | with_reducible apply sendSnap_keeps hP
    | with_reducible apply semError_keeps hP
    | (fail_if_no_progress with_reducible refine upd hP ?_ rfl)
    | with_reducible apply ite_P
    | with_reducible refine foldl_keeps _ ?_ (fun s x hs => ?_)
    | split

theorem execCorrectableError_keeps (e : CorrError) (s : State) (hs : P s) : OutP P (execCorrectableError e s) := by
  unfold execCorrectableError
  repeat' first
    | with_reducible assumption
    | with_reducible apply tick_keeps hP
    | with_reducible apply countErr_keeps hP
    | with_reducible apply sideCount_keeps hP
    | with_reducible apply out_gated
    | with_reducible apply out_next
    | with_reducible apply ite_P

theorem execRelCoreReset_keeps (core : Nat) (s : State) (hs : P s) : OutP P (execRelCoreReset core s) := by
  unfold execRelCoreReset
  repeat' first
    | with_reducible assumption
    | with_reducible apply rearmCore_keeps hP
    | with_reducible apply event_keeps hP
    | with_reducible apply out_gated
    | (fail_if_no_progress with_reducible refine upd hP ?_ rfl)
    | with_reducible apply out_next
    | with_reducible apply ite_OutP

theorem execUncorrectableError_keeps (unit : Nat) (detail : Nat) (s : State) (hs : P s) : OutP P (execUncorrectableError unit detail s) := by
  unfold execUncorrectableError
  repeat' first
    | with_reducible assumption
    | with_reducible apply uncorrectable_keeps hP
    | with_reducible apply out_gated
    | with_reducible apply out_next
    | with_reducible apply ite_P

theorem linkTake_keeps (s : State) (port : Nat) (m : BrMsg) (hs : P s) : P (State.linkTake s port m) := by
  unfold State.linkTake
  extract_lets y0 y1 y2 y3
  have hy2 : P y2 := by
    subst y2
    repeat' first
      | with_reducible assumption
      | with_reducible apply setBrPort_keeps hP
  clear_value y0 y1 y2 y3
  repeat' first
    | with_reducible assumption
    | (fail_if_no_progress with_reducible refine upd hP ?_ rfl)

theorem brTake_keeps (s : State) (port : Nat) (m : BrMsg) (f : State → State) (hs : P s) (hf : ∀ x0, P x0 → P (f x0)) : P (State.brTake s port m f) := by
  unfold State.brTake
  extract_lets y0 y1
  have hy1 : P y1 := by
    subst y1
    repeat' first
      | with_reducible assumption
      | with_reducible apply linkTake_keeps hP
  clear_value y0 y1
  repeat' first
    | with_reducible assumption
    | with_reducible apply setBrPort_keeps hP
    | with_reducible apply tick_keeps hP
    | with_reducible apply hf
    | with_reducible apply ite_P

theorem forwardedRecord_keeps (s : State) (port : Nat) (m : BrMsg) (hs : P s) : P (State.forwardedRecord s port m) := by
  unfold State.forwardedRecord
  extract_lets y0 y1 y2 y3
  clear_value y0 y1 y2 y3
  repeat' first
    | with_reducible assumption
    | with_reducible apply takeIntake_keeps hP
    | with_reducible apply refuseRec_keeps hP
    | split

theorem braidRecord_keeps (s : State) (port : Nat) (m : BrMsg) (ago : Nat) (hs : P s) : P (State.braidRecord s port m ago) := by
  unfold State.braidRecord
  extract_lets y0 y1 y2 y3 y4 y5 y6 y7 y8 y9 y10
  have hy0 : P y0 := by
    subst y0
    repeat' first
      | with_reducible assumption
      | with_reducible apply tick_keeps hP
  have hy6 : SndP P y6 := by
    subst y6
    repeat' first
      | with_reducible assumption
      | with_reducible apply nextSeq_keeps hP
  clear_value y0 y1 y2 y3 y4 y5 y6 y7 y8 y9 y10
  repeat' first
    | with_reducible assumption
    | with_reducible apply takeRecord_keeps hP
    | with_reducible apply refuseRec_keeps hP
    | with_reducible apply forwardedRecord_keeps hP
    | with_reducible apply ite_P
    | extract_lets
    | (with_reducible apply FstP.out; with_reducible apply brRoute_keeps hP)
    | with_reducible exact SndP.out ‹_›

theorem dropXfer_keeps (s : State) (sender : Nat) (transfer : Nat) (hs : P s) : P (State.dropXfer s sender transfer) := by
  unfold State.dropXfer
  extract_lets y0
  clear_value y0
  repeat' first
    | with_reducible assumption
    | (fail_if_no_progress with_reducible refine upd hP ?_ rfl)

theorem putXfer_keeps (s : State) (x : McXfer) (hs : P s) : P (State.putXfer s x) := by
  unfold State.putXfer
  extract_lets y0 y1
  subst y0
  try beta_reduce
  repeat' first
    | with_reducible assumption
    | (fail_if_no_progress with_reducible refine upd hP ?_ rfl)

theorem mcSend_keeps (s : State) (b : Nat) (inPort : Option Nat) (m : BrMsg) (hs : P s) : P (State.mcSend s b inPort m) := by
  unfold State.mcSend
  repeat' first
    | with_reducible assumption
    | with_reducible apply brSend_keeps hP
    | with_reducible apply tick_keeps hP
    | split

theorem creditUp_keeps (s : State) (x : McXfer) (hs : P s) : P (State.creditUp s x) := by
  unfold State.creditUp
  extract_lets y0 y1 y2
  have hy1 : P y1 := by
    subst y1
    repeat' first
      | with_reducible assumption
      | with_reducible apply putXfer_keeps hP
  clear_value y0 y1 y2
  repeat' first
    | with_reducible assumption
    | with_reducible apply dropXfer_keeps hP
    | with_reducible apply putXfer_keeps hP
    | with_reducible apply mcSend_keeps hP
    | with_reducible apply ite_P
    | split

theorem mcastOpen_keeps (s : State) (group : Nat) (kind : Nat) (tenant : Nat) (chunks : Nat) (hs : P s) : FstP P (State.mcastOpen s group kind tenant chunks) := by
  unfold State.mcastOpen
  extract_lets y0 y1 y2 y3
  clear_value y0 y1 y2 y3
  repeat' first
    | with_reducible assumption
    | (fail_if_no_progress with_reducible refine upd hP ?_ rfl)
    | with_reducible apply fst_mk

theorem mcastGive_keeps (s : State) (transfer : Nat) (bytes : List Byte) (hs : P s) : P (State.mcastGive s transfer bytes) := by
  unfold State.mcastGive
  repeat' first
    | with_reducible assumption
    | with_reducible apply putXfer_keeps hP
    | with_reducible refine foldl_keeps _ ?_ (fun s x hs => ?_)
    | extract_lets
    | (with_reducible apply FstP.out; with_reducible apply brRoute_keeps hP)
    | split

theorem mcastDeliver_keeps (s : State) (x : McXfer) (chunk : Nat) (bytes : List Byte) (hs : P s) : FstP P (State.mcastDeliver s x chunk bytes) := by
  unfold State.mcastDeliver
  extract_lets y0 y1 y2
  clear_value y0 y1 y2
  repeat' first
    | with_reducible assumption
    | (fail_if_no_progress with_reducible refine upd hP ?_ rfl)
    | with_reducible apply ite_FstP
    | extract_lets
    | split
    | with_reducible apply fst_mk

theorem mcastChunk_keeps (s : State) (port : Nat) (m : BrMsg) (hs : P s) : P (State.mcastChunk s port m) := by
  unfold State.mcastChunk
  extract_lets y0 y1 y2 y3 y4 y5 y6 y7 y8 y9 y10 y11 y12 y13 y14 y15 y16
  have hy13 : FstP P y13 := by
    subst y13
    repeat' first
      | with_reducible assumption
      | with_reducible apply mcastDeliver_keeps hP
      | with_reducible apply ite_FstP
      | extract_lets
      | with_reducible apply fst_mk
  have hy15 : P y15 := by
    subst y15
    repeat' first
      | with_reducible assumption
      | with_reducible apply mcSend_keeps hP
      | with_reducible refine foldl_keeps _ ?_ (fun s x hs => ?_)
  have hy16 : FstP P y16 := by
    subst y16
    repeat' first
      | with_reducible assumption
      | with_reducible apply mcastDeliver_keeps hP
      | with_reducible apply ite_FstP
      | extract_lets
      | with_reducible apply fst_mk
  clear_value y0 y1 y2 y3 y4 y5 y6 y7 y8 y9 y10 y11 y12 y13 y14 y15 y16
  repeat' first
    | with_reducible assumption
    | with_reducible apply tick_keeps hP
    | with_reducible apply putXfer_keeps hP
    | with_reducible apply creditUp_keeps hP
    | with_reducible apply ite_P
    | extract_lets
    | with_reducible exact FstP.out ‹_›

theorem mcastTaken_keeps (s : State) (r : Rec) (hs : P s) : P (State.mcastTaken s r) := by
  unfold State.mcastTaken
  repeat' first
    | with_reducible assumption
    | with_reducible apply event_keeps hP
    | with_reducible apply creditUp_keeps hP
    | with_reducible apply ite_P
    | split

theorem passOn_keeps (s : State) (port : Nat) (m : BrMsg) (hs : P s) : P (State.passOn s port m) := by
  unfold State.passOn
  repeat' first
    | with_reducible assumption
    | with_reducible apply ite_P
    | extract_lets
    | (with_reducible apply FstP.out; with_reducible apply brRoute_keeps hP)

theorem repairReq_keeps (s : State) (m : BrMsg) (hs : P s) : P (State.repairReq s m) := by
  unfold State.repairReq
  extract_lets y0 y1
  clear_value y0 y1
  repeat' first
    | with_reducible assumption
    | with_reducible apply putXfer_keeps hP
    | with_reducible refine foldl_keeps _ ?_ (fun s x hs => ?_)
    | extract_lets
    | (with_reducible apply FstP.out; with_reducible apply brRoute_keeps hP)
    | split

theorem execAttEgressTimeout_keeps (port : Nat) (s : State) (hs : P s) : OutP P (execAttEgressTimeout port s) := by
  unfold execAttEgressTimeout
  extract_lets y0 y1
  subst y1
  try beta_reduce
  repeat' first
    | with_reducible assumption
    | with_reducible apply attDrop_keeps hP
    | with_reducible apply setBrPort_keeps hP
    | with_reducible apply peerUndeliv_keeps hP
    | with_reducible apply goOn_keeps hP
    | with_reducible apply lostList_keeps hP
    | with_reducible apply out_gated
    | with_reducible apply out_next
    | with_reducible apply ite_OutP
    | with_reducible apply ite_P
    | extract_lets
    | split

theorem execBraidBringupStepDone_keeps (port : Nat) (s : State) (hs : P s) : OutP P (execBraidBringupStepDone port s) := by
  unfold execBraidBringupStepDone
  repeat' first
    | with_reducible assumption
    | with_reducible apply setBrPort_keeps hP
    | with_reducible apply brUp_keeps hP
    | with_reducible apply reinstated_keeps hP
    | with_reducible apply countErr_keeps hP
    | with_reducible apply out_gated
    | (fail_if_no_progress with_reducible refine upd hP ?_ rfl)
    | with_reducible apply out_next
    | with_reducible apply ite_OutP
    | with_reducible apply ite_P

theorem execBraidBringupTimeout_keeps (port : Nat) (s : State) (hs : P s) : OutP P (execBraidBringupTimeout port s) := by
  unfold execBraidBringupTimeout
  repeat' first
    | with_reducible assumption
    | with_reducible apply brDown_keeps hP
    | with_reducible apply out_gated
    | with_reducible apply out_next
    | with_reducible apply ite_OutP

theorem execBraidPortDown_keeps (port : Nat) (cause : Nat) (s : State) (hs : P s) : OutP P (execBraidPortDown port cause s) := by
  unfold execBraidPortDown
  repeat' first
    | with_reducible assumption
    | with_reducible apply brDown_keeps hP
    | with_reducible apply out_gated
    | with_reducible apply out_next
    | with_reducible apply ite_OutP

theorem execBraidRecord_keeps (port : Nat) (m : BrMsg) (ago : Nat) (s : State) (hs : P s) : OutP P (execBraidRecord port m ago s) := by
  unfold execBraidRecord
  repeat' first
    | with_reducible assumption
    | with_reducible refine brTake_keeps hP _ _ _ _ ?_ (fun x0 hx0 => ?_)
    | with_reducible apply braidRecord_keeps hP
    | with_reducible apply passOn_keeps hP
    | with_reducible apply out_gated
    | with_reducible apply out_next
    | with_reducible apply ite_OutP
    | with_reducible apply ite_P

theorem execBraidReply_keeps (port : Nat) (m : BrMsg) (s : State) (hs : P s) : OutP P (execBraidReply port m s) := by
  unfold execBraidReply
  repeat' first
    | with_reducible assumption
    | with_reducible refine brTake_keeps hP _ _ _ _ ?_ (fun x0 hx0 => ?_)
    | with_reducible apply passOn_keeps hP
    | with_reducible apply out_gated
    | with_reducible apply out_next
    | with_reducible apply ite_OutP

theorem execCmdlist_keeps (port : Nat) (m : BrMsg) (s : State) (hs : P s) : OutP P (execCmdlist port m s) := by
  unfold execCmdlist
  repeat' first
    | with_reducible assumption
    | with_reducible refine brTake_keeps hP _ _ _ _ ?_ (fun x0 hx0 => ?_)
    | with_reducible apply passOn_keeps hP
    | with_reducible apply out_gated
    | with_reducible apply out_next
    | with_reducible apply ite_OutP

theorem execFlitReplay_keeps (e : FlitError) (s : State) (hs : P s) : OutP P (execFlitReplay e s) := by
  unfold execFlitReplay
  repeat' first
    | with_reducible assumption
    | with_reducible refine hP.count _ _ _ _ ?_
    | with_reducible apply tick_keeps hP
    | with_reducible apply setBrPort_keeps hP
    | with_reducible apply brDown_keeps hP
    | with_reducible apply out_gated
    | with_reducible apply out_next
    | with_reducible apply ite_OutP

theorem execIdentityWord_keeps (port : Nat) (w : IdentWord) (s : State) (hs : P s) : OutP P (execIdentityWord port w s) := by
  unfold execIdentityWord
  repeat' first
    | with_reducible assumption
    | with_reducible apply setBrPort_keeps hP
    | with_reducible apply noteDegraded_keeps hP
    | with_reducible apply event_keeps hP
    | with_reducible apply out_gated
    | with_reducible apply out_next
    | with_reducible apply ite_OutP

theorem execMcast_keeps (port : Nat) (m : BrMsg) (s : State) (hs : P s) : OutP P (execMcast port m s) := by
  unfold execMcast
  repeat' first
    | with_reducible assumption
    | with_reducible refine brTake_keeps hP _ _ _ _ ?_ (fun x0 hx0 => ?_)
    | with_reducible apply mcastChunk_keeps hP
    | with_reducible apply out_gated
    | with_reducible apply out_next
    | with_reducible apply ite_OutP
    | with_reducible apply ite_P
    | extract_lets
    | (with_reducible apply FstP.out; with_reducible apply brRoute_keeps hP)

theorem execMcastChunkSend_keeps (xfer : Nat) (s : State) (hs : P s) : OutP P (execMcastChunkSend xfer s) := by
  unfold execMcastChunkSend
  repeat' first
    | with_reducible assumption
    | with_reducible apply mcSend_keeps hP
    | with_reducible apply creditUp_keeps hP
    | with_reducible apply out_gated
    | with_reducible apply out_next
    | with_reducible apply ite_OutP
    | with_reducible refine foldl_keeps _ ?_ (fun s x hs => ?_)
    | extract_lets
    | split

theorem execMcastCredit_keeps (port : Nat) (m : BrMsg) (s : State) (hs : P s) : OutP P (execMcastCredit port m s) := by
  unfold execMcastCredit
  repeat' first
    | with_reducible assumption
    | with_reducible refine brTake_keeps hP _ _ _ _ ?_ (fun x0 hx0 => ?_)
    | with_reducible apply creditUp_keeps hP
    | with_reducible apply out_gated
    | with_reducible apply out_next
    | with_reducible apply ite_OutP
    | with_reducible apply ite_P
    | extract_lets
    | split

theorem execMcastOutOfSet_keeps (xfer : Nat) (s : State) (hs : P s) : OutP P (execMcastOutOfSet xfer s) := by
  unfold execMcastOutOfSet
  repeat' first
    | with_reducible assumption
    | with_reducible apply putXfer_keeps hP
    | with_reducible apply out_gated
    | with_reducible apply out_next
    | with_reducible apply ite_OutP
    | extract_lets
    | split

theorem execMcastPrune_keeps (xfer : Nat) (hop : Nat) (s : State) (hs : P s) : OutP P (execMcastPrune xfer hop s) := by
  unfold execMcastPrune
  repeat' first
    | with_reducible assumption
    | with_reducible apply tick_keeps hP
    | with_reducible apply latch_keeps hP
    | with_reducible apply event_keeps hP
    | with_reducible apply creditUp_keeps hP
    | with_reducible apply out_gated
    | (fail_if_no_progress with_reducible refine upd hP ?_ rfl)
    | with_reducible apply out_next
    | with_reducible apply ite_OutP
    | extract_lets
    | split

theorem execMcastRepairSend_keeps (xfer : Nat) (s : State) (hs : P s) : OutP P (execMcastRepairSend xfer s) := by
  unfold execMcastRepairSend
  repeat' first
    | with_reducible assumption
    | with_reducible apply putXfer_keeps hP
    | with_reducible apply out_gated
    | with_reducible apply out_next
    | with_reducible apply ite_OutP
    | with_reducible refine foldl_keeps _ ?_ (fun s x hs => ?_)
    | extract_lets
    | (with_reducible apply FstP.out; with_reducible apply brRoute_keeps hP)
    | split

theorem execMcastRetentionExpiry_keeps (xfer : Nat) (s : State) (hs : P s) : OutP P (execMcastRetentionExpiry xfer s) := by
  unfold execMcastRetentionExpiry
  repeat' first
    | with_reducible assumption
    | with_reducible apply dropXfer_keeps hP
    | with_reducible apply out_gated
    | with_reducible apply out_next
    | with_reducible apply ite_OutP
    | extract_lets
    | split

theorem execRepairReq_keeps (port : Nat) (m : BrMsg) (s : State) (hs : P s) : OutP P (execRepairReq port m s) := by
  unfold execRepairReq
  repeat' first
    | with_reducible assumption
    | with_reducible refine brTake_keeps hP _ _ _ _ ?_ (fun x0 hx0 => ?_)
    | with_reducible apply repairReq_keeps hP
    | with_reducible apply passOn_keeps hP
    | with_reducible apply out_gated
    | with_reducible apply out_next
    | with_reducible apply ite_OutP
    | with_reducible apply ite_P

theorem setpoint_keeps (s : State) (d : Nat) (k : Nat) (hs : P s) : P (State.setpoint s d k) := by
  unfold State.setpoint
  extract_lets y0
  clear_value y0
  repeat' first
    | with_reducible assumption
    | with_reducible apply setSup_keeps hP
    | with_reducible apply ite_P

theorem askSetpoint_keeps (s : State) (d : Nat) (k : Nat) (hs : P s) : P (State.askSetpoint s d k) := by
  unfold State.askSetpoint
  extract_lets y0
  clear_value y0
  repeat' first
    | with_reducible assumption
    | with_reducible apply setpoint_keeps hP
    | with_reducible apply setSup_keeps hP
    | with_reducible apply ite_P

theorem goalsDue_keeps (s : State) (hs : P s) : P (State.goalsDue s) := by
  unfold State.goalsDue
  repeat' first
    | with_reducible assumption
    | with_reducible apply askSetpoint_keeps hP
    | with_reducible refine foldl_keeps _ ?_ (fun s x hs => ?_)
    | split

theorem pinClocks_keeps (s : State) (hs : P s) : P (State.pinClocks s) := by
  unfold State.pinClocks
  extract_lets y0 y1 y2
  subst y2
  apply goalsDue_keeps hP
  repeat' first
    | with_reducible assumption
    | with_reducible refine foldl_keeps _ ?_ (fun s x hs => ?_)
    | with_reducible apply setHeat_keeps hP

theorem putVcfg_keeps (s : State) (d : Nat) (v : Nat) (hs : P s) : P (State.putVcfg s d v) := by
  unfold State.putVcfg
  extract_lets y0 y1
  have hy1 : P y1 := by
    subst y1
    repeat' first
      | with_reducible assumption
      | with_reducible refine hP.wr _ _ _ _ _ ?_
  clear_value y0 y1
  repeat' first
    | with_reducible assumption
    | with_reducible apply askSetpoint_keeps hP
    | with_reducible apply ite_P

theorem putClkCfg_keeps (s : State) (v : Nat) (hs : P s) : P (State.putClkCfg s v) := by
  unfold State.putClkCfg
  repeat' first
    | with_reducible assumption
    | with_reducible apply pinClocks_keeps hP
    | with_reducible refine hP.wr _ _ _ _ _ ?_

theorem putPower_keeps (s : State) (d : Nat) (v : Nat) (hs : P s) : P (State.putPower s d v) := by
  unfold State.putPower
  repeat' first
    | with_reducible assumption
    | with_reducible apply putVcfg_keeps hP
    | with_reducible apply putClkCfg_keeps hP
    | with_reducible apply ite_P

theorem powerWrite_keeps (s : State) (d : Nat) (v : Nat) (hs : P s) : P (State.powerWrite s d v) := by
  unfold State.powerWrite
  extract_lets y0
  clear_value y0
  repeat' first
    | with_reducible assumption
    | with_reducible apply putPower_keeps hP
    | (fail_if_no_progress with_reducible refine upd hP ?_ rfl)
    | with_reducible apply ite_P

theorem refTo_keeps (s : State) (red : Bool) (hs : P s) : P (State.refTo s red) := by
  unfold State.refTo
  extract_lets y0 y1 y2
  have hy2 : P y2 := by
    subst y2
    repeat' first
      | with_reducible assumption
      | (fail_if_no_progress with_reducible refine upd hP ?_ rfl)
  clear_value y0 y1 y2
  repeat' first
    | with_reducible assumption
    | with_reducible apply event_keeps hP

theorem releaseHeld_keeps (s : State) (hs : P s) : P (State.releaseHeld s) := by
  unfold State.releaseHeld
  extract_lets y0 y1 y2
  have hy2 : P y2 := by
    subst y2
    repeat' first
      | with_reducible assumption
      | (fail_if_no_progress with_reducible refine upd hP ?_ rfl)
  clear_value y0 y1 y2
  repeat' first
    | with_reducible assumption
    | with_reducible apply putPower_keeps hP
    | with_reducible refine foldl_keeps _ ?_ (fun s x hs => ?_)

theorem tripAt_keeps (hM : ClosedMem P) (s : State) (unit : Nat) (temp : ℤ) (hs : P s) : P (State.tripAt s unit temp) := by
  unfold State.tripAt
  extract_lets y0 y1 y2 y3
  have hy0 : P y0 := by
    subst y0
    repeat' first
      | with_reducible assumption
      | with_reducible refine hM.cold _ _ _ ?_
  clear_value y0 y1 y2 y3
  repeat' first
    | with_reducible assumption
    | (fail_if_no_progress with_reducible refine upd hP ?_ rfl)

theorem execAdaptiveClockStep_keeps (die : Nat) (limit : Nat) (s : State) (hs : P s) : OutP P (execAdaptiveClockStep die limit s) := by
  unfold execAdaptiveClockStep
  extract_lets y0 y1 y2 y3 y4
  clear_value y0 y1 y2 y3 y4
  repeat' first
    | with_reducible assumption
    | with_reducible apply goalsDue_keeps hP
    | with_reducible apply setHeat_keeps hP
    | with_reducible apply out_gated
    | with_reducible apply out_next
    | with_reducible apply ite_OutP
    | with_reducible apply ite_P

theorem execAdaptiveVoltageStep_keeps (domain : Nat) (margin : ℤ) (s : State) (hs : P s) : OutP P (execAdaptiveVoltageStep domain margin s) := by
  unfold execAdaptiveVoltageStep
  extract_lets y0 y1 y2 y3
  subst y3
  try beta_reduce
  repeat' first
    | with_reducible assumption
    | with_reducible apply askSetpoint_keeps hP
    | with_reducible apply setSup_keeps hP
    | with_reducible apply out_gated
    | with_reducible apply out_next
    | with_reducible apply ite_OutP

theorem execAvsCurrentRead_keeps (domain : Nat) (cur : Nat) (s : State) (hs : P s) : OutP P (execAvsCurrentRead domain cur s) := by
  unfold execAvsCurrentRead
  extract_lets y0
  clear_value y0
  repeat' first
    | with_reducible assumption
    | with_reducible apply setSup_keeps hP
    | with_reducible apply out_gated
    | with_reducible apply out_next

theorem execCapPeriodEnd_keeps (core : Nat) (share : List Nat) (cur : List Nat) (s : State) (hs : P s) : OutP P (execCapPeriodEnd core share cur s) := by
  unfold execCapPeriodEnd
  repeat' first
    | with_reducible assumption
    | with_reducible apply setHub_keeps hP
    | with_reducible apply event_keeps hP
    | with_reducible apply out_gated
    | (fail_if_no_progress with_reducible refine upd hP ?_ rfl)
    | with_reducible apply out_next
    | with_reducible apply ite_OutP
    | with_reducible refine foldl_keeps _ ?_ (fun s x hs => ?_)

theorem execPwrRegFault_keeps (domain : Nat) (cause : Nat) (s : State) (hs : P s) : OutP P (execPwrRegFault domain cause s) := by
  unfold execPwrRegFault
  repeat' first
    | with_reducible assumption
    | with_reducible apply event_keeps hP
    | with_reducible apply out_next

theorem execRefHoldExpiry_keeps (s : State) (hs : P s) : OutP P (execRefHoldExpiry s) := by
  unfold execRefHoldExpiry
  repeat' first
    | with_reducible assumption
    | with_reducible refine hP.warm _ _ _ ?_
    | (fail_if_no_progress with_reducible refine upd hP ?_ rfl)
    | with_reducible apply out_next
    | with_reducible apply ite_OutP
    | extract_lets
    | split

theorem execRefInputLost_keeps (red : Bool) (s : State) (hs : P s) : OutP P (execRefInputLost red s) := by
  unfold execRefInputLost
  repeat' first
    | with_reducible assumption
    | with_reducible apply refTo_keeps hP
    | (fail_if_no_progress with_reducible refine upd hP ?_ rfl)
    | with_reducible apply out_next
    | with_reducible apply ite_OutP

theorem execRefRevert_keeps (good : Nat) (s : State) (hs : P s) : OutP P (execRefRevert good s) := by
  unfold execRefRevert
  repeat' first
    | with_reducible assumption
    | with_reducible apply refTo_keeps hP
    | (fail_if_no_progress with_reducible refine upd hP ?_ rfl)
    | with_reducible apply out_next
    | with_reducible apply ite_OutP

theorem execSetpointReached_keeps (domain : Nat) (reported : Bool) (s : State) (hs : P s) : OutP P (execSetpointReached domain reported s) := by
  unfold execSetpointReached
  repeat' first
    | with_reducible assumption
    | with_reducible apply pinClocks_keeps hP
    | with_reducible apply setSup_keeps hP
    | with_reducible apply out_gated
    | with_reducible apply out_next
    | with_reducible apply ite_OutP
    | extract_lets
    | split

theorem execStackTemperatureReport_keeps (hM : ClosedMem P) (stack : Nat) (temp : Nat) (s : State) (hs : P s) : OutP P (execStackTemperatureReport stack temp s) := by
  unfold execStackTemperatureReport
  repeat' first
    | with_reducible assumption
    | with_reducible apply gatedCold_keeps hP
    | with_reducible apply tripAt_keeps hP hM
    | with_reducible apply event_keeps hP
    | (fail_if_no_progress with_reducible refine upd hP ?_ rfl)
    | with_reducible apply out_next
    | with_reducible apply ite_OutP

theorem execStretchRelease_keeps (domain : Nat) (mv : Nat) (above : Nat) (margin : ℤ) (ok : Nat) (s : State) (hs : P s) : OutP P (execStretchRelease domain mv above margin ok s) := by
  unfold execStretchRelease
  repeat' first
    | with_reducible assumption
    | with_reducible apply goalsDue_keeps hP
    | with_reducible apply releaseHeld_keeps hP
    | with_reducible apply setSup_keeps hP
    | with_reducible apply out_gated
    | with_reducible apply out_next

theorem execSupplyRangeTimeout_keeps (domain : Nat) (s : State) (hs : P s) : OutP P (execSupplyRangeTimeout domain s) := by
  unfold execSupplyRangeTimeout
  repeat' first
    | with_reducible assumption
    | with_reducible apply out_gated
    | (fail_if_no_progress with_reducible refine upd hP ?_ rfl)
    | with_reducible apply out_next
    | with_reducible apply ite_OutP

theorem execThermalReading_keeps (hM : ClosedMem P) (die : Nat) (s : State) (hs : P s) : OutP P (execThermalReading die s) := by
  unfold execThermalReading
  repeat' first
    | with_reducible assumption
    | with_reducible apply gatedCold_keeps hP
    | with_reducible apply tripAt_keeps hP hM
    | with_reducible apply setHeat_keeps hP
    | with_reducible apply pinClocks_keeps hP
    | with_reducible apply releaseHeld_keeps hP
    | with_reducible apply event_keeps hP
    | with_reducible apply out_next
    | with_reducible apply ite_OutP

theorem execTimingEmergency_keeps (domain : Nat) (margin : ℤ) (s : State) (hs : P s) : OutP P (execTimingEmergency domain margin s) := by
  unfold execTimingEmergency
  repeat' first
    | with_reducible assumption
    | with_reducible apply setSup_keeps hP
    | with_reducible apply event_keeps hP
    | with_reducible apply out_gated
    | with_reducible apply out_next
    | with_reducible apply ite_OutP

theorem execTripRestore_keeps (temps : List ℤ) (stacks_ : List Nat) (s : State) (hs : P s) : OutP P (execTripRestore temps stacks_ s) := by
  unfold execTripRestore
  repeat' first
    | with_reducible assumption
    | with_reducible apply putStraps_keeps hP
    | (fail_if_no_progress with_reducible refine upd hP ?_ rfl)
    | with_reducible apply out_next
    | with_reducible apply ite_OutP
    | extract_lets
    | split

theorem execVrstCrossing_keeps (domain : Nat) (mv : Nat) (s : State) (hs : P s) : OutP P (execVrstCrossing domain mv s) := by
  unfold execVrstCrossing
  repeat' first
    | with_reducible assumption
    | with_reducible refine hP.warm _ _ _ ?_
    | with_reducible apply out_gated
    | (fail_if_no_progress with_reducible refine upd hP ?_ rfl)
    | with_reducible apply out_next
    | with_reducible apply ite_OutP

theorem execVwarnCrossing_keeps (domain : Nat) (mv : Nat) (s : State) (hs : P s) : OutP P (execVwarnCrossing domain mv s) := by
  unfold execVwarnCrossing
  repeat' first
    | with_reducible assumption
    | with_reducible apply setSup_keeps hP
    | with_reducible apply latch_keeps hP
    | with_reducible apply tick_keeps hP
    | with_reducible apply event_keeps hP
    | with_reducible apply out_gated
    | with_reducible apply out_next
    | with_reducible apply ite_OutP

theorem beginScrub_keeps (s : State) (t : Nat) (hs : P s) : P (State.beginScrub s t) := by
  unfold State.beginScrub
  extract_lets y0 y1 y2 y3 y4 y5 y6 y7 y8 y9 y10 y11
  have hy6 : P y6 := by
    subst y6
    repeat' first
      | with_reducible assumption
      | (fail_if_no_progress with_reducible refine upd hP ?_ rfl)
  have hy7 : P y7 := by
    subst y7
    repeat' first
      | with_reducible assumption
      | with_reducible apply setCap_keeps hP
      | with_reducible apply setHwT_keeps hP
  have hy8 : P y8 := by
    subst y8
    repeat' first
      | with_reducible assumption
      | with_reducible apply setHub_keeps hP
      | with_reducible refine foldl_keeps _ ?_ (fun s x hs => ?_)
  have hy11 : P y11 := by
    subst y11
    repeat' first
      | with_reducible assumption
      | (fail_if_no_progress with_reducible refine upd hP ?_ rfl)
  clear_value y0 y3 y4 y5 y6 y7 y8 y9 y10 y11
  repeat' first
    | with_reducible assumption
    | with_reducible apply clearStore_keeps hP
    | with_reducible apply ite_P

theorem startScrub_keeps (s : State) (t : Nat) (hs : P s) : P (State.startScrub s t) := by
  unfold State.startScrub
  extract_lets y0 y1 y2
  have hy2 : P y2 := by
    subst y2
    repeat' first
      | with_reducible assumption
      | (fail_if_no_progress with_reducible refine upd hP ?_ rfl)
  clear_value y0 y2
  repeat' first
    | with_reducible assumption
    | with_reducible apply beginScrub_keeps hP
    | with_reducible apply ite_P

theorem pprEvent_keeps (s : State) (stack : Nat) (row : Nat) (kind : Nat) (hs : P s) : P (State.pprEvent s stack row kind) := by
  unfold State.pprEvent
  repeat' first
    | with_reducible assumption
    | with_reducible apply event_keeps hP

theorem hardPpr_keeps (s : State) (hs : P s) : P (State.hardPpr s) := by
  unfold State.hardPpr
  repeat' first
    | with_reducible assumption
    | with_reducible apply pprEvent_keeps hP
    | (fail_if_no_progress with_reducible refine upd hP ?_ rfl)
    | with_reducible apply ite_P
    | with_reducible refine foldl_keeps _ ?_ (fun s x hs => ?_)

theorem keyRefused_keeps (s : State) (o : Nat) (cause : Nat) (whom : Nat) (hs : P s) : P (State.keyRefused s o cause whom) := by
  unfold State.keyRefused
  repeat' first
    | with_reducible assumption
    | with_reducible apply event_keeps hP
    | with_reducible apply latch_keeps hP

theorem memOut_keeps (s : State) (reader : Nat) (addr : Nat) (outcome : Nat) (b : List Byte) (hs : P s) : P (State.memOut s reader addr outcome b) := by
  unfold State.memOut
  extract_lets y0
  repeat' first
    | with_reducible assumption
    | (fail_if_no_progress with_reducible refine upd hP ?_ rfl)

theorem rowDue_keeps (s : State) (stack : Nat) (row : Nat) (hs : P s) : P (State.rowDue s stack row) := by
  unfold State.rowDue
  extract_lets y0
  repeat' first
    | with_reducible assumption
    | (fail_if_no_progress with_reducible refine upd hP ?_ rfl)
    | with_reducible apply ite_P

theorem rowCount_keeps (s : State) (stack : Nat) (row : Nat) (corr : Nat) (fails : Nat) (hs : P s) : P (State.rowCount s stack row corr fails) := by
  unfold State.rowCount
  extract_lets y0 y1 y2 y3 y4 y5
  have hy5 : P y5 := by
    subst y5
    repeat' first
      | with_reducible assumption
      | (fail_if_no_progress with_reducible refine upd hP ?_ rfl)
      | with_reducible apply ite_P
  clear_value y0 y1 y2 y3 y5
  repeat' first
    | with_reducible assumption
    | with_reducible apply rowDue_keeps hP
    | with_reducible apply ite_P

theorem readerFailed_keeps (s : State) (reader : Nat) (hub : Nat) (addr : Nat) (who : Nat) (stack : Nat) (hs : P s) : P (State.readerFailed s reader hub addr who stack) := by
  unfold State.readerFailed
  extract_lets y0 y1
  clear_value y0 y1
  repeat' first
    | with_reducible assumption
    | with_reducible apply readFault_keeps hP
    | with_reducible apply bundleFailed_keeps hP
    | with_reducible apply captureReject_keeps hP
    | with_reducible apply coreStop_keeps hP
    | (fail_if_no_progress with_reducible refine upd hP ?_ rfl)
    | with_reducible apply ite_P
    | split

theorem sectorCount_keeps (s : State) (reader : Nat) (addr : Nat) (c : Nat × Nat) (row : Option Nat) (hs : P s) : P (State.sectorCount s reader addr c row) := by
  unfold State.sectorCount
  extract_lets y0 y1 y2 y3 y4 y5
  have hy1 : P y1 := by
    subst y1
    repeat' first
      | with_reducible assumption
      | with_reducible apply tick_keeps hP
  have hy4 : P y4 := by
    subst y4
    repeat' first
      | with_reducible assumption
      | (fail_if_no_progress with_reducible refine upd hP ?_ rfl)
  have hy5 : P y5 := by
    subst y5
    repeat' first
      | with_reducible assumption
      | with_reducible apply event_keeps hP
      | with_reducible apply ite_P
  clear_value y0 y1 y2 y4 y5
  repeat' first
    | with_reducible assumption
    | with_reducible apply countErr_keeps hP
    | with_reducible apply rowCount_keeps hP

theorem sectorFail_keeps (s : State) (reader : Nat) (hub : Nat) (addr : Nat) (who : Nat) (c : Nat × Nat) (row : Option Nat) (hs : P s) : P (State.sectorFail s reader hub addr who c row) := by
  unfold State.sectorFail
  repeat' first
    | with_reducible assumption
    | with_reducible apply readerFailed_keeps hP
    | with_reducible apply sectorCount_keeps hP

theorem readSector_keeps (hM : ClosedMem P) (s : State) (reader : Nat) (hub : Nat) (addr : Nat) (who : Nat) (bad : List Nat) (row : Option Nat) (hs : P s) : SndP P (State.readSector s reader hub addr who bad row) := by
  unfold State.readSector
  split
  · exact snd_mk hs
  · rename_i o _
    extract_lets cs hit src s1 fx
    have h1 : P s1 := upd hP hs rfl
    clear_value cs fx s1
    split
    · extract_lets b
      refine snd_mk (foldl_keeps _ h1 (fun t x ht => ?_))
      exact rowCount_keeps hP _ _ _ _ _ (hM.data _ _ (hP.count _ _ _ _ ht) (fun hw => seal_wf _ _ _ _ hw))
    · split
      · exact snd_mk (sectorFail_keeps hP _ _ _ _ _ _ _ h1)
      · exact snd_mk (readerFailed_keeps hP _ _ _ _ _ _ h1)

theorem rowErrors_keeps (hM : ClosedMem P) (s : State) (stack : Nat) (r : RowReport) (hs : P s) : P (State.rowErrors s stack r) := by
  unfold State.rowErrors
  extract_lets y0
  have hy0 : P y0 := by
    subst y0
    repeat' first
      | with_reducible assumption
      | with_reducible apply rowCount_keeps hP
      | with_reducible refine hP.count _ _ _ _ ?_
  clear_value y0
  repeat' first
    | with_reducible assumption
    | with_reducible refine foldl_keeps _ ?_ (fun s x hs => ?_)
    | extract_lets
    | (with_reducible apply SndP.out; with_reducible apply readSector_keeps hP hM)

theorem startRotation_keeps (s : State) (o : Nat) (hs : P s) : P (State.startRotation s o) := by
  unfold State.startRotation
  extract_lets y0 y1 y2 y3 y4
  clear_value y0 y1 y2 y3
  repeat' first
    | with_reducible assumption
    | with_reducible apply endSweep_keeps hP
    | (fail_if_no_progress with_reducible refine upd hP ?_ rfl)

theorem sweepTick_keeps (s : State) (hs : P s) : P (State.sweepTick s) := by
  unfold State.sweepTick
  extract_lets y0
  repeat' first
    | with_reducible assumption
    | (fail_if_no_progress with_reducible refine upd hP ?_ rfl)
    | with_reducible apply ite_P
    | split

theorem tenancySet_keeps (s : State) (hs : P s) : P (State.tenancySet s) := by
  unfold State.tenancySet
  extract_lets y0 y1 y2
  clear_value y0 y1 y2
  repeat' first
    | with_reducible assumption
    | with_reducible apply event_keeps hP
    | with_reducible apply saveArea_keeps hP
    | (fail_if_no_progress with_reducible refine upd hP ?_ rfl)
    | split

theorem execFetchReadComplete_keeps (hub : Nat) (engine : Nat) (addr : Nat) (ok : Bool) (s : State) (hs : P s) : OutP P (execFetchReadComplete hub engine addr ok s) := by
  unfold execFetchReadComplete
  repeat' first
    | with_reducible assumption
    | with_reducible apply setHub_keeps hP
    | with_reducible apply gotElem_keeps hP
    | with_reducible apply sectorCount_keeps hP
    | with_reducible apply readFault_keeps hP
    | with_reducible apply out_gated
    | with_reducible apply out_next
    | with_reducible apply ite_OutP
    | with_reducible refine foldl_keeps _ ?_ (fun s x hs => ?_)
    | extract_lets
    | split

theorem execHbmErrorPoll_keeps (hM : ClosedMem P) (stack : Nat) (rows : List RowReport) (s : State) (hs : P s) : OutP P (execHbmErrorPoll stack rows s) := by
  unfold execHbmErrorPoll
  repeat' first
    | with_reducible assumption
    | with_reducible apply rowErrors_keeps hP hM
    | with_reducible apply out_gated
    | with_reducible apply out_next
    | with_reducible apply ite_OutP
    | with_reducible refine foldl_keeps _ ?_ (fun s x hs => ?_)

theorem execHbmRefresh_keeps (stack : Nat) (_perBank : Bool) (rfm : Bool) (s : State) (hs : P s) : OutP P (execHbmRefresh stack _perBank rfm s) := by
  unfold execHbmRefresh
  repeat' first
    | with_reducible assumption
    | with_reducible apply tick_keeps hP
    | with_reducible apply out_gated
    | with_reducible apply out_next
    | with_reducible apply ite_P

theorem execHbmRetrain_keeps (_stack : Nat) (_pc : Nat) (s : State) (hs : P s) : OutP P (execHbmRetrain _stack _pc s) := by
  unfold execHbmRetrain
  repeat' first
    | with_reducible assumption
    | with_reducible apply out_gated
    | with_reducible apply out_next

theorem execMemEraseDone_keeps (hM : ClosedMem P) (s : State) (hs : P s) : OutP P (execMemEraseDone s) := by
  unfold execMemEraseDone
  repeat' first
    | with_reducible refine hM.data _ _ ?_ (fun _ => rfl)
    | with_reducible assumption
    | with_reducible apply event_keeps hP
    | with_reducible apply out_gated
    | with_reducible apply out_next
    | with_reducible apply ite_OutP

theorem execMemScrubDone_keeps (hM : ClosedMem P) (tenant : Nat) (s : State) (hs : P s) : OutP P (execMemScrubDone tenant s) := by
  unfold execMemScrubDone
  refine out_gated hs ?_
  split
  · exact out_next hs
  · rename_i t l _
    refine ite_OutP (out_next hs) ?_
    extract_lets out f src m n s1 s2
    have h1 : P s1 := hM.data _ _ hs (fun hw => SMap.filter_wfD _ _ _ hw)
    have h2 : P s2 := event_keeps hP _ _ _ _ _ h1
    clear_value s2
    split
    · exact out_next (tenancySet_keeps hP _ h2)
    · exact out_next (beginScrub_keeps hP _ _ h2)

theorem execRowRepair_keeps (stack : Nat) (row : Nat) (spare : Bool) (s : State) (hs : P s) : OutP P (execRowRepair stack row spare s) := by
  unfold execRowRepair
  repeat' first
    | with_reducible assumption
    | with_reducible apply countErr_keeps hP
    | with_reducible apply pprEvent_keeps hP
    | with_reducible apply out_gated
    | (fail_if_no_progress with_reducible refine upd hP ?_ rfl)
    | with_reducible apply out_next
    | with_reducible apply ite_OutP

theorem execSectorRead_keeps (hM : ClosedMem P) (reader : Nat) (hub : Nat) (addr : Nat) (who : Nat) (badOwn : Bool) (badOther : Bool) (s : State) (hs : P s) : OutP P (execSectorRead reader hub addr who badOwn badOther s) := by
  unfold execSectorRead
  repeat' first
    | with_reducible assumption
    | with_reducible apply memOut_keeps hP
    | with_reducible apply readSector_keeps hP hM
    | with_reducible apply out_gated
    | with_reducible apply out_next
    | with_reducible apply ite_OutP
    | extract_lets
    | (with_reducible apply snd_eq; with_reducible assumption)
    | split

theorem execSectorWrite_keeps (hM : ClosedMem P) (writer : Nat) (hub : Nat) (addr : Nat) (who : Nat) (data : List (Option Byte)) (s : State) (hs : P s) : OutP P (execSectorWrite writer hub addr who data s) := by
  unfold execSectorWrite
  have hput : ∀ (s : State) (o : Nat) (b : List Byte), P s →
      P ((s.copies hub addr).foldl (fun s c => { s with mem := s.mem.seal o c b }) s) := by
    intro s o b h
    exact foldl_keeps _ h (fun t c ht => hM.data _ _ ht (fun hw => seal_wf _ _ _ _ hw))
  refine out_gated hs ?_
  split
  · exact out_next (ite_P (memOut_keeps hP _ _ _ _ _ hs) hs)
  · split
    · exact out_next hs
    · extract_lets put hits
      split
      · exact out_next (hput _ _ _ (upd hP hs rfl))
      · have hr := readSector_keeps hP hM s writer hub addr who [] none hs
        split
        · rename_i e; rw [e] at hr; exact out_next (hput _ _ _ hr.out)
        · rename_i e; rw [e] at hr; exact out_next (memOut_keeps hP _ _ _ _ _ hr.out)

theorem execSweepPageDone_keeps (stack : Nat) (page : Nat) (s : State) (hs : P s) : OutP P (execSweepPageDone stack page s) := by
  unfold execSweepPageDone
  repeat' first
    | with_reducible assumption
    | with_reducible apply endSweep_keeps hP
    | with_reducible apply out_gated
    | (fail_if_no_progress with_reducible refine upd hP ?_ rfl)
    | with_reducible apply out_next
    | with_reducible apply ite_OutP
    | extract_lets
    | split

theorem latchWords_keeps (s : State) (path : Nat) (d : RegDesc) (copy : Nat) (word : Nat) (hs : P s) : P (State.latchWords s path d copy word) := by
  unfold State.latchWords
  extract_lets y0 y1
  clear_value y0 y1
  repeat' first
    | with_reducible assumption
    | (fail_if_no_progress with_reducible refine upd hP ?_ rfl)
    | with_reducible apply ite_P

theorem readWord_keeps (s : State) (path : Nat) (tenant : Nat) (addr : Nat) (hs : P s) : ExcSnd P (State.readWord s path tenant addr) := by
  unfold State.readWord
  extract_lets y0
  clear_value y0
  repeat' first
    | with_reducible assumption
    | with_reducible apply latchWords_keeps hP
    | with_reducible apply excsnd_ok
    | with_reducible apply excsnd_err
    | with_reducible apply ite_ExcSnd
    | extract_lets
    | split

theorem execWord0ReadLatch_keeps (path : Nat) (tenant : Nat) (addr : Nat) (s : State) (hs : P s) : OutP P (execWord0ReadLatch path tenant addr s) := by
  unfold execWord0ReadLatch
  repeat' first
    | with_reducible assumption
    | with_reducible apply readWord_keeps hP
    | with_reducible apply out_next
    | extract_lets
    | (with_reducible apply excsnd_eq; with_reducible assumption)
    | split

theorem noteShort_keeps (old : State) (s : State) (hold : P old) (hs : P s) : P (State.noteShort old s) := by
  unfold State.noteShort
  extract_lets y0 y1
  clear_value y0 y1
  repeat' first
    | with_reducible assumption
    | with_reducible apply event_keeps hP
    | with_reducible apply ite_P

theorem clearCauses_keeps (s : State) (t : Nat) (w1 : Nat) (hs : P s) : P (State.clearCauses s t w1) := by
  unfold State.clearCauses
  extract_lets y0
  clear_value y0
  repeat' first
    | with_reducible assumption
    | with_reducible refine hP.wr _ _ _ _ _ ?_

theorem putPortCfg_keeps (s : State) (p : Nat) (v : Nat) (hs : P s) : P (State.putPortCfg s p v) := by
  unfold State.putPortCfg
  extract_lets y0 y1 y2 y3 y4 y5
  have hy1 : P y1 := by
    subst y1
    repeat' first
      | with_reducible assumption
      | with_reducible refine hP.wr _ _ _ _ _ ?_
  have hy4 : P y4 := by
    subst y4
    repeat' first
      | with_reducible assumption
      | with_reducible apply setPort_keeps hP
  clear_value y0 y1 y2 y3 y4 y5
  repeat' first
    | with_reducible assumption
    | with_reducible apply setPort_keeps hP
    | (fail_if_no_progress with_reducible refine upd hP ?_ rfl)
    | with_reducible apply ite_P

theorem timeWritten_keeps (s : State) (hs : P s) : P (State.timeWritten s) := by
  unfold State.timeWritten
  extract_lets y0 y1 y2 y3 y4 y5
  have hy1 : P y1 := by
    subst y1
    repeat' first
      | with_reducible assumption
      | (fail_if_no_progress with_reducible refine upd hP ?_ rfl)
  have hy5 : P y5 := by
    subst y5
    repeat' first
      | with_reducible assumption
      | (fail_if_no_progress with_reducible refine upd hP ?_ rfl)
  clear_value y0 y1 y2 y3 y4 y5
  repeat' first
    | with_reducible assumption
    | with_reducible apply noteDegraded_keeps hP
    | with_reducible apply rootTakesOver_keeps hP

theorem putQcfg_keeps (s : State) (q : Nat) (v : Nat) (hs : P s) : P (State.putQcfg s q v) := by
  unfold State.putQcfg
  extract_lets y0 y1 y2 y3
  have hy1 : P y1 := by
    subst y1
    repeat' first
      | with_reducible assumption
      | with_reducible refine hP.wr _ _ _ _ _ ?_
  have hy3 : P y3 := by
    subst y3
    repeat' first
      | with_reducible assumption
      | with_reducible apply setQue_keeps hP
  clear_value y0 y1 y2 y3
  repeat' first
    | with_reducible assumption
    | with_reducible apply runQueue_keeps hP
    | with_reducible apply ite_P

theorem putBraidPort_keeps (s : State) (b : Nat) (v : Nat) (hs : P s) : P (State.putBraidPort s b v) := by
  unfold State.putBraidPort
  extract_lets y0 y1 y2 y3 y4 y5 y6 y7
  have hy1 : P y1 := by
    subst y1
    repeat' first
      | with_reducible assumption
      | with_reducible refine hP.wr _ _ _ _ _ ?_
  have hy3 : P y3 := by
    subst y3
    repeat' first
      | with_reducible assumption
      | (fail_if_no_progress with_reducible refine upd hP ?_ rfl)
      | with_reducible apply ite_P
  have hy6 : P y6 := by
    subst y6
    repeat' first
      | with_reducible assumption
      | with_reducible apply brDown_keeps hP
      | with_reducible apply ite_P
  clear_value y0 y1 y2 y3 y4 y5 y6 y7
  repeat' first
    | with_reducible assumption
    | with_reducible apply setBrPort_keeps hP
    | with_reducible apply ite_P

theorem putShare_keeps (s : State) (t : Nat) (v : Nat) (hs : P s) : P (State.putShare s t v) := by
  unfold State.putShare
  extract_lets y0 y1
  have hy1 : P y1 := by
    subst y1
    repeat' first
      | with_reducible assumption
      | with_reducible refine hP.wr _ _ _ _ _ ?_
  clear_value y0 y1
  repeat' first
    | with_reducible assumption
    | with_reducible apply startScrub_keeps hP
    | with_reducible apply ite_P
    | with_reducible refine foldl_keeps _ ?_ (fun s x hs => ?_)

theorem unitCtl_keeps (s : State) (wo : Nat) (hs : P s) : OptP P (State.unitCtl s wo) := by
  unfold State.unitCtl
  extract_lets y0
  clear_value y0
  repeat' first
    | with_reducible assumption
    | with_reducible apply markLasting_keeps hP
    | with_reducible apply beginReinstate_keeps hP
    | with_reducible apply beginReset_keeps hP
    | with_reducible apply opt_some
    | with_reducible apply opt_none
    | with_reducible apply ite_OptP
    | split

theorem putReg_keeps (hM : ClosedMem P) (s : State) (n : RegName) (t : Nat) (i : Nat) (copy : Nat) (v : Nat) (w1 : Nat) (wo : Nat) (hit : Nat) (hs : P s) : OptP P (State.putReg s n t i copy v w1 wo hit) := by
  unfold State.putReg
  extract_lets y0 y1 y2 y3 y4 y5
  have hy2 : P y2 := by
    subst y2
    repeat' first
      | with_reducible assumption
      | with_reducible apply setSem_keeps hP
  have hy3 : P y3 := by
    subst y3
    repeat' first
      | with_reducible assumption
      | with_reducible apply flushQueue_keeps hP
      | with_reducible apply ite_P
  have hy4 : P y4 := by
    subst y4
    repeat' first
      | with_reducible assumption
      | with_reducible apply holdQueue_keeps hP
      | with_reducible apply ite_P
  clear_value y0 y1 y2 y3 y4 y5
  repeat' first
    | with_reducible assumption
    | with_reducible refine hP.wr _ _ _ _ _ ?_
    | with_reducible apply putPortCfg_keeps hP
    | with_reducible apply clearCauses_keeps hP
    | with_reducible apply timeWritten_keeps hP
    | with_reducible apply pinClocks_keeps hP
    | with_reducible apply writeCount_keeps hP
    | with_reducible apply setMask_keeps hP
    | with_reducible apply writeDbarcfg_keeps hP
    | with_reducible apply putQcfg_keeps hP
    | with_reducible apply resumeQueue_keeps hP
    | with_reducible apply putBraidPort_keeps hP
    | with_reducible apply putShare_keeps hP
    | with_reducible apply unitCtl_keeps hP
    | with_reducible apply powerWrite_keeps hP
    | with_reducible refine hM.cold _ _ _ ?_
    | with_reducible refine hP.warm _ _ _ ?_
    | (fail_if_no_progress with_reducible refine upd hP ?_ rfl)
    | with_reducible apply opt_some
    | with_reducible apply opt_none
    | with_reducible apply ite_OptP
    | with_reducible apply ite_P
    | extract_lets
    | split

theorem putWide_keeps (s : State) (n : RegName) (t : Nat) (i : Nat) (copy : Nat) (ws : List Nat) (hs : P s) : OptP P (State.putWide s n t i copy ws) := by
  unfold State.putWide
  extract_lets y0 y1 y2 y3 y4
  subst y1
  subst y0
  try beta_reduce
  repeat' first
    | with_reducible assumption
    | with_reducible refine hP.wr _ _ _ _ _ ?_
    | with_reducible apply rearm_keeps hP
    | with_reducible apply setMask_keeps hP
    | with_reducible apply setCap_keeps hP
    | (fail_if_no_progress with_reducible refine upd hP ?_ rfl)
    | with_reducible apply opt_some
    | with_reducible apply opt_none
    | with_reducible apply ite_OptP
    | with_reducible refine foldl_keeps _ ?_ (fun s x hs => ?_)
    | split

theorem putWord_keeps (s : State) (path : Nat) (d : RegDesc) (t : Nat) (i : Nat) (copy : Nat) (word : Nat) (mask : Nat) (value : Nat) (hs : P s) : OptP P (State.putWord s path d t i copy word mask value) := by
  unfold State.putWord
  split
  · refine opt_some (ite_P (hP.cnts _ _ _ hs) hs)
  · extract_lets ok old v key dflt ws
    split
    · exact opt_some (upd hP hs rfl)
    · exact putWide_keeps hP _ _ _ _ _ _ (upd hP hs rfl)

theorem writeWord_keeps (hM : ClosedMem P) (s : State) (path : Nat) (tenant : Nat) (addr : Nat) (mask : Nat) (value : Nat) (hs : P s) : ExcP P (State.writeWord s path tenant addr mask value) := by
  unfold State.writeWord
  extract_lets y0 y1 y2
  clear_value y0 y1 y2
  repeat' first
    | with_reducible assumption
    | with_reducible apply putReg_keeps hP hM
    | with_reducible apply noteShort_keeps hP
    | with_reducible apply putWord_keeps hP
    | with_reducible apply exc_ok
    | with_reducible apply exc_err
    | with_reducible apply ite_ExcP
    | extract_lets
    | (with_reducible apply opt_eq; with_reducible assumption)
    | split

theorem writeRefused_keeps (s : State) (path : Nat) (tenant : Nat) (addr : Nat) (hs : P s) : P (State.writeRefused s path tenant addr) := by
  unfold State.writeRefused
  repeat' first
    | with_reducible assumption
    | (fail_if_no_progress with_reducible refine upd hP ?_ rfl)
    | with_reducible apply ite_P
    | split

theorem execRegisterWrite_keeps (hM : ClosedMem P) (path : Nat) (tenant : Nat) (addr : Nat) (mask : Nat) (value : Nat) (s : State) (hs : P s) : OutP P (execRegisterWrite path tenant addr mask value s) := by
  unfold execRegisterWrite
  repeat' first
    | with_reducible assumption
    | with_reducible apply writeWord_keeps hP hM
    | with_reducible apply writeRefused_keeps hP
    | (fail_if_no_progress with_reducible refine upd hP ?_ rfl)
    | with_reducible apply out_next
    | extract_lets
    | (with_reducible apply exc_eq; with_reducible assumption)
    | split

end Sys2Proof.Machine
end

