-- ==== Sys2Proof/Laws/ClosedControl.lean ====
section
/-! SUPPORT. What every operation of Headwater: commands, bundles, launches, the boot keeps (`Closed`). -/

namespace Sys2Proof.Machine

variable {P : State → Prop} (hP : Closed P)
include hP

theorem takeCounter_keeps (s : State) (keyId : Nat) (tenant : Nat) (counter : Nat) (hs : P s) : OptP P (State.takeCounter s keyId tenant counter) := by
  unfold State.takeCounter
  extract_lets y0
  clear_value y0
  repeat' first
    | with_reducible assumption
    | with_reducible apply saveArea_keeps hP
    | (fail_if_no_progress with_reducible refine upd hP ?_ rfl)
    | with_reducible apply opt_some
    | with_reducible apply opt_none
    | with_reducible apply ite_OptP
    | with_reducible apply ite_P
    | split

theorem authenticate_keeps (s : State) (keyId : Nat) (alg : Nat) (tenant : Nat) (counter : Nat) (signed : List Byte) (sigs : List Byte) (allowed : KeyEnt → Bool) (hs : P s) : ExcP P (State.authenticate s keyId alg tenant counter signed sigs allowed) := by
  unfold State.authenticate
  repeat' first
    | with_reducible assumption
    | with_reducible apply takeCounter_keeps hP
    | with_reducible apply exc_ok
    | with_reducible apply exc_err
    | with_reducible apply ite_ExcP
    | extract_lets
    | (with_reducible apply opt_eq; with_reducible assumption)
    | split

theorem checkCommand_keeps (s : State) (c : SignedCmd) (hs : P s) : ExcP P (State.checkCommand s c) := by
  unfold State.checkCommand
  repeat' first
    | with_reducible assumption
    | with_reducible apply authenticate_keeps hP
    | with_reducible apply exc_err
    | split

theorem writeCommit_keeps (s : State) (t : Nat) (hs : P s) : P (State.writeCommit s t) := by
  unfold State.writeCommit
  extract_lets y0 y1 y2 y3 y4 y5 y6 y7 y8 y9 y10 y11
  clear_value y0 y1 y2 y3 y4 y5 y6 y7 y8 y9 y10 y11
  repeat' first
    | with_reducible assumption
    | with_reducible apply setHwT_keeps hP

theorem loadDone_keeps (s : State) (t : Nat) (half : Nat) (r : LoadResult) (setId : Nat) (hs : P s) : P (State.loadDone s t half r setId) := by
  unfold State.loadDone
  extract_lets y0 y1
  have hy1 : P y1 := by
    subst y1
    repeat' first
      | with_reducible assumption
      | with_reducible apply setHwT_keeps hP
  clear_value y0 y1
  repeat' first
    | with_reducible assumption
    | with_reducible apply event_keeps hP

theorem placeShadow_keeps (s : State) (t : Nat) (hs : P s) : P (State.placeShadow s t) := by
  unfold State.placeShadow
  extract_lets y0 y1 y2 y3 y4 y5 y6
  have hy5 : P y5 := by
    subst y5
    repeat' first
      | with_reducible assumption
      | with_reducible apply countLoad_keeps hP
  have hy6 : P y6 := by
    subst y6
    repeat' first
      | with_reducible assumption
      | with_reducible apply setHwT_keeps hP
  clear_value y0 y1 y2 y3 y4 y5 y6
  repeat' first
    | with_reducible assumption
    | with_reducible apply loadDone_keeps hP
    | with_reducible apply ite_P

theorem execBundleCheckComplete_keeps (tenant : Nat) (s : State) (hs : P s) : OutP P (execBundleCheckComplete tenant s) := by
  unfold execBundleCheckComplete
  repeat' first
    | with_reducible assumption
    | with_reducible apply setHwT_keeps hP
    | with_reducible apply event_keeps hP
    | with_reducible apply writeCommit_keeps hP
    | with_reducible apply armLoad_keeps hP
    | with_reducible apply loadDone_keeps hP
    | with_reducible apply out_gated
    | with_reducible apply out_next
    | with_reducible apply ite_OutP

theorem execBundleIdleExpiry_keeps (tenant : Nat) (s : State) (hs : P s) : OutP P (execBundleIdleExpiry tenant s) := by
  unfold execBundleIdleExpiry
  repeat' first
    | with_reducible assumption
    | with_reducible apply setHwT_keeps hP
    | with_reducible apply out_gated
    | with_reducible apply out_next
    | with_reducible apply ite_OutP
    | extract_lets
    | split

theorem execLoadPlacementComplete_keeps (tenant : Nat) (s : State) (hs : P s) : OutP P (execLoadPlacementComplete tenant s) := by
  unfold execLoadPlacementComplete
  repeat' first
    | with_reducible assumption
    | with_reducible apply placeShadow_keeps hP
    | with_reducible apply endStreams_keeps hP
    | with_reducible apply out_gated
    | with_reducible apply out_next
    | with_reducible apply ite_OutP

theorem clearLive_keeps (s : State) (t : Nat) (cls : Nat) (gone : List Nat) (hs : P s) : P (State.clearLive s t cls gone) := by
  unfold State.clearLive
  extract_lets y0 y1 y2
  subst y1
  subst y0
  try beta_reduce
  repeat' first
    | with_reducible assumption
    | (fail_if_no_progress with_reducible refine upd hP ?_ rfl)
    | with_reducible apply ite_P

theorem addFields_keeps (s : State) (t : Nat) (old : Option Schema) (new : Option Schema) (hs : P s) : P (State.addFields s t old new) := by
  unfold State.addFields
  repeat' first
    | with_reducible assumption
    | with_reducible apply clearLive_keeps hP
    | with_reducible refine foldl_keeps _ ?_ (fun s x hs => ?_)

theorem makeSwap_keeps (s : State) (l : Launch) (i : SetInst) (hs : P s) : P (State.makeSwap s l i) := by
  unfold State.makeSwap
  extract_lets y0 y1 y2 y3 y4 y5 y6 y7 y8 y9
  have hy7 : P y7 := by
    subst y7
    repeat' first
      | with_reducible assumption
      | with_reducible apply addFields_keeps hP
  have hy8 : P y8 := by
    subst y8
    repeat' first
      | with_reducible assumption
      | with_reducible apply writeCommit_keeps hP
      | with_reducible apply armTasks_keeps hP
      | with_reducible apply setHwT_keeps hP
  have hy9 : P y9 := by
    subst y9
    repeat' first
      | with_reducible assumption
      | with_reducible apply event_keeps hP
  clear_value y0 y1 y2 y3 y4 y5 y6 y7 y8 y9
  repeat' first
    | with_reducible assumption
    | with_reducible apply noteShort_keeps hP

theorem swapAt_keeps (s : State) (l : Launch) (hs : P s) : P (State.swapAt s l) := by
  unfold State.swapAt
  extract_lets y0 y1 y2 y3 y4
  subst y3
  try beta_reduce
  repeat' first
    | with_reducible assumption
    | with_reducible apply writeCommit_keeps hP
    | with_reducible apply setHwT_keeps hP
    | with_reducible apply event_keeps hP
    | with_reducible apply makeSwap_keeps hP
    | with_reducible apply ite_P
    | extract_lets
    | split

theorem closeAt_keeps (s : State) (t : Nat) (epoch : Nat) (hs : P s) : P (State.closeAt s t epoch) := by
  unfold State.closeAt
  repeat' first
    | with_reducible assumption
    | with_reducible apply setFreeze_keeps hP
    | with_reducible apply ite_P

theorem openAt_keeps (s : State) (t : Nat) (epoch : Nat) (hs : P s) : P (State.openAt s t epoch) := by
  unfold State.openAt
  extract_lets y0
  clear_value y0
  repeat' first
    | with_reducible assumption
    | with_reducible apply startStreams_keeps hP
    | with_reducible apply setFreeze_keeps hP
    | with_reducible apply ite_P

theorem commitAt_keeps (s : State) (l : Launch) (hs : P s) : P (State.commitAt s l) := by
  unfold State.commitAt
  extract_lets y0
  clear_value y0
  repeat' first
    | with_reducible assumption
    | with_reducible apply event_keeps hP
    | with_reducible apply journalApplied_keeps hP

theorem replayOpen_keeps (s : State) (l : Launch) (hs : P s) : P (State.replayOpen s l) := by
  unfold State.replayOpen
  extract_lets y0 y1 y2 y3 y4 y5 y6
  have hy3 : P y3 := by
    subst y3
    repeat' first
      | with_reducible assumption
      | with_reducible apply setCap_keeps hP
  have hy4 : P y4 := by
    subst y4
    repeat' first
      | with_reducible assumption
      | with_reducible apply setActive_keeps hP
      | split
  have hy6 : P y6 := by
    subst y6
    repeat' first
      | with_reducible assumption
      | with_reducible apply setHwT_keeps hP
  clear_value y0 y1 y2 y3 y4 y5 y6
  repeat' first
    | with_reducible assumption
    | with_reducible apply event_keeps hP
    | with_reducible apply startStreams_keeps hP

theorem applyLaunch_keeps (s : State) (l : Launch) (hs : P s) : P (State.applyLaunch s l) := by
  unfold State.applyLaunch
  extract_lets y0 y1 y2 y3
  have hy1 : P y1 := by
    subst y1
    repeat' first
      | with_reducible assumption
      | with_reducible apply writeCommit_keeps hP
      | with_reducible apply setHwT_keeps hP
      | with_reducible apply ite_P
  clear_value y0 y1 y2 y3
  repeat' first
    | with_reducible assumption
    | with_reducible apply setHwT_keeps hP
    | with_reducible apply event_keeps hP
    | with_reducible apply swapAt_keeps hP
    | with_reducible apply closeAt_keeps hP
    | with_reducible apply openAt_keeps hP
    | with_reducible apply commitAt_keeps hP
    | with_reducible apply replayOpen_keeps hP
    | with_reducible apply setCap_keeps hP
    | with_reducible apply ite_P
    | extract_lets
    | split

theorem seatUnits_keeps (s : State) (d : Nat) (full : Bool) (hs : P s) : P (State.seatUnits s d full) := by
  unfold State.seatUnits
  extract_lets y0
  have hy0 : P y0 := by
    subst y0
    repeat' first
      | with_reducible assumption
      | with_reducible apply setMu_keeps hP
      | with_reducible apply ite_P
      | with_reducible refine foldl_keeps _ ?_ (fun s x hs => ?_)
  clear_value y0
  repeat' first
    | with_reducible assumption
    | with_reducible apply setMu_keeps hP
    | with_reducible apply ite_P
    | with_reducible refine foldl_keeps _ ?_ (fun s x hs => ?_)
    | extract_lets
    | split

theorem seatTiles_keeps (s : State) (d : Nat) (full : Bool) (hs : P s) : P (State.seatTiles s d full) := by
  unfold State.seatTiles
  extract_lets y0
  have hy0 : P y0 := by
    subst y0
    repeat' first
      | with_reducible assumption
      | with_reducible apply setTile_keeps hP
      | with_reducible apply ite_P
      | with_reducible refine foldl_keeps _ ?_ (fun s x hs => ?_)
  clear_value y0
  repeat' first
    | with_reducible assumption
    | with_reducible apply setTile_keeps hP
    | with_reducible apply ite_P
    | with_reducible refine foldl_keeps _ ?_ (fun s x hs => ?_)
    | extract_lets
    | split

theorem placeActive_keeps (s : State) (t : Nat) (i : SetInst) (hs : P s) : P (State.placeActive s t i) := by
  unfold State.placeActive
  extract_lets y0 y1
  have hy0 : P y0 := by
    subst y0
    repeat' first
      | with_reducible assumption
      | with_reducible apply seatUnits_keeps hP
      | with_reducible apply seatTiles_keeps hP
      | with_reducible refine foldl_keeps _ ?_ (fun s x hs => ?_)
  clear_value y0 y1
  repeat' first
    | with_reducible assumption
    | with_reducible apply armTasks_keeps hP
    | with_reducible apply setHwT_keeps hP

theorem changeSchema_keeps (s : State) (t : Nat) (old : Option Schema) (new : Option Schema) (hs : P s) : P (State.changeSchema s t old new) := by
  unfold State.changeSchema
  extract_lets y0 y1
  clear_value y0 y1
  repeat' first
    | with_reducible assumption
    | with_reducible apply clearStore_keeps hP
    | with_reducible apply clearLive_keeps hP
    | with_reducible apply ite_P
    | with_reducible refine foldl_keeps _ ?_ (fun s x hs => ?_)
    | extract_lets
    | split

theorem drainReopen_keeps (s : State) (t : Nat) (hs : P s) : P (State.drainReopen s t) := by
  unfold State.drainReopen
  extract_lets y0
  clear_value y0
  repeat' first
    | with_reducible assumption
    | with_reducible apply openAt_keeps hP
    | with_reducible apply writeCommit_keeps hP
    | with_reducible apply setHwT_keeps hP
    | with_reducible apply event_keeps hP
    | with_reducible apply ite_P
    | split

theorem drainPlacement_keeps (s : State) (t : Nat) (hs : P s) : P (State.drainPlacement s t) := by
  unfold State.drainPlacement
  extract_lets y0 y1 y2 y3
  have hy2 : P y2 := by
    subst y2
    repeat' first
      | with_reducible assumption
      | with_reducible apply changeSchema_keeps hP
      | with_reducible apply retireTasks_keeps hP
      | split
  clear_value y0 y1 y2 y3
  repeat' first
    | with_reducible assumption
    | with_reducible apply armLoad_keeps hP
    | with_reducible apply writeCommit_keeps hP
    | with_reducible apply setHwT_keeps hP
    | split

theorem mirrorRefresh_keeps (s : State) (hs : P s) : P (State.mirrorRefresh s) := by
  unfold State.mirrorRefresh
  extract_lets y0 y1 y2 y3 y4 y5 y6
  have hy4 : P y4 := by
    subst y4
    repeat' first
      | with_reducible assumption
      | with_reducible apply event_keeps hP
      | with_reducible apply latch_keeps hP
      | with_reducible refine foldl_keeps _ ?_ (fun s x hs => ?_)
  clear_value y0 y1 y2 y3 y4 y5 y6
  repeat' first
    | with_reducible assumption
    | (fail_if_no_progress with_reducible refine upd hP ?_ rfl)

theorem startEpoch_keeps (s : State) (hs : P s) : P (State.startEpoch s) := by
  unfold State.startEpoch
  extract_lets y0 y1 y2 y3 y4 y5 y6 y7 y8 y9 y10
  have hy5 : P y5 := by
    subst y5
    repeat' first
      | with_reducible assumption
      | (fail_if_no_progress with_reducible refine upd hP ?_ rfl)
  have hy8 : P y8 := by
    subst y8
    repeat' first
      | with_reducible assumption
      | (fail_if_no_progress with_reducible refine upd hP ?_ rfl)
  have hy9 : P y9 := by
    subst y9
    repeat' first
      | with_reducible assumption
      | with_reducible apply applyLaunch_keeps hP
      | with_reducible refine foldl_keeps _ ?_ (fun s x hs => ?_)
  have hy10 : P y10 := by
    subst y10
    repeat' first
      | with_reducible assumption
      | with_reducible apply drainReopen_keeps hP
      | with_reducible refine foldl_keeps _ ?_ (fun s x hs => ?_)
  clear_value y0 y1 y2 y3 y4 y5 y6 y7 y8 y9 y10
  repeat' first
    | with_reducible assumption
    | with_reducible apply mirrorRefresh_keeps hP

theorem execDrainDone_keeps (tenant : Nat) (s : State) (hs : P s) : OutP P (execDrainDone tenant s) := by
  unfold execDrainDone
  repeat' first
    | with_reducible assumption
    | with_reducible apply drainDone_keeps hP
    | with_reducible apply drainPlacement_keeps hP
    | with_reducible apply out_gated
    | with_reducible apply out_next
    | with_reducible apply ite_OutP
    | with_reducible apply ite_P

theorem execDrainSwapPlacementComplete_keeps (tenant : Nat) (s : State) (hs : P s) : OutP P (execDrainSwapPlacementComplete tenant s) := by
  unfold execDrainSwapPlacementComplete
  repeat' first
    | with_reducible assumption
    | with_reducible apply setHwT_keeps hP
    | with_reducible apply loadDone_keeps hP
    | with_reducible apply writeCommit_keeps hP
    | with_reducible apply countLoad_keeps hP
    | with_reducible apply placeActive_keeps hP
    | with_reducible apply event_keeps hP
    | with_reducible apply noteShort_keeps hP
    | with_reducible apply noteDegraded_keeps hP
    | with_reducible apply drainReopen_keeps hP
    | with_reducible apply endStreams_keeps hP
    | with_reducible apply out_gated
    | with_reducible apply out_next
    | with_reducible apply ite_OutP
    | with_reducible apply ite_P
    | extract_lets
    | split

theorem execEpochStart_keeps (s : State) (hs : P s) : OutP P (execEpochStart s) := by
  unfold execEpochStart
  repeat' first
    | with_reducible assumption
    | with_reducible apply startEpoch_keeps hP
    | with_reducible apply out_gated
    | with_reducible apply out_next
    | with_reducible apply ite_OutP

theorem execOldHalfRelease_keeps (tenant : Nat) (s : State) (hs : P s) : OutP P (execOldHalfRelease tenant s) := by
  unfold execOldHalfRelease
  repeat' first
    | with_reducible assumption
    | with_reducible apply retireTasks_keeps hP
    | with_reducible apply writeCommit_keeps hP
    | with_reducible apply setHwT_keeps hP
    | with_reducible apply event_keeps hP
    | with_reducible apply out_gated
    | with_reducible apply out_next
    | with_reducible apply ite_OutP
    | extract_lets
    | split

theorem mgmtPop_keeps (s : State) (b : Nat) (hs : P s) : P (State.mgmtPop s b) := by
  unfold State.mgmtPop
  extract_lets y0
  clear_value y0
  repeat' first
    | with_reducible assumption
    | (fail_if_no_progress with_reducible refine upd hP ?_ rfl)

theorem mgmtSend_keeps (s : State) (b : Nat) (m : List Byte) (hs : P s) : P (State.mgmtSend s b m) := by
  unfold State.mgmtSend
  extract_lets y0
  clear_value y0
  repeat' first
    | with_reducible assumption
    | (fail_if_no_progress with_reducible refine upd hP ?_ rfl)

theorem takeSignedCmd_keeps (s : State) (b : Nat) (m : List Byte) (hs : P s) : FstP P (State.takeSignedCmd s b m) := by
  unfold State.takeSignedCmd
  extract_lets y0
  clear_value y0
  repeat' first
    | with_reducible assumption
    | with_reducible apply checkCommand_keeps hP
    | (fail_if_no_progress with_reducible refine upd hP ?_ rfl)
    | with_reducible apply ite_FstP
    | extract_lets
    | (with_reducible apply exc_eq; with_reducible assumption)
    | split
    | with_reducible apply fst_mk

theorem mgmtServe_keeps (s : State) (b : Nat) (a2 : Nat) (hs : P s) : P (State.mgmtServe s b a2) := by
  induction a2 generalizing s with
  | zero =>
    unfold State.mgmtServe
    repeat' first
      | with_reducible assumption
  | succ n ih =>
    unfold State.mgmtServe
    repeat' first
      | (with_reducible refine ih _ ?_)
      | with_reducible assumption
      | with_reducible apply mgmtPop_keeps hP
      | with_reducible apply mgmtSend_keeps hP
      | with_reducible apply ite_P
      | extract_lets
      | (with_reducible apply FstP.out; with_reducible apply takeSignedCmd_keeps hP)
      | split

theorem mgmtDone_keeps (s : State) (b : Nat) (hs : P s) : P (State.mgmtDone s b) := by
  unfold State.mgmtDone
  repeat' first
    | with_reducible assumption
    | with_reducible apply mgmtServe_keeps hP
    | with_reducible apply mgmtPop_keeps hP

theorem serveMsg_keeps (s : State) (b : Nat) (ask : Nat × Nat × Nat) (f : List Byte → State → State × List Byte) (hs : P s) (hf : ∀ x0 x1, P x1 → FstP P (f x0 x1)) : OutP P (State.serveMsg s b ask f) := by
  unfold State.serveMsg
  split
  · exact out_next hs
  · split
    · exact out_next hs
    · exact out_next (mgmtDone_keeps hP _ _ (mgmtSend_keeps hP _ _ _ (hf _ _ hs).out))

theorem CmdRes_no_keeps (s : State) (d0 : Nat) (d1 : Nat) (hs : P s) : CmdP P (CmdRes.no s d0 d1) := by
  unfold CmdRes.no
  repeat' first
    | with_reducible assumption
    | with_reducible apply cmd_mk

theorem ack_keeps (s : State) (r : Rec) (code : Nat) (cause : Nat) (detail : Nat) (data : List Byte) (hs : P s) : P (State.ack s r code cause detail data) := by
  unfold State.ack
  extract_lets y0 y1
  clear_value y0 y1
  repeat' first
    | with_reducible assumption
    | with_reducible apply answer_keeps hP
    | with_reducible apply ite_P

theorem ackMore_keeps (s : State) (r : Rec) (data : List Byte) (hs : P s) : P (State.ackMore s r data) := by
  unfold State.ackMore
  extract_lets y0 y1 y2
  have hy0 : P y0 := by
    subst y0
    repeat' first
      | with_reducible assumption
      | with_reducible apply ack_keeps hP
  clear_value y0 y1 y2
  repeat' first
    | with_reducible assumption
    | with_reducible apply setCap_keeps hP
    | with_reducible apply ite_P

theorem addLaunch_keeps (s : State) (l : Launch) (commit : Bool) (hs : P s) : P (State.addLaunch s l commit) := by
  unfold State.addLaunch
  extract_lets y0 y1
  have hy1 : P y1 := by
    subst y1
    repeat' first
      | with_reducible assumption
      | (fail_if_no_progress with_reducible refine upd hP ?_ rfl)
  clear_value y0 y1
  repeat' first
    | with_reducible assumption
    | with_reducible apply writeCommit_keeps hP
    | with_reducible apply ite_P

theorem editWrites_keeps (s : State) (i : SetInst) (table : Nat) (p : Nat) (a4 : List EditEntry) (a5 : Nat) (hs : P s) : ExcFst P (State.editWrites s i table p a4 a5) := by
  induction a4 generalizing s i a5 with
  | nil =>
    unfold State.editWrites
    repeat' first
      | with_reducible assumption
      | with_reducible apply excfst_ok
  | cons e es ih =>
    unfold State.editWrites
    repeat' first
      | (with_reducible refine ih _ _ _ ?_)
      | (with_reducible refine (writePart_keeps hP _ _ _ _ _ ?_).out)
      | with_reducible assumption
      | with_reducible apply excfst_err
      | with_reducible apply ite_ExcFst

theorem missLaunch_keeps (s : State) (c : SignedCmd) (hs : P s) : P (State.missLaunch s c) := by
  unfold State.missLaunch
  extract_lets y0
  clear_value y0
  repeat' first
    | with_reducible assumption
    | with_reducible apply applyLaunch_keeps hP
    | (fail_if_no_progress with_reducible refine upd hP ?_ rfl)
    | with_reducible apply ite_P
    | split

theorem endCmd_keeps (c : HwCmd) (r : CmdRes) (hr : CmdP P r) : P (State.endCmd c r) := by
  have hr : P r.st := hr.out
  unfold State.endCmd
  extract_lets s done t u m
  repeat' first
    | with_reducible assumption
    | with_reducible apply mgmtDone_keeps hP
    | with_reducible apply mgmtSend_keeps hP
    | with_reducible apply missLaunch_keeps hP
    | with_reducible apply ack_keeps hP
    | with_reducible apply ackMore_keeps hP
    | with_reducible apply mcastGive_keeps hP
    | with_reducible apply ite_P
    | with_reducible refine foldl_keeps _ ?_ (fun s x hs => ?_)
    | extract_lets
    | (with_reducible apply FstP.out; with_reducible apply mcastOpen_keeps hP)
    | split

theorem importDone_keeps (s : State) (x : ImportSt) (hs : P s) : P (State.importDone s x) := by
  unfold State.importDone
  extract_lets y0 y1 y2
  clear_value y0 y1 y2
  repeat' first
    | with_reducible assumption
    | with_reducible apply event_keeps hP
    | (fail_if_no_progress with_reducible refine upd hP ?_ rfl)
    | with_reducible apply ite_P

theorem journalAppend_keeps (s : State) (l : Launch) (hs : P s) : OptP P (State.journalAppend s l) := by
  unfold State.journalAppend
  extract_lets h x j
  split
  · exact opt_none
  · exact opt_some (setHwT_keeps hP _ _ _ hs)

theorem readWords_keeps (s : State) (path : Nat) (tenant : Nat) (addr : Nat) (a4 : Nat) (a5 : Nat) (a6 : List Byte) (hs : P s) : ExcSnd P (State.readWords s path tenant addr a4 a5 a6) := by
  induction a4 generalizing s a5 a6 with
  | zero => unfold State.readWords; exact excsnd_ok hs
  | succ n ih =>
    unfold State.readWords
    split
    · exact excsnd_err
    · rename_i e; exact ih _ _ _ ((readWord_keeps hP _ _ _ _ hs).out _ e)

theorem runCmd_keeps (s : State) (cmd : Nat) (f : HwCmd → State → CmdRes) (hs : P s) (hf : ∀ x0 x1, P x1 → CmdP P (f x0 x1)) : OutP P (State.runCmd s cmd f) := by
  unfold State.runCmd
  extract_lets y0
  clear_value y0
  repeat' first
    | with_reducible assumption
    | with_reducible apply endCmd_keeps hP
    | with_reducible apply CmdRes_no_keeps hP
    | with_reducible apply hf
    | (fail_if_no_progress with_reducible refine upd hP ?_ rfl)
    | with_reducible apply out_next
    | with_reducible apply ite_OutP
    | with_reducible apply ite_CmdP
    | split

theorem transferDone_keeps (s : State) (t : Nat) (x : Transfer) (hs : P s) : P (State.transferDone s t x) := by
  unfold State.transferDone
  extract_lets y0 y1 y2 y3 y4
  clear_value y0 y1 y2 y3 y4
  repeat' first
    | with_reducible assumption
    | with_reducible apply writeCommit_keeps hP
    | with_reducible apply setHwT_keeps hP

theorem takeChunk_keeps (s : State) (r : Rec) (hs : P s) : P (State.takeChunk s r) := by
  unfold State.takeChunk
  extract_lets p t id k n h say g m y src x
  have hsay : ∀ s d0 d1 d2, P s → P (say s d0 d1 d2) := fun s _ _ _ h => ack_keeps hP _ _ _ _ _ _ h
  have hm : FstP P m := ite_FstP (mcastOpen_keeps hP _ _ _ _ _ hs) (fst_mk hs)
  clear_value m
  have hx : ExcSnd P x := by
    subst x
    split
    · exact ite_ExcSnd (excsnd_ok hs) excsnd_err
    · split
      · exact excsnd_err
      · exact excsnd_ok (setHwT_keeps hP _ _ _ (endStreams_keeps hP _ _ _ hm.out))
  clear_value say x
  refine ite_P (hsay _ _ _ _ hs) ?_
  split
  · exact hsay _ _ _ _ hs
  · rename_i x1 s1
    have h1 : P s1 := hx.out _ rfl
    extract_lets y0 y1 y2 y3 e y4
    have h3 : P y3 := ite_P (mcastGive_keeps hP _ _ _ h1) h1
    clear_value y3
    exact hsay _ _ _ _ (ite_P (transferDone_keeps hP _ _ _ h3) (setHwT_keeps hP _ _ _ h3))

theorem takeCommand_keeps (s : State) (r : Rec) (segs : List Rec) (hs : P s) : P (State.takeCommand s r segs) := by
  unfold State.takeCommand
  extract_lets y0 y1 y2
  subst y2
  try beta_reduce
  repeat' first
    | with_reducible assumption
    | with_reducible apply missLaunch_keeps hP
    | with_reducible apply ack_keeps hP
    | with_reducible apply checkCommand_keeps hP
    | (fail_if_no_progress with_reducible refine upd hP ?_ rfl)
    | with_reducible apply ite_P
    | extract_lets
    | (with_reducible apply exc_eq; with_reducible assumption)
    | split

theorem takeHead_keeps (s : State) (cls : Nat) (hs : P s) : OptSnd P (State.takeHead s cls) := by
  unfold State.takeHead
  extract_lets y0
  clear_value y0
  repeat' first
    | with_reducible assumption
    | with_reducible apply mcastTaken_keeps hP
    | (fail_if_no_progress with_reducible refine upd hP ?_ rfl)
    | with_reducible apply optsnd_some
    | with_reducible apply optsnd_none
    | with_reducible apply ite_P
    | split

theorem takeSegment_keeps (s : State) (r : Rec) (hs : P s) : P (State.takeSegment s r) := by
  unfold State.takeSegment
  extract_lets y0 y1 y2 y3 y4 y5 y6
  subst y6
  subst y4
  try beta_reduce
  repeat' first
    | with_reducible assumption
    | with_reducible apply ack_keeps hP
    | with_reducible apply takeCommand_keeps hP
    | (fail_if_no_progress with_reducible refine upd hP ?_ rfl)
    | with_reducible apply ite_P
    | extract_lets
    | split

theorem execCapCommit_keeps (s : State) (hs : P s) : OutP P (execCapCommit s) := by
  unfold execCapCommit
  repeat' first
    | with_reducible assumption
    | with_reducible refine runCmd_keeps hP _ _ _ ?_ (fun x0 x1 hx1 => ?_)
    | with_reducible apply CmdRes_no_keeps hP
    | with_reducible apply journalAppend_keeps hP
    | with_reducible apply setActive_keeps hP
    | with_reducible apply addLaunch_keeps hP
    | with_reducible apply out_gated
    | with_reducible apply ite_CmdP
    | extract_lets
    | (with_reducible apply opt_eq; with_reducible assumption)
    | split
    | with_reducible apply cmd_mk

theorem execCaptureGapEntry_keeps (tenant : Nat) (s : State) (hs : P s) : OutP P (execCaptureGapEntry tenant s) := by
  unfold execCaptureGapEntry
  repeat' first
    | with_reducible assumption
    | with_reducible apply out_gated
    | with_reducible apply out_next
    | with_reducible apply ite_OutP
    | with_reducible apply ite_P
    | extract_lets
    | (with_reducible apply FstP.out; with_reducible apply gapEntry_keeps hP)

theorem execCaptureRead_keeps (s : State) (hs : P s) : OutP P (execCaptureRead s) := by
  unfold execCaptureRead
  repeat' first
    | with_reducible assumption
    | with_reducible refine runCmd_keeps hP _ _ _ ?_ (fun x0 x1 hx1 => ?_)
    | with_reducible apply CmdRes_no_keeps hP
    | with_reducible apply out_gated
    | with_reducible apply ite_CmdP
    | extract_lets
    | with_reducible apply cmd_mk

theorem execControlSegment_keeps (s : State) (hs : P s) : OutP P (execControlSegment s) := by
  unfold execControlSegment
  repeat' first
    | with_reducible assumption
    | with_reducible apply takeHead_keeps hP
    | with_reducible apply takeSegment_keeps hP
    | with_reducible apply out_gated
    | with_reducible apply out_next
    | extract_lets
    | (with_reducible apply optsnd_eq; with_reducible assumption)
    | split

theorem execDiscardShadow_keeps (s : State) (hs : P s) : OutP P (execDiscardShadow s) := by
  unfold execDiscardShadow
  repeat' first
    | with_reducible assumption
    | with_reducible refine runCmd_keeps hP _ _ _ ?_ (fun x0 x1 hx1 => ?_)
    | with_reducible apply CmdRes_no_keeps hP
    | with_reducible apply setHwT_keeps hP
    | with_reducible apply endStreams_keeps hP
    | with_reducible apply out_gated
    | with_reducible apply ite_CmdP
    | extract_lets
    | split
    | with_reducible apply cmd_mk

theorem launchCmd_keeps (kind : Nat) (args : List Byte → Option (Nat × Nat)) (own : State → SignedCmd → Option (Nat × Nat)) (accept : State → SignedCmd → State) (c : HwCmd) (s : State) (haccept : ∀ x0 x1, P x0 → P (accept x0 x1)) (hs : P s) : CmdP P (launchCmd kind args own accept c s) := by
  unfold launchCmd
  repeat' first
    | with_reducible assumption
    | with_reducible apply CmdRes_no_keeps hP
    | with_reducible apply haccept
    | split
    | with_reducible apply cmd_mk

theorem execDrainSwap_keeps (s : State) (hs : P s) : OutP P (execDrainSwap s) := by
  unfold execDrainSwap
  repeat' first
    | with_reducible assumption
    | with_reducible refine runCmd_keeps hP _ _ _ ?_ (fun x0 x1 hx1 => ?_)
    | with_reducible refine launchCmd_keeps hP _ _ _ _ _ _ (fun x0 x1 hx0 => ?_) ?_
    | with_reducible apply addLaunch_keeps hP
    | with_reducible apply out_gated

theorem execEddyExportDone_keeps (tenant : Nat) (s : State) (hs : P s) : OutP P (execEddyExportDone tenant s) := by
  unfold execEddyExportDone
  repeat' first
    | with_reducible assumption
    | with_reducible apply event_keeps hP
    | with_reducible apply endStreams_keeps hP
    | with_reducible apply out_gated
    | (fail_if_no_progress with_reducible refine upd hP ?_ rfl)
    | with_reducible apply out_next
    | extract_lets
    | split

theorem execExportStore_keeps (s : State) (hs : P s) : OutP P (execExportStore s) := by
  unfold execExportStore
  repeat' first
    | with_reducible assumption
    | with_reducible refine runCmd_keeps hP _ _ _ ?_ (fun x0 x1 hx1 => ?_)
    | with_reducible apply CmdRes_no_keeps hP
    | with_reducible apply armExport_keeps hP
    | with_reducible apply out_gated
    | (fail_if_no_progress with_reducible refine upd hP ?_ rfl)
    | with_reducible apply ite_CmdP
    | extract_lets
    | split
    | with_reducible apply cmd_mk

theorem execFreeze_keeps (s : State) (hs : P s) : OutP P (execFreeze s) := by
  unfold execFreeze
  repeat' first
    | with_reducible assumption
    | with_reducible refine runCmd_keeps hP _ _ _ ?_ (fun x0 x1 hx1 => ?_)
    | with_reducible refine launchCmd_keeps hP _ _ _ _ _ _ (fun x0 x1 hx0 => ?_) ?_
    | with_reducible apply addLaunch_keeps hP
    | with_reducible apply out_gated

theorem execImportBegin_keeps (s : State) (hs : P s) : OutP P (execImportBegin s) := by
  unfold execImportBegin
  repeat' first
    | with_reducible assumption
    | with_reducible refine runCmd_keeps hP _ _ _ ?_ (fun x0 x1 hx1 => ?_)
    | with_reducible apply CmdRes_no_keeps hP
    | with_reducible apply importDone_keeps hP
    | with_reducible apply clearStore_keeps hP
    | with_reducible apply out_gated
    | with_reducible apply ite_CmdP
    | extract_lets
    | split
    | with_reducible apply cmd_mk

theorem execImportChunk_keeps (s : State) (hs : P s) : OutP P (execImportChunk s) := by
  unfold execImportChunk
  repeat' first
    | with_reducible assumption
    | with_reducible refine runCmd_keeps hP _ _ _ ?_ (fun x0 x1 hx1 => ?_)
    | with_reducible apply CmdRes_no_keeps hP
    | with_reducible apply importDone_keeps hP
    | with_reducible apply out_gated
    | (fail_if_no_progress with_reducible refine upd hP ?_ rfl)
    | with_reducible apply ite_CmdP
    | extract_lets
    | split
    | with_reducible apply cmd_mk

theorem execModelChunk_keeps (s : State) (hs : P s) : OutP P (execModelChunk s) := by
  unfold execModelChunk
  repeat' first
    | with_reducible assumption
    | with_reducible apply takeHead_keeps hP
    | with_reducible apply takeChunk_keeps hP
    | with_reducible apply out_gated
    | with_reducible apply out_next
    | extract_lets
    | (with_reducible apply optsnd_eq; with_reducible assumption)
    | split

theorem execReadReg_keeps (s : State) (hs : P s) : OutP P (execReadReg s) := by
  unfold execReadReg
  repeat' first
    | with_reducible assumption
    | with_reducible refine runCmd_keeps hP _ _ _ ?_ (fun x0 x1 hx1 => ?_)
    | with_reducible apply CmdRes_no_keeps hP
    | with_reducible apply readWords_keeps hP
    | with_reducible apply out_gated
    | with_reducible apply ite_CmdP
    | extract_lets
    | (with_reducible apply excsnd_eq; with_reducible assumption)
    | split
    | with_reducible apply cmd_mk

theorem execReplayDone_keeps (tenant : Nat) (s : State) (hs : P s) : OutP P (execReplayDone tenant s) := by
  unfold execReplayDone
  repeat' first
    | with_reducible assumption
    | with_reducible apply setCap_keeps hP
    | with_reducible apply event_keeps hP
    | with_reducible apply out_gated
    | with_reducible apply out_next
    | with_reducible apply ite_OutP
    | extract_lets
    | split

theorem execReplayEnd_keeps (s : State) (hs : P s) : OutP P (execReplayEnd s) := by
  unfold execReplayEnd
  repeat' first
    | with_reducible assumption
    | with_reducible refine runCmd_keeps hP _ _ _ ?_ (fun x0 x1 hx1 => ?_)
    | with_reducible refine launchCmd_keeps hP _ _ _ _ _ _ (fun x0 x1 hx0 => ?_) ?_
    | with_reducible apply addLaunch_keeps hP
    | with_reducible apply out_gated

theorem execReplayStart_keeps (s : State) (hs : P s) : OutP P (execReplayStart s) := by
  unfold execReplayStart
  repeat' first
    | with_reducible assumption
    | with_reducible refine runCmd_keeps hP _ _ _ ?_ (fun x0 x1 hx1 => ?_)
    | with_reducible refine launchCmd_keeps hP _ _ _ _ _ _ (fun x0 x1 hx0 => ?_) ?_
    | with_reducible apply addLaunch_keeps hP
    | with_reducible apply out_gated

theorem execResume_keeps (s : State) (hs : P s) : OutP P (execResume s) := by
  unfold execResume
  repeat' first
    | with_reducible assumption
    | with_reducible refine runCmd_keeps hP _ _ _ ?_ (fun x0 x1 hx1 => ?_)
    | with_reducible refine launchCmd_keeps hP _ _ _ _ _ _ (fun x0 x1 hx0 => ?_) ?_
    | with_reducible apply addLaunch_keeps hP
    | with_reducible apply out_gated

theorem execRuleEdit_keeps (s : State) (hs : P s) : OutP P (execRuleEdit s) := by
  unfold execRuleEdit
  repeat' first
    | with_reducible assumption
    | with_reducible refine runCmd_keeps hP _ _ _ ?_ (fun x0 x1 hx1 => ?_)
    | with_reducible apply CmdRes_no_keeps hP
    | with_reducible apply editWrites_keeps hP
    | with_reducible apply journalAppend_keeps hP
    | with_reducible apply setActive_keeps hP
    | with_reducible apply addLaunch_keeps hP
    | with_reducible apply out_gated
    | with_reducible apply ite_CmdP
    | extract_lets
    | with_reducible refine opt_getD ?_ ?_
    | (with_reducible apply excfst_eq; with_reducible assumption)
    | split
    | with_reducible apply cmd_mk

theorem execSegmentTimeout_keeps (tenant : Nat) (port : Nat) (tag : Nat) (s : State) (hs : P s) : OutP P (execSegmentTimeout tenant port tag s) := by
  unfold execSegmentTimeout
  repeat' first
    | with_reducible assumption
    | with_reducible apply out_gated
    | (fail_if_no_progress with_reducible refine upd hP ?_ rfl)
    | with_reducible apply out_next

theorem execSwap_keeps (s : State) (hs : P s) : OutP P (execSwap s) := by
  unfold execSwap
  repeat' first
    | with_reducible assumption
    | with_reducible refine runCmd_keeps hP _ _ _ ?_ (fun x0 x1 hx1 => ?_)
    | with_reducible refine launchCmd_keeps hP _ _ _ _ _ _ (fun x0 x1 hx0 => ?_) ?_
    | with_reducible apply addLaunch_keeps hP
    | with_reducible apply out_gated

theorem execWriteReg_keeps (hM : ClosedMem P) (s : State) (hs : P s) : OutP P (execWriteReg s) := by
  unfold execWriteReg
  repeat' first
    | with_reducible assumption
    | with_reducible refine runCmd_keeps hP _ _ _ ?_ (fun x0 x1 hx1 => ?_)
    | with_reducible apply CmdRes_no_keeps hP
    | with_reducible apply writeRefused_keeps hP
    | with_reducible apply writeWord_keeps hP hM
    | with_reducible apply out_gated
    | with_reducible apply ite_CmdP
    | extract_lets
    | (with_reducible apply exc_eq; with_reducible assumption)
    | split
    | with_reducible apply cmd_mk

theorem bootEvents_keeps (s : State) (hs : P s) : P (State.bootEvents s) := by
  unfold State.bootEvents
  extract_lets y0 y1 y2 y3 y4
  have hy2 : P y2 := by
    subst y2
    repeat' first
      | with_reducible assumption
      | (fail_if_no_progress with_reducible refine upd hP ?_ rfl)
  have hy4 : P y4 := by
    subst y4
    repeat' first
      | with_reducible assumption
      | with_reducible apply event_keeps hP
  clear_value y0 y1 y2 y3 y4
  repeat' first
    | with_reducible assumption
    | with_reducible apply event_keeps hP
    | with_reducible refine foldl_keeps _ ?_ (fun s x hs => ?_)

theorem journalEntry_keeps (s : State) (i : SetInst) (e : JournalEnt) (hs : P s) : FstP P (State.journalEntry s i e) := by
  unfold State.journalEntry
  extract_lets y0 y1 y2 y3 y4 y5 y6 y7 y8 y9
  have hy3 : FstP P y3 := by
    subst y3
    repeat' first
      | with_reducible assumption
      | with_reducible apply writePart_keeps hP
      | with_reducible refine foldlf_keeps _ ?_ (fun s x hs => ?_)
      | extract_lets
      | with_reducible exact FstP.out ‹_›
      | with_reducible apply fst_mk
  have hy7 : FstP P y7 := by
    subst y7
    repeat' first
      | with_reducible apply writePart_keeps hP
      | with_reducible refine foldlf_keeps _ ?_ (fun s x hs => ?_)
      | extract_lets
      | with_reducible exact FstP.out ‹_›
      | with_reducible apply fst_mk
  clear_value y0 y1 y2 y3 y4 y5 y6 y7 y8 y9
  repeat' first
    | with_reducible assumption
    | with_reducible apply ite_FstP
    | extract_lets
    | with_reducible exact FstP.out ‹_›
    | with_reducible apply fst_mk

theorem journalReplay_keeps (s : State) (i : SetInst) (j : List JournalEnt) (hs : P s) : FstP P (State.journalReplay s i j) := by
  unfold State.journalReplay
  repeat' first
    | with_reducible assumption
    | with_reducible apply journalEntry_keeps hP
    | with_reducible refine foldlf_keeps _ ?_ (fun s x hs => ?_)
    | extract_lets
    | with_reducible exact FstP.out ‹_›
    | with_reducible apply fst_mk

theorem bootPlace_keeps (s : State) (t : Nat) (hs : P s) : P (State.bootPlace s t) := by
  unfold State.bootPlace
  extract_lets y0 y1 y2 y3
  clear_value y0 y1 y2 y3
  repeat' first
    | with_reducible assumption
    | with_reducible apply event_keeps hP
    | with_reducible apply setHwT_keeps hP
    | with_reducible apply loadDone_keeps hP
    | with_reducible apply countLoad_keeps hP
    | with_reducible apply placeActive_keeps hP
    | (fail_if_no_progress with_reducible refine upd hP ?_ rfl)
    | extract_lets
    | (with_reducible apply FstP.out; with_reducible apply journalReplay_keeps hP)
    | split

theorem bootStop_keeps (s : State) (hs : P s) : P (State.bootStop s) := by
  unfold State.bootStop
  extract_lets y0
  clear_value y0
  repeat' first
    | with_reducible assumption
    | (fail_if_no_progress with_reducible refine upd hP ?_ rfl)

theorem coldLoad_keeps (s : State) (t : Nat) (hs : P s) : P (State.coldLoad s t) := by
  unfold State.coldLoad
  extract_lets y0
  clear_value y0
  repeat' first
    | with_reducible assumption
    | with_reducible apply bootPlace_keeps hP
    | with_reducible apply setHwT_keeps hP
    | with_reducible apply writeCommit_keeps hP
    | with_reducible apply ite_P
    | split

theorem configRecord_keeps (hM : ClosedMem P) (s : State) (r : List Byte) (hs : P s) : OptP P (State.configRecord s r) := by
  unfold State.configRecord
  repeat' first
    | with_reducible assumption
    | with_reducible apply writeWord_keeps hP hM
    | with_reducible apply opt_some
    | with_reducible apply opt_none
    | with_reducible apply ite_OptP
    | extract_lets
    | (with_reducible apply exc_eq; with_reducible assumption)
    | split

theorem configApply_keeps (hM : ClosedMem P) (s : State) (b : List Byte) (hs : P s) : OptP P (State.configApply s b) := by
  unfold State.configApply
  have key : ∀ (l : List Nat) (o : Option State), OptP P o →
      OptP P (l.foldl (fun r i => r.bind (fun s => s.configRecord (slice b (16 * i) 16))) o) := by
    intro l
    induction l with
    | nil => intro o h; exact h
    | cons x l ih =>
      intro o h
      refine ih _ ?_
      cases o with
      | none => exact opt_none
      | some t => exact configRecord_keeps hP hM _ _ (h.out t rfl)
  exact key _ _ (opt_some hs)

theorem imageInvalid_keeps (s : State) (hs : P s) : P (State.imageInvalid s) := by
  unfold State.imageInvalid
  extract_lets y0
  clear_value y0
  repeat' first
    | with_reducible assumption
    | with_reducible apply bootStop_keeps hP
    | (fail_if_no_progress with_reducible refine upd hP ?_ rfl)
    | with_reducible apply ite_P

theorem toStep_keeps (s : State) (n : Nat) (hs : P s) : P (State.toStep s n) := by
  unfold State.toStep
  extract_lets y0
  clear_value y0
  repeat' first
    | with_reducible assumption
    | (fail_if_no_progress with_reducible refine upd hP ?_ rfl)

theorem configBoot_keeps (hM : ClosedMem P) (s : State) (hs : P s) : P (State.configBoot s) := by
  unfold State.configBoot
  repeat' first
    | with_reducible assumption
    | with_reducible apply configApply_keeps hP hM
    | with_reducible apply imageInvalid_keeps hP
    | with_reducible apply setFreeze_keeps hP
    | with_reducible apply toStep_keeps hP
    | (fail_if_no_progress with_reducible refine upd hP ?_ rfl)
    | with_reducible refine foldl_keeps _ ?_ (fun s x hs => ?_)
    | extract_lets
    | (with_reducible apply opt_eq; with_reducible assumption)
    | split

theorem drainAgain_keeps (s : State) (l : Launch) (hs : P s) : P (State.drainAgain s l) := by
  unfold State.drainAgain
  extract_lets y0 y1
  have hy1 : P y1 := by
    subst y1
    repeat' first
      | with_reducible assumption
      | with_reducible apply setHwT_keeps hP
  clear_value y0 y1
  repeat' first
    | with_reducible assumption
    | with_reducible apply setFreeze_keeps hP

theorem drainEnded_keeps (s : State) (l : Launch) (hs : P s) : P (State.drainEnded s l) := by
  unfold State.drainEnded
  extract_lets y0 y1 y2
  have hy0 : P y0 := by
    subst y0
    repeat' first
      | with_reducible assumption
      | with_reducible apply drainAgain_keeps hP
  have hy2 : P y2 := by
    subst y2
    repeat' first
      | with_reducible assumption
      | with_reducible apply setHwT_keeps hP
  clear_value y0 y1 y2
  repeat' first
    | with_reducible assumption
    | with_reducible apply writeCommit_keeps hP
    | with_reducible apply drainReopen_keeps hP

theorem imageChoice_keeps (s : State) (hs : P s) : P (State.imageChoice s) := by
  unfold State.imageChoice
  extract_lets y0 y1 y2 y3 y4
  have hy4 : P y4 := by
    subst y4
    repeat' first
      | with_reducible assumption
      | (fail_if_no_progress with_reducible refine upd hP ?_ rfl)
      | with_reducible apply ite_P
  subst y1
  subst y0
  try beta_reduce
  repeat' first
    | with_reducible assumption
    | with_reducible apply toStep_keeps hP
    | with_reducible apply imageInvalid_keeps hP
    | with_reducible apply ite_P

theorem loadArea_keeps (s : State) (bad : List Nat) (hs : P s) : P (State.loadArea s bad) := by
  unfold State.loadArea
  extract_lets y0 y1 y2 y3 y4
  clear_value y0 y1 y2 y3 y4
  repeat' first
    | with_reducible assumption
    | (fail_if_no_progress with_reducible refine upd hP ?_ rfl)
    | split

theorem trainStacks_keeps (s : State) (hs : P s) : P (State.trainStacks s) := by
  unfold State.trainStacks
  extract_lets y0
  repeat' first
    | with_reducible assumption
    | (fail_if_no_progress with_reducible refine upd hP ?_ rfl)

theorem memoryBoot_keeps (s : State) (b : BootIn) (hs : P s) : P (State.memoryBoot s b) := by
  unfold State.memoryBoot
  extract_lets y0 y1 y2 y3
  have hy1 : P y1 := by
    subst y1
    repeat' first
      | with_reducible assumption
      | with_reducible apply hardPpr_keeps hP
  have hy2 : P y2 := by
    subst y2
    repeat' first
      | with_reducible assumption
      | with_reducible apply trainStacks_keeps hP
  have hy3 : P y3 := by
    subst y3
    repeat' first
      | with_reducible assumption
      | with_reducible apply markLasting_keeps hP
      | with_reducible apply ite_P
      | with_reducible refine foldl_keeps _ ?_ (fun s x hs => ?_)
  clear_value y0 y1 y2 y3
  repeat' first
    | with_reducible assumption
    | with_reducible apply bootStop_keeps hP
    | with_reducible apply markLasting_keeps hP
    | with_reducible apply toStep_keeps hP
    | with_reducible apply ite_P

theorem seedDrbg_keeps (s : State) (hs : P s) : P (State.seedDrbg s) := by
  unfold State.seedDrbg
  extract_lets y0 y1 y2
  have hy0 : SndP P y0 := by
    subst y0
    repeat' first
      | with_reducible assumption
      | with_reducible apply freshWord_keeps hP
  have hy1 : P y1 := by
    subst y1
    repeat' first
      | with_reducible exact SndP.out ‹_›
  clear_value y0 y1 y2
  repeat' first
    | with_reducible assumption
    | (fail_if_no_progress with_reducible refine upd hP ?_ rfl)
    | with_reducible apply ite_P

theorem selfTestBoot_keeps (s : State) (b : BootIn) (hs : P s) : P (State.selfTestBoot s b) := by
  unfold State.selfTestBoot
  extract_lets y0 y1 y2
  have hy1 : P y1 := by
    subst y1
    repeat' first
      | with_reducible assumption
      | with_reducible apply seedDrbg_keeps hP
      | with_reducible apply loadArea_keeps hP
      | with_reducible apply ite_P
  clear_value y0 y1 y2
  repeat' first
    | with_reducible assumption
    | with_reducible apply bootStop_keeps hP
    | with_reducible apply toStep_keeps hP
    | (fail_if_no_progress with_reducible refine upd hP ?_ rfl)
    | split

theorem warmLoad_keeps (s : State) (t : Nat) (hs : P s) : P (State.warmLoad s t) := by
  unfold State.warmLoad
  extract_lets y0 y1 y2 y3 y4 y5 y6 y7 y8 y9 y10 y11 y12 y13 y14 y15 y16 y17 y18 y19 y20 y21 y22
  have hy9 : FstP P y9 := by
    subst y9
    repeat' first
      | with_reducible assumption
      | extract_lets
      | (with_reducible apply FstP.out; with_reducible apply journalReplay_keeps hP)
      | split
      | with_reducible apply fst_mk
  have hy11 : P y11 := by
    subst y11
    repeat' first
      | with_reducible apply setHwT_keeps hP
      | extract_lets
      | with_reducible exact FstP.out ‹_›
  have hy12 : P y12 := by
    subst y12
    repeat' first
      | with_reducible assumption
      | with_reducible apply setHwT_keeps hP
      | with_reducible apply ite_P
  have hy16 : P y16 := by
    subst y16
    repeat' first
      | with_reducible assumption
      | with_reducible apply setHwT_keeps hP
  have hy17 : P y17 := by
    subst y17
    repeat' first
      | with_reducible assumption
      | with_reducible apply bootPlace_keeps hP
      | with_reducible apply ite_P
  have hy18 : P y18 := by
    subst y18
    repeat' first
      | with_reducible assumption
      | with_reducible apply event_keeps hP
      | with_reducible apply ite_P
  have hy19 : P y19 := by
    subst y19
    repeat' first
      | with_reducible assumption
      | with_reducible apply setHwT_keeps hP
      | with_reducible apply ite_P
  have hy21 : P y21 := by
    subst y21
    repeat' first
      | with_reducible assumption
      | with_reducible apply setHwT_keeps hP
      | with_reducible apply event_keeps hP
      | (fail_if_no_progress with_reducible refine upd hP ?_ rfl)
      | with_reducible apply ite_P
  subst y3
  try beta_reduce
  repeat' first
    | with_reducible assumption
    | with_reducible apply armLoad_keeps hP
    | with_reducible apply writeCommit_keeps hP
    | with_reducible apply drainAgain_keeps hP
    | with_reducible apply drainPlacement_keeps hP
    | with_reducible apply drainEnded_keeps hP
    | (fail_if_no_progress with_reducible refine upd hP ?_ rfl)
    | with_reducible apply ite_P

theorem setsBoot_keeps (s : State) (hs : P s) : P (State.setsBoot s) := by
  unfold State.setsBoot
  extract_lets y0
  have hy0 : P y0 := by
    subst y0
    repeat' first
      | with_reducible assumption
      | with_reducible apply warmLoad_keeps hP
      | with_reducible apply coldLoad_keeps hP
      | with_reducible apply toStep_keeps hP
      | with_reducible apply ite_P
      | with_reducible refine foldl_keeps _ ?_ (fun s x hs => ?_)
  clear_value y0
  repeat' first
    | with_reducible assumption
    | with_reducible apply noteShort_keeps hP
    | with_reducible apply noteDegraded_keeps hP
    | with_reducible apply bootEvents_keeps hP

theorem execBootStepComplete_keeps (hM : ClosedMem P) (b : BootIn) (s : State) (hs : P s) : OutP P (execBootStepComplete b s) := by
  unfold execBootStepComplete
  repeat' first
    | with_reducible assumption
    | with_reducible apply toStep_keeps hP
    | with_reducible apply selfTestBoot_keeps hP
    | with_reducible apply imageChoice_keeps hP
    | with_reducible apply imageInvalid_keeps hP
    | with_reducible apply memoryBoot_keeps hP
    | with_reducible apply configBoot_keeps hP hM
    | with_reducible apply setsBoot_keeps hP
    | with_reducible apply out_gated
    | (fail_if_no_progress with_reducible refine upd hP ?_ rfl)
    | with_reducible apply out_next
    | with_reducible apply ite_OutP
    | with_reducible apply ite_P
    | extract_lets
    | split

end Sys2Proof.Machine
end

