-- ==== Sys2Proof/Laws/ClosedMgmt.lean ====
section
/-! SUPPORT. What every operation of the security module, the management controller, the pins, the ticks and Tributary keeps (`Closed`). -/

namespace Sys2Proof.Machine

variable {P : State → Prop} (hP : Closed P)
include hP

theorem newKemPair_keeps (s : State) (hs : P s) : P (State.newKemPair s) := by
  unfold State.newKemPair
  extract_lets y0 y1 y2
  clear_value y0 y1 y2
  repeat' first
    | with_reducible assumption
    | (fail_if_no_progress with_reducible refine upd hP ?_ rfl)

theorem nonce_keeps (s : State) (hs : P s) : SndP P (State.nonce s) := by
  unfold State.nonce
  extract_lets y0
  clear_value y0
  repeat' first
    | with_reducible assumption
    | (fail_if_no_progress with_reducible refine upd hP ?_ rfl)
    | with_reducible apply snd_mk

theorem releaseViews_keeps (s : State) (t : Nat) (hs : P s) : P (State.releaseViews s t) := by
  unfold State.releaseViews
  extract_lets y0 y1
  have hy0 : P y0 := by
    subst y0
    repeat' first
      | with_reducible assumption
      | with_reducible apply setHub_keeps hP
      | with_reducible refine foldl_keeps _ ?_ (fun s x hs => ?_)
  clear_value y0 y1
  repeat' first
    | with_reducible assumption
    | with_reducible apply setHwT_keeps hP

theorem SvcRes_no_keeps (s : State) (status : Nat) (b1 : Nat) (hs : P s) : SvcP P (SvcRes.no s status b1) := by
  unfold SvcRes.no
  repeat' first
    | with_reducible assumption
    | with_reducible apply svc_mk

theorem service_keeps (s : State) (b : Nat) (code : Nat) (role : Option (SignedCmd → KeyEnt → Bool)) (f : SignedCmd → State → SvcRes) (hs : P s) (hf : ∀ x0 x1, P x1 → SvcP P (f x0 x1)) : OutP P (State.service s b code role f) := by
  unfold State.service
  refine serveMsg_keeps hP _ _ _ _ hs (fun m s h => ?_)
  extract_lets c r
  refine fst_mk (SvcP.out ?_)
  subst r
  refine ite_SvcP ⟨h⟩ ?_
  split
  · split
    · exact ⟨h⟩
    · exact hf _ _ h
  · split
    · exact ⟨h⟩
    · rename_i e
      have ht := (authenticate_keeps hP _ _ _ _ _ _ _ _ h).out _ e
      split
      · exact ⟨ht⟩
      · exact hf _ _ ht

theorem spdmWith_keeps (s : State) (b : Nat) (code : Nat) (f : List Byte → State → State × List Byte) (hs : P s) (hf : ∀ x0 x1, P x1 → FstP P (f x0 x1)) : OutP P (State.spdmWith s b code f) := by
  unfold State.spdmWith
  repeat' first
    | with_reducible assumption
    | with_reducible refine serveMsg_keeps hP _ _ _ _ ?_ (fun x0 x1 hx1 => ?_)
    | with_reducible apply hf
    | extract_lets
    | split
    | with_reducible apply fst_mk

theorem spdm_keeps (s : State) (b : Nat) (code : Nat) (f : List Byte → List Byte) (hs : P s) : OutP P (State.spdm s b code f) := by
  unfold State.spdm
  repeat' first
    | with_reducible assumption
    | with_reducible refine spdmWith_keeps hP _ _ _ _ ?_ (fun x0 x1 hx1 => ?_)
    | extract_lets
    | with_reducible apply fst_mk

theorem execChallenge_keeps (binding : Nat) (s : State) (hs : P s) : OutP P (execChallenge binding s) := by
  unfold execChallenge
  repeat' first
    | with_reducible assumption
    | with_reducible refine spdmWith_keeps hP _ _ _ _ ?_ (fun x0 x1 hx1 => ?_)
    | extract_lets
    | (with_reducible apply SndP.out; with_reducible apply nonce_keeps hP)
    | split
    | with_reducible apply fst_mk

theorem execDeleteExportKey_keeps (binding : Nat) (s : State) (hs : P s) : OutP P (execDeleteExportKey binding s) := by
  unfold execDeleteExportKey
  repeat' first
    | with_reducible assumption
    | with_reducible refine service_keeps hP _ _ _ _ _ ?_ (fun x0 x1 hx1 => ?_)
    | with_reducible apply SvcRes_no_keeps hP
    | (fail_if_no_progress with_reducible refine upd hP ?_ rfl)
    | with_reducible apply ite_SvcP
    | extract_lets
    | (clear_value *; split)
    | with_reducible apply svc_mk

theorem execEnrolKey_keeps (binding : Nat) (s : State) (hs : P s) : OutP P (execEnrolKey binding s) := by
  unfold execEnrolKey
  repeat' first
    | with_reducible assumption
    | with_reducible refine service_keeps hP _ _ _ _ _ ?_ (fun x0 x1 hx1 => ?_)
    | with_reducible apply SvcRes_no_keeps hP
    | with_reducible apply saveArea_keeps hP
    | with_reducible apply event_keeps hP
    | (fail_if_no_progress with_reducible refine upd hP ?_ rfl)
    | with_reducible apply ite_SvcP
    | extract_lets
    | split
    | with_reducible apply svc_mk

theorem execGetCapabilities_keeps (binding : Nat) (s : State) (hs : P s) : OutP P (execGetCapabilities binding s) := by
  unfold execGetCapabilities
  repeat' first
    | with_reducible assumption
    | with_reducible apply spdm_keeps hP

theorem execGetCertificate_keeps (binding : Nat) (s : State) (hs : P s) : OutP P (execGetCertificate binding s) := by
  unfold execGetCertificate
  repeat' first
    | with_reducible assumption
    | with_reducible apply spdm_keeps hP

theorem execGetDigests_keeps (binding : Nat) (s : State) (hs : P s) : OutP P (execGetDigests binding s) := by
  unfold execGetDigests
  repeat' first
    | with_reducible assumption
    | with_reducible apply spdm_keeps hP

theorem execGetMeasurements_keeps (binding : Nat) (s : State) (hs : P s) : OutP P (execGetMeasurements binding s) := by
  unfold execGetMeasurements
  repeat' first
    | with_reducible assumption
    | with_reducible refine spdmWith_keeps hP _ _ _ _ ?_ (fun x0 x1 hx1 => ?_)
    | extract_lets
    | (with_reducible apply SndP.out; with_reducible apply nonce_keeps hP)
    | split
    | with_reducible apply fst_mk

theorem execGetVersion_keeps (binding : Nat) (s : State) (hs : P s) : OutP P (execGetVersion binding s) := by
  unfold execGetVersion
  repeat' first
    | with_reducible assumption
    | with_reducible apply spdm_keeps hP

theorem execKemPublic_keeps (binding : Nat) (s : State) (hs : P s) : OutP P (execKemPublic binding s) := by
  unfold execKemPublic
  repeat' first
    | with_reducible assumption
    | with_reducible refine service_keeps hP _ _ _ _ _ ?_ (fun x0 x1 hx1 => ?_)
    | with_reducible apply SvcRes_no_keeps hP
    | extract_lets
    | split
    | with_reducible apply svc_mk

theorem execLoadExportKey_keeps (binding : Nat) (s : State) (hs : P s) : OutP P (execLoadExportKey binding s) := by
  unfold execLoadExportKey
  repeat' first
    | with_reducible assumption
    | with_reducible refine service_keeps hP _ _ _ _ _ ?_ (fun x0 x1 hx1 => ?_)
    | with_reducible apply SvcRes_no_keeps hP
    | with_reducible apply newKemPair_keeps hP
    | (fail_if_no_progress with_reducible refine upd hP ?_ rfl)
    | with_reducible apply ite_SvcP
    | extract_lets
    | split
    | with_reducible apply svc_mk

theorem execLoadMacsecCak_keeps (binding : Nat) (s : State) (hs : P s) : OutP P (execLoadMacsecCak binding s) := by
  unfold execLoadMacsecCak
  repeat' first
    | with_reducible assumption
    | with_reducible refine service_keeps hP _ _ _ _ _ ?_ (fun x0 x1 hx1 => ?_)
    | with_reducible apply SvcRes_no_keeps hP
    | with_reducible apply newKemPair_keeps hP
    | (fail_if_no_progress with_reducible refine upd hP ?_ rfl)
    | extract_lets
    | split
    | (clear_value *; split)
    | with_reducible apply svc_mk

theorem execNegotiateAlgorithms_keeps (binding : Nat) (s : State) (hs : P s) : OutP P (execNegotiateAlgorithms binding s) := by
  unfold execNegotiateAlgorithms
  repeat' first
    | with_reducible assumption
    | with_reducible apply spdm_keeps hP

theorem execRaiseMinVersion_keeps (binding : Nat) (s : State) (hs : P s) : OutP P (execRaiseMinVersion binding s) := by
  unfold execRaiseMinVersion
  repeat' first
    | with_reducible assumption
    | with_reducible refine service_keeps hP _ _ _ _ _ ?_ (fun x0 x1 hx1 => ?_)
    | with_reducible apply SvcRes_no_keeps hP
    | with_reducible apply event_keeps hP
    | (fail_if_no_progress with_reducible refine upd hP ?_ rfl)
    | with_reducible apply ite_SvcP
    | extract_lets
    | split
    | with_reducible apply svc_mk

theorem execReleaseTenant_keeps (binding : Nat) (s : State) (hs : P s) : OutP P (execReleaseTenant binding s) := by
  unfold execReleaseTenant
  repeat' first
    | with_reducible assumption
    | with_reducible refine service_keeps hP _ _ _ _ _ ?_ (fun x0 x1 hx1 => ?_)
    | with_reducible apply SvcRes_no_keeps hP
    | with_reducible apply startScrub_keeps hP
    | with_reducible apply releaseViews_keeps hP
    | (fail_if_no_progress with_reducible refine upd hP ?_ rfl)
    | with_reducible apply ite_SvcP
    | extract_lets
    | split
    | with_reducible apply svc_mk

theorem execRevokeKey_keeps (binding : Nat) (s : State) (hs : P s) : OutP P (execRevokeKey binding s) := by
  unfold execRevokeKey
  repeat' first
    | with_reducible assumption
    | with_reducible refine service_keeps hP _ _ _ _ _ ?_ (fun x0 x1 hx1 => ?_)
    | with_reducible apply SvcRes_no_keeps hP
    | with_reducible apply saveArea_keeps hP
    | with_reducible apply event_keeps hP
    | (fail_if_no_progress with_reducible refine upd hP ?_ rfl)
    | extract_lets
    | split
    | with_reducible apply svc_mk

theorem execRotateMemKey_keeps (binding : Nat) (s : State) (hs : P s) : OutP P (execRotateMemKey binding s) := by
  unfold execRotateMemKey
  repeat' first
    | with_reducible assumption
    | with_reducible refine service_keeps hP _ _ _ _ _ ?_ (fun x0 x1 hx1 => ?_)
    | with_reducible apply SvcRes_no_keeps hP
    | with_reducible apply keyRefused_keeps hP
    | with_reducible apply startRotation_keeps hP
    | extract_lets
    | split
    | with_reducible apply svc_mk

theorem execSelfTest_keeps (binding : Nat) (failed : Option Nat) (s : State) (hs : P s) : OutP P (execSelfTest binding failed s) := by
  unfold execSelfTest
  split
  · exact out_next hs
  · refine ite_OutP (out_next hs) (ite_OutP ?_ (ite_OutP ?_ ?_))
    · extract_lets src r
      have hr : SvcP P r := by
        subst r
        split
        · exact svc_mk (upd hP hs rfl)
        · exact ⟨upd hP hs rfl⟩
      exact out_next (mgmtDone_keeps hP _ _ (mgmtSend_keeps hP _ _ _ hr.out))
    · exact out_next (mgmtDone_keeps hP _ _ (mgmtSend_keeps hP _ _ _ hs))
    · extract_lets c
      split
      · exact out_next (mgmtDone_keeps hP _ _ (mgmtSend_keeps hP _ _ _ hs))
      · exact out_next (upd hP hs rfl)

theorem execSetOwner_keeps (binding : Nat) (s : State) (hs : P s) : OutP P (execSetOwner binding s) := by
  unfold execSetOwner
  repeat' first
    | with_reducible assumption
    | with_reducible refine service_keeps hP _ _ _ _ _ ?_ (fun x0 x1 hx1 => ?_)
    | with_reducible apply SvcRes_no_keeps hP
    | with_reducible apply saveArea_keeps hP
    | (fail_if_no_progress with_reducible refine upd hP ?_ rfl)
    | with_reducible apply ite_SvcP
    | extract_lets
    | split
    | with_reducible apply svc_mk

theorem execSetSigPolicy_keeps (binding : Nat) (s : State) (hs : P s) : OutP P (execSetSigPolicy binding s) := by
  unfold execSetSigPolicy
  repeat' first
    | with_reducible assumption
    | with_reducible refine service_keeps hP _ _ _ _ _ ?_ (fun x0 x1 hx1 => ?_)
    | with_reducible apply SvcRes_no_keeps hP
    | with_reducible apply saveArea_keeps hP
    | (fail_if_no_progress with_reducible refine upd hP ?_ rfl)
    | extract_lets
    | split
    | with_reducible apply svc_mk

theorem execSetTenancy_keeps (binding : Nat) (s : State) (hs : P s) : OutP P (execSetTenancy binding s) := by
  unfold execSetTenancy
  repeat' first
    | with_reducible assumption
    | with_reducible refine service_keeps hP _ _ _ _ _ ?_ (fun x0 x1 hx1 => ?_)
    | with_reducible apply SvcRes_no_keeps hP
    | with_reducible apply startScrub_keeps hP
    | (fail_if_no_progress with_reducible refine upd hP ?_ rfl)
    | with_reducible apply ite_SvcP
    | with_reducible refine foldl_keeps _ ?_ (fun s x hs => ?_)
    | extract_lets
    | split
    | with_reducible apply svc_mk

theorem execShowStatus_keeps (binding : Nat) (s : State) (hs : P s) : OutP P (execShowStatus binding s) := by
  unfold execShowStatus
  repeat' first
    | with_reducible assumption
    | with_reducible refine service_keeps hP _ _ _ _ _ ?_ (fun x0 x1 hx1 => ?_)
    | with_reducible apply SvcRes_no_keeps hP
    | extract_lets
    | split
    | with_reducible apply svc_mk

theorem execZeroise_keeps (hM : ClosedMem P) (binding : Nat) (s : State) (hs : P s) : OutP P (execZeroise binding s) := by
  unfold execZeroise
  repeat' first
    | with_reducible assumption
    | with_reducible refine service_keeps hP _ _ _ _ _ ?_ (fun x0 x1 hx1 => ?_)
    | with_reducible apply SvcRes_no_keeps hP
    | with_reducible refine hM.cold _ _ _ ?_
    | (fail_if_no_progress with_reducible refine upd hP ?_ rfl)
    | extract_lets
    | split
    | with_reducible apply svc_mk

theorem setFwup_keeps (s : State) (f : FwupSt) (hs : P s) : P (State.setFwup s f) := by
  unfold State.setFwup
  extract_lets y0
  clear_value y0
  repeat' first
    | with_reducible assumption
    | (fail_if_no_progress with_reducible refine upd hP ?_ rfl)

theorem takeMessage_keeps (s : State) (b : Nat) (dest : Nat) (m : List Byte) (hs : P s) : P (State.takeMessage s b dest m) := by
  unfold State.takeMessage
  extract_lets y0 y1 y2
  clear_value y0 y1 y2
  repeat' first
    | with_reducible assumption
    | with_reducible apply mgmtSend_keeps hP
    | with_reducible apply mgmtServe_keeps hP
    | (fail_if_no_progress with_reducible refine upd hP ?_ rfl)
    | with_reducible apply ite_P

theorem execActivateFirmware_keeps (binding : Nat) (s : State) (hs : P s) : OutP P (execActivateFirmware binding s) := by
  unfold execActivateFirmware
  repeat' first
    | with_reducible assumption
    | with_reducible refine serveMsg_keeps hP _ _ _ _ ?_ (fun x0 x1 hx1 => ?_)
    | with_reducible apply setFwup_keeps hP
    | with_reducible apply event_keeps hP
    | extract_lets
    | split
    | with_reducible apply fst_mk

theorem execApplyComplete_keeps (binding : Nat) (s : State) (hs : P s) : OutP P (execApplyComplete binding s) := by
  unfold execApplyComplete
  extract_lets y0 y1
  clear_value y0 y1
  repeat' first
    | with_reducible assumption
    | with_reducible apply setFwup_keeps hP
    | with_reducible apply mgmtSend_keeps hP
    | with_reducible apply out_next
    | with_reducible apply ite_OutP

theorem execCancelUpdate_keeps (binding : Nat) (s : State) (hs : P s) : OutP P (execCancelUpdate binding s) := by
  unfold execCancelUpdate
  repeat' first
    | with_reducible assumption
    | with_reducible refine serveMsg_keeps hP _ _ _ _ ?_ (fun x0 x1 hx1 => ?_)
    | with_reducible apply fwupFail_keeps hP
    | extract_lets
    | split
    | with_reducible apply fst_mk

theorem execDynamicAddressAssignment_keeps (addr : Nat) (s : State) (hs : P s) : OutP P (execDynamicAddressAssignment addr s) := by
  unfold execDynamicAddressAssignment
  repeat' first
    | with_reducible assumption
    | (fail_if_no_progress with_reducible refine upd hP ?_ rfl)
    | with_reducible apply out_next
    | with_reducible apply ite_OutP

theorem execGaugeSample_keeps (die : Nat) (temps : List (Option ℤ)) (s : State) (hs : P s) : OutP P (execGaugeSample die temps s) := by
  unfold execGaugeSample
  repeat' first
    | with_reducible assumption
    | with_reducible refine hP.count _ _ _ _ ?_
    | (fail_if_no_progress with_reducible refine upd hP ?_ rfl)
    | with_reducible apply out_next
    | with_reducible apply ite_OutP

theorem execGetEndpointId_keeps (binding : Nat) (s : State) (hs : P s) : OutP P (execGetEndpointId binding s) := by
  unfold execGetEndpointId
  repeat' first
    | with_reducible assumption
    | with_reducible refine serveMsg_keeps hP _ _ _ _ ?_ (fun x0 x1 hx1 => ?_)
    | extract_lets
    | with_reducible apply fst_mk

theorem execGetEndpointUuid_keeps (binding : Nat) (s : State) (hs : P s) : OutP P (execGetEndpointUuid binding s) := by
  unfold execGetEndpointUuid
  repeat' first
    | with_reducible assumption
    | with_reducible refine serveMsg_keeps hP _ _ _ _ ?_ (fun x0 x1 hx1 => ?_)
    | extract_lets
    | with_reducible apply fst_mk

theorem execGetFirmwareParameters_keeps (binding : Nat) (s : State) (hs : P s) : OutP P (execGetFirmwareParameters binding s) := by
  unfold execGetFirmwareParameters
  repeat' first
    | with_reducible assumption
    | with_reducible refine serveMsg_keeps hP _ _ _ _ ?_ (fun x0 x1 hx1 => ?_)
    | extract_lets
    | with_reducible apply fst_mk

theorem execGetMctpVersionSupport_keeps (binding : Nat) (s : State) (hs : P s) : OutP P (execGetMctpVersionSupport binding s) := by
  unfold execGetMctpVersionSupport
  repeat' first
    | with_reducible assumption
    | with_reducible refine serveMsg_keeps hP _ _ _ _ ?_ (fun x0 x1 hx1 => ?_)
    | extract_lets
    | with_reducible apply fst_mk

theorem execGetMessageTypeSupport_keeps (binding : Nat) (s : State) (hs : P s) : OutP P (execGetMessageTypeSupport binding s) := by
  unfold execGetMessageTypeSupport
  repeat' first
    | with_reducible assumption
    | with_reducible refine serveMsg_keeps hP _ _ _ _ ?_ (fun x0 x1 hx1 => ?_)
    | extract_lets
    | with_reducible apply fst_mk

theorem execGetPdr_keeps (binding : Nat) (s : State) (hs : P s) : OutP P (execGetPdr binding s) := by
  unfold execGetPdr
  repeat' first
    | with_reducible assumption
    | with_reducible refine serveMsg_keeps hP _ _ _ _ ?_ (fun x0 x1 hx1 => ?_)
    | extract_lets
    | with_reducible apply fst_mk

theorem execGetPdrRepositoryInfo_keeps (binding : Nat) (s : State) (hs : P s) : OutP P (execGetPdrRepositoryInfo binding s) := by
  unfold execGetPdrRepositoryInfo
  repeat' first
    | with_reducible assumption
    | with_reducible refine serveMsg_keeps hP _ _ _ _ ?_ (fun x0 x1 hx1 => ?_)
    | extract_lets
    | with_reducible apply fst_mk

theorem execGetPldmCommands_keeps (binding : Nat) (s : State) (hs : P s) : OutP P (execGetPldmCommands binding s) := by
  unfold execGetPldmCommands
  repeat' first
    | with_reducible assumption
    | with_reducible refine serveMsg_keeps hP _ _ _ _ ?_ (fun x0 x1 hx1 => ?_)
    | extract_lets
    | split
    | with_reducible apply fst_mk

theorem execGetPldmTypes_keeps (binding : Nat) (s : State) (hs : P s) : OutP P (execGetPldmTypes binding s) := by
  unfold execGetPldmTypes
  repeat' first
    | with_reducible assumption
    | with_reducible refine serveMsg_keeps hP _ _ _ _ ?_ (fun x0 x1 hx1 => ?_)
    | extract_lets
    | with_reducible apply fst_mk

theorem execGetPldmVersion_keeps (binding : Nat) (s : State) (hs : P s) : OutP P (execGetPldmVersion binding s) := by
  unfold execGetPldmVersion
  repeat' first
    | with_reducible assumption
    | with_reducible refine serveMsg_keeps hP _ _ _ _ ?_ (fun x0 x1 hx1 => ?_)
    | extract_lets
    | with_reducible apply fst_mk

theorem execGetSensorReading_keeps (binding : Nat) (s : State) (hs : P s) : OutP P (execGetSensorReading binding s) := by
  unfold execGetSensorReading
  repeat' first
    | with_reducible assumption
    | with_reducible refine serveMsg_keeps hP _ _ _ _ ?_ (fun x0 x1 hx1 => ?_)
    | extract_lets
    | split
    | with_reducible apply fst_mk

theorem execGetStateSensorReadings_keeps (binding : Nat) (s : State) (hs : P s) : OutP P (execGetStateSensorReadings binding s) := by
  unfold execGetStateSensorReadings
  repeat' first
    | with_reducible assumption
    | with_reducible refine serveMsg_keeps hP _ _ _ _ ?_ (fun x0 x1 hx1 => ?_)
    | extract_lets
    | split
    | with_reducible apply fst_mk

theorem execGetStatus_keeps (binding : Nat) (s : State) (hs : P s) : OutP P (execGetStatus binding s) := by
  unfold execGetStatus
  repeat' first
    | with_reducible assumption
    | with_reducible refine serveMsg_keeps hP _ _ _ _ ?_ (fun x0 x1 hx1 => ?_)
    | extract_lets
    | with_reducible apply fst_mk

theorem execGetTid_keeps (binding : Nat) (s : State) (hs : P s) : OutP P (execGetTid binding s) := by
  unfold execGetTid
  repeat' first
    | with_reducible assumption
    | with_reducible refine serveMsg_keeps hP _ _ _ _ ?_ (fun x0 x1 hx1 => ?_)
    | extract_lets
    | with_reducible apply fst_mk

theorem execGetVendorDefinedMessageSupport_keeps (binding : Nat) (s : State) (hs : P s) : OutP P (execGetVendorDefinedMessageSupport binding s) := by
  unfold execGetVendorDefinedMessageSupport
  repeat' first
    | with_reducible assumption
    | with_reducible refine serveMsg_keeps hP _ _ _ _ ?_ (fun x0 x1 hx1 => ?_)
    | extract_lets
    | split
    | with_reducible apply fst_mk

theorem execMctpPacket_keeps (binding : Nat) (pkt : List Byte) (s : State) (hs : P s) : OutP P (execMctpPacket binding pkt s) := by
  unfold execMctpPacket
  repeat' first
    | with_reducible assumption
    | with_reducible apply tick_keeps hP
    | with_reducible apply takeMessage_keeps hP
    | (fail_if_no_progress with_reducible refine upd hP ?_ rfl)
    | with_reducible apply out_next
    | with_reducible apply ite_OutP
    | with_reducible apply ite_P
    | extract_lets
    | split

theorem execMgmtColdReset_keeps (hM : ClosedMem P) (value : Nat) (s : State) (hs : P s) : OutP P (execMgmtColdReset value s) := by
  unfold execMgmtColdReset
  repeat' first
    | with_reducible assumption
    | with_reducible refine hM.cold _ _ _ ?_
    | with_reducible apply out_next
    | with_reducible apply ite_P

theorem execMgmtWarmReset_keeps (hM : ClosedMem P) (value : Nat) (s : State) (hs : P s) : OutP P (execMgmtWarmReset value s) := by
  unfold execMgmtWarmReset
  repeat' first
    | with_reducible assumption
    | with_reducible refine hM.cold _ _ _ ?_
    | with_reducible refine hP.warm _ _ _ ?_
    | with_reducible apply out_next
    | with_reducible apply ite_P

theorem execPassComponentTable_keeps (binding : Nat) (s : State) (hs : P s) : OutP P (execPassComponentTable binding s) := by
  unfold execPassComponentTable
  repeat' first
    | with_reducible assumption
    | with_reducible refine serveMsg_keeps hP _ _ _ _ ?_ (fun x0 x1 hx1 => ?_)
    | with_reducible apply setFwup_keeps hP
    | extract_lets
    | split
    | with_reducible apply fst_mk

theorem execQueryDeviceIdentifiers_keeps (binding : Nat) (s : State) (hs : P s) : OutP P (execQueryDeviceIdentifiers binding s) := by
  unfold execQueryDeviceIdentifiers
  repeat' first
    | with_reducible assumption
    | with_reducible refine serveMsg_keeps hP _ _ _ _ ?_ (fun x0 x1 hx1 => ?_)
    | extract_lets
    | with_reducible apply fst_mk

theorem execRequestFirmwareData_keeps (binding : Nat) (data : Option (List Byte)) (s : State) (hs : P s) : OutP P (execRequestFirmwareData binding data s) := by
  unfold execRequestFirmwareData
  repeat' first
    | with_reducible assumption
    | with_reducible apply mgmtSend_keeps hP
    | with_reducible apply setFwup_keeps hP
    | (fail_if_no_progress with_reducible refine upd hP ?_ rfl)
    | with_reducible apply out_next
    | with_reducible apply ite_OutP

theorem execRequestUpdate_keeps (binding : Nat) (s : State) (hs : P s) : OutP P (execRequestUpdate binding s) := by
  unfold execRequestUpdate
  repeat' first
    | with_reducible assumption
    | with_reducible refine serveMsg_keeps hP _ _ _ _ ?_ (fun x0 x1 hx1 => ?_)
    | with_reducible apply setFwup_keeps hP
    | extract_lets
    | split
    | with_reducible apply fst_mk

theorem execSetEndpointId_keeps (binding : Nat) (s : State) (hs : P s) : OutP P (execSetEndpointId binding s) := by
  unfold execSetEndpointId
  repeat' first
    | with_reducible assumption
    | with_reducible refine serveMsg_keeps hP _ _ _ _ ?_ (fun x0 x1 hx1 => ?_)
    | (fail_if_no_progress with_reducible refine upd hP ?_ rfl)
    | extract_lets
    | split
    | with_reducible apply fst_mk

theorem execSetEventReceiver_keeps (binding : Nat) (s : State) (hs : P s) : OutP P (execSetEventReceiver binding s) := by
  unfold execSetEventReceiver
  repeat' first
    | with_reducible assumption
    | with_reducible refine serveMsg_keeps hP _ _ _ _ ?_ (fun x0 x1 hx1 => ?_)
    | extract_lets
    | with_reducible apply fst_mk

theorem execSgmiiLinkChange_keeps (up : Bool) (s : State) (hs : P s) : OutP P (execSgmiiLinkChange up s) := by
  unfold execSgmiiLinkChange
  repeat' first
    | with_reducible assumption
    | (fail_if_no_progress with_reducible refine upd hP ?_ rfl)
    | with_reducible apply out_next

theorem execTransferComplete_keeps (binding : Nat) (s : State) (hs : P s) : OutP P (execTransferComplete binding s) := by
  unfold execTransferComplete
  repeat' first
    | with_reducible assumption
    | with_reducible apply setFwup_keeps hP
    | with_reducible apply mgmtSend_keeps hP
    | with_reducible apply out_next
    | with_reducible apply ite_OutP

theorem execUpdateComponent_keeps (binding : Nat) (s : State) (hs : P s) : OutP P (execUpdateComponent binding s) := by
  unfold execUpdateComponent
  repeat' first
    | with_reducible assumption
    | with_reducible refine serveMsg_keeps hP _ _ _ _ ?_ (fun x0 x1 hx1 => ?_)
    | with_reducible apply setFwup_keeps hP
    | (fail_if_no_progress with_reducible refine upd hP ?_ rfl)
    | extract_lets
    | split
    | with_reducible apply fst_mk

theorem execVerifyComplete_keeps (binding : Nat) (s : State) (hs : P s) : OutP P (execVerifyComplete binding s) := by
  unfold execVerifyComplete
  repeat' first
    | with_reducible assumption
    | with_reducible apply mgmtSend_keeps hP
    | with_reducible apply setFwup_keeps hP
    | with_reducible apply fwupFail_keeps hP
    | with_reducible apply out_next
    | with_reducible apply ite_OutP

theorem holdCold_keeps (hM : ClosedMem P) (s : State) (hs : P s) : P (State.holdCold s) := by
  unfold State.holdCold
  extract_lets y0 y1
  have hy0 : P y0 := by
    subst y0
    repeat' first
      | with_reducible assumption
      | with_reducible refine hM.cold _ _ _ ?_
  clear_value y0 y1
  repeat' first
    | with_reducible assumption
    | (fail_if_no_progress with_reducible refine upd hP ?_ rfl)

theorem loadIr_keeps (s : State) (k : Nat) (hs : P s) : P (State.loadIr s k) := by
  unfold State.loadIr
  extract_lets y0
  clear_value y0
  repeat' first
    | with_reducible assumption
    | (fail_if_no_progress with_reducible refine upd hP ?_ rfl)
    | with_reducible apply ite_P

theorem release_keeps (s : State) (hs : P s) : P (State.release s) := by
  unfold State.release
  extract_lets y0 y1
  have hy1 : P y1 := by
    subst y1
    repeat' first
      | with_reducible assumption
      | (fail_if_no_progress with_reducible refine upd hP ?_ rfl)
  clear_value y0 y1
  repeat' first
    | with_reducible assumption
    | with_reducible apply putStraps_keeps hP
    | with_reducible apply ite_P

theorem execAuxPgFall_keeps (hM : ClosedMem P) (s : State) (hs : P s) : OutP P (execAuxPgFall s) := by
  unfold execAuxPgFall
  extract_lets y0
  clear_value y0
  repeat' first
    | with_reducible assumption
    | with_reducible apply holdCold_keeps hP hM
    | (fail_if_no_progress with_reducible refine upd hP ?_ rfl)
    | with_reducible apply out_next
    | with_reducible apply ite_OutP

theorem execAuxPgRise_keeps (s : State) (hs : P s) : OutP P (execAuxPgRise s) := by
  unfold execAuxPgRise
  extract_lets y0
  clear_value y0
  repeat' first
    | with_reducible assumption
    | with_reducible apply release_keeps hP
    | (fail_if_no_progress with_reducible refine upd hP ?_ rfl)
    | with_reducible apply out_next
    | with_reducible apply ite_OutP

theorem execColdRstNAssert_keeps (hM : ClosedMem P) (s : State) (hs : P s) : OutP P (execColdRstNAssert s) := by
  unfold execColdRstNAssert
  repeat' first
    | with_reducible assumption
    | with_reducible apply holdCold_keeps hP hM
    | (fail_if_no_progress with_reducible refine upd hP ?_ rfl)
    | with_reducible apply out_next
    | with_reducible apply ite_OutP

theorem execColdRstNDeassert_keeps (s : State) (hs : P s) : OutP P (execColdRstNDeassert s) := by
  unfold execColdRstNDeassert
  repeat' first
    | with_reducible assumption
    | with_reducible apply release_keeps hP
    | (fail_if_no_progress with_reducible refine upd hP ?_ rfl)
    | with_reducible apply out_next
    | with_reducible apply ite_OutP

theorem execJtagBypass_keeps (s : State) (hs : P s) : OutP P (execJtagBypass s) := by
  unfold execJtagBypass
  repeat' first
    | with_reducible assumption
    | with_reducible apply loadIr_keeps hP
    | with_reducible apply out_next

theorem execJtagClamp_keeps (s : State) (hs : P s) : OutP P (execJtagClamp s) := by
  unfold execJtagClamp
  repeat' first
    | with_reducible assumption
    | with_reducible apply loadIr_keeps hP
    | with_reducible apply out_next

theorem execJtagExtest_keeps (s : State) (hs : P s) : OutP P (execJtagExtest s) := by
  unfold execJtagExtest
  repeat' first
    | with_reducible assumption
    | with_reducible apply loadIr_keeps hP
    | with_reducible apply out_next

theorem execJtagExtestPulse_keeps (s : State) (hs : P s) : OutP P (execJtagExtestPulse s) := by
  unfold execJtagExtestPulse
  repeat' first
    | with_reducible assumption
    | with_reducible apply loadIr_keeps hP
    | with_reducible apply out_next

theorem execJtagExtestTrain_keeps (s : State) (hs : P s) : OutP P (execJtagExtestTrain s) := by
  unfold execJtagExtestTrain
  repeat' first
    | with_reducible assumption
    | with_reducible apply loadIr_keeps hP
    | with_reducible apply out_next

theorem execJtagHighz_keeps (s : State) (hs : P s) : OutP P (execJtagHighz s) := by
  unfold execJtagHighz
  repeat' first
    | with_reducible assumption
    | with_reducible apply loadIr_keeps hP
    | with_reducible apply out_next

theorem execJtagSamplePreload_keeps (s : State) (hs : P s) : OutP P (execJtagSamplePreload s) := by
  unfold execJtagSamplePreload
  repeat' first
    | with_reducible assumption
    | with_reducible apply loadIr_keeps hP
    | with_reducible apply out_next

theorem execPowerUp_keeps (hM : ClosedMem P) (straps : List Nat) (flash : List (List Byte)) (s : State) (hs : P s) : OutP P (execPowerUp straps flash s) := by
  unfold execPowerUp
  repeat' first
    | with_reducible assumption
    | with_reducible refine hM.cold _ _ _ ?_
    | (fail_if_no_progress with_reducible refine upd hP ?_ rfl)
    | with_reducible apply out_next

theorem execTrstNAssert_keeps (s : State) (hs : P s) : OutP P (execTrstNAssert s) := by
  unfold execTrstNAssert
  repeat' first
    | with_reducible assumption
    | (fail_if_no_progress with_reducible refine upd hP ?_ rfl)
    | with_reducible apply out_next

theorem execTrstNDeassert_keeps (s : State) (hs : P s) : OutP P (execTrstNDeassert s) := by
  unfold execTrstNDeassert
  repeat' first
    | with_reducible assumption
    | (fail_if_no_progress with_reducible refine upd hP ?_ rfl)
    | with_reducible apply out_next

theorem execWarmRstNAssert_keeps (s : State) (hs : P s) : OutP P (execWarmRstNAssert s) := by
  unfold execWarmRstNAssert
  repeat' first
    | with_reducible assumption
    | with_reducible refine hP.warm _ _ _ ?_
    | (fail_if_no_progress with_reducible refine upd hP ?_ rfl)
    | with_reducible apply out_next
    | with_reducible apply ite_OutP

theorem execWarmRstNDeassert_keeps (s : State) (hs : P s) : OutP P (execWarmRstNDeassert s) := by
  unfold execWarmRstNDeassert
  repeat' first
    | with_reducible assumption
    | (fail_if_no_progress with_reducible refine upd hP ?_ rfl)
    | with_reducible apply out_next

theorem bankTick_keeps (s : State) (hs : P s) : P (State.bankTick s) := by
  unfold State.bankTick
  repeat' first
    | with_reducible assumption
    | with_reducible refine hP.count _ _ _ _ ?_
    | with_reducible refine foldl_keeps _ ?_ (fun s x hs => ?_)

theorem creditTick_keeps (s : State) (b : Nat) (hs : P s) : P (State.creditTick s b) := by
  unfold State.creditTick
  extract_lets y0 y1 y2
  subst y2
  try beta_reduce
  repeat' first
    | with_reducible assumption
    | with_reducible refine hP.count _ _ _ _ ?_
    | with_reducible refine foldl_keeps _ ?_ (fun s x hs => ?_)

theorem flushPort_keeps (s : State) (b : Nat) (hs : P s) : P (State.flushPort s b) := by
  unfold State.flushPort
  extract_lets y0 y1
  have hy0 : P y0 := by
    subst y0
    repeat' first
      | with_reducible assumption
      | with_reducible apply attDropDue_keeps hP
  clear_value y0 y1
  repeat' first
    | with_reducible assumption
    | with_reducible apply brPump_keeps hP
    | with_reducible apply setBrPort_keeps hP
    | with_reducible apply ite_P

theorem idleTile_keeps (s : State) (p : Nat) (hs : P s) : P (State.idleTile s p) := by
  unfold State.idleTile
  extract_lets y0 y1 y2 y3 y4 y5 y6 y7
  have hy4 : P y4 := by
    subst y4
    repeat' first
      | with_reducible assumption
      | (fail_if_no_progress with_reducible refine upd hP ?_ rfl)
  have hy5 : SndP P y5 := by
    subst y5
    repeat' first
      | with_reducible assumption
      | with_reducible apply freshWord_keeps hP
  have hy6 : SndP P y6 := by
    subst y6
    repeat' first
      | with_reducible apply freshWord_keeps hP
      | extract_lets
      | with_reducible exact SndP.out ‹_›
  clear_value y0 y1 y2 y3 y4 y5 y6 y7
  repeat' first
    | with_reducible assumption
    | with_reducible refine hP.count _ _ _ _ ?_
    | with_reducible apply ite_P
    | extract_lets
    | with_reducible exact SndP.out ‹_›
    | split

theorem idleTick_keeps (s : State) (hs : P s) : P (State.idleTick s) := by
  unfold State.idleTick
  repeat' first
    | with_reducible assumption
    | with_reducible apply idleTile_keeps hP
    | with_reducible refine foldl_keeps _ ?_ (fun s x hs => ?_)

theorem queueTick_keeps (s : State) (hs : P s) : P (State.queueTick s) := by
  unfold State.queueTick
  repeat' first
    | with_reducible assumption
    | with_reducible refine hP.count _ _ _ _ ?_
    | with_reducible refine foldl_keeps _ ?_ (fun s x hs => ?_)

theorem sampleBits_keeps (s : State) (hs : P s) : P (State.sampleBits s) := by
  unfold State.sampleBits
  extract_lets y0 y1 y2 y3 y4
  clear_value y0 y1 y2 y3 y4
  repeat' first
    | with_reducible assumption
    | (fail_if_no_progress with_reducible refine upd hP ?_ rfl)
    | with_reducible apply ite_P

theorem stallTick_keeps (s : State) (hs : P s) : P (State.stallTick s) := by
  unfold State.stallTick
  repeat' first
    | with_reducible assumption
    | with_reducible refine hP.count _ _ _ _ ?_
    | with_reducible apply setStream_keeps hP
    | with_reducible apply ite_P
    | with_reducible refine foldl_keeps _ ?_ (fun s x hs => ?_)

theorem partsTick_keeps (s : State) (hs : P s) : P (State.partsTick s) := by
  unfold State.partsTick
  extract_lets y0 y1 y2 y3 y4
  have hy0 : P y0 := by
    subst y0
    repeat' first
      | with_reducible assumption
      | with_reducible apply flushPort_keeps hP
      | with_reducible apply creditTick_keeps hP
      | with_reducible refine foldl_keeps _ ?_ (fun s x hs => ?_)
  have hy2 : P y2 := by
    subst y2
    repeat' first
      | with_reducible assumption
      | (fail_if_no_progress with_reducible refine upd hP ?_ rfl)
  have hy3 : P y3 := by
    subst y3
    repeat' first
      | with_reducible assumption
      | with_reducible apply bwTick_keeps hP
      | with_reducible apply queueTick_keeps hP
      | with_reducible apply bankTick_keeps hP
      | with_reducible apply idleTick_keeps hP
      | with_reducible apply stallTick_keeps hP
  have hy4 : P y4 := by
    subst y4
    repeat' first
      | with_reducible assumption
      | with_reducible apply idleStreams_keeps hP
      | with_reducible apply reapTails_keeps hP
      | with_reducible refine foldl_keeps _ ?_ (fun s x hs => ?_)
  clear_value y0 y1 y2 y3 y4
  repeat' first
    | with_reducible assumption
    | with_reducible apply retryQueues_keeps hP
    | with_reducible apply clockTick_keeps hP
    | with_reducible apply pumpPartials_keeps hP
    | with_reducible apply sweepTick_keeps hP

theorem degradedTick_keeps (s : State) (hs : P s) : P (State.degradedTick s) := by
  unfold State.degradedTick
  repeat' first
    | with_reducible assumption
    | with_reducible apply noteDegraded_keeps hP
    | with_reducible apply ite_P

theorem tickOne_keeps (s : State) (hs : P s) : P (State.tickOne s) := by
  unfold State.tickOne
  extract_lets y0 y1 y2
  have hy0 : P y0 := by
    subst y0
    repeat' first
      | with_reducible assumption
      | with_reducible apply sampleBits_keeps hP
  have hy2 : P y2 := by
    subst y2
    repeat' first
      | with_reducible assumption
      | (fail_if_no_progress with_reducible refine upd hP ?_ rfl)
  clear_value y0 y1 y2
  repeat' first
    | with_reducible assumption
    | with_reducible apply degradedTick_keeps hP
    | with_reducible apply partsTick_keeps hP
    | with_reducible apply ite_P

end Sys2Proof.Machine
end

