-- ==== Sys2Proof/Laws/State.lean ====
section
/-! SUPPORT. What the updates of State leave: one lemma for each part of the state that an update does not touch, and reading back what it wrote. -/

namespace Sys2Proof.Machine

/-! ### Lists by index -/

@[simp] theorem length_setNth {α : Type} (l : List α) (i : Nat) (v : α) : (setNth l i v).length = l.length := by
  induction l generalizing i with
  | nil => rfl
  | cons a l ih => cases i <;> simp [setNth, ih]

theorem nth_setNth {α : Type} (l : List α) (i j : Nat) (v d : α) :
    nth (setNth l i v) j d = if j = i ∧ i < l.length then v else nth l j d := by
  induction l generalizing i j with
  | nil => simp [setNth, nth]
  | cons a l ih =>
    cases i with
    | zero => cases j <;> simp [setNth, nth]
    | succ i =>
      cases j with
      | zero => simp [setNth, nth]
      | succ j => simpa [setNth, nth] using ih i j

/-! ### Registers and counters -/

theorem State.rd_wr (s : State) (hs : s.canon) (n m : RegName) (c c' w w' v : Nat) :
    (s.wr n c w v).rd m c' w' = if regKey m c' w' = regKey n c w then v % 2 ^ 32 else s.rd m c' w' := by
  unfold State.rd State.wr
  rw [SMap.getD_setD _ _ ((SMap.wfD_iff _ _).1 hs.1).1]
  split <;> simp

@[simp] theorem State.rd_count (s : State) (n m : RegName) (c k c' w' : Nat) : (s.count n c k).rd m c' w' = s.rd m c' w' := rfl
@[simp] theorem State.cnt_wr (s : State) (n m : RegName) (c w v c' : Nat) : (s.wr n c w v).cnt m c' = s.cnt m c' := rfl
@[simp] theorem State.fld_count (s : State) (n m : RegName) (c k c' w' a b : Nat) : (s.count n c k).fld m c' w' a b = s.fld m c' w' a b := rfl

/-! ### Reading back what an update wrote -/

theorem State.veHub_setVe (s : State) (h j : Nat) (v : VeHub) : (s.setVe h v).veHub j = if j = h ∧ h < s.ve.length then v else s.veHub j :=
  nth_setNth _ _ _ _ _
theorem State.capOf_setCap (s : State) (t j : Nat) (c : CapSt) : (s.setCap t c).capOf j = if j = t ∧ t < s.cap.length then c else s.capOf j :=
  nth_setNth _ _ _ _ _
theorem State.hwT_setHwT (s : State) (t j : Nat) (h : HwTenant) :
    (s.setHwT t h).hwT j = if j = t ∧ t < s.head.tenants.length then h else s.hwT j :=
  nth_setNth _ _ _ _ _
@[simp] theorem State.que_setQue (s : State) (q : Nat) (x : SlQueue) : (s.setQue q x).que q = x := by
  simp [State.que, State.setQue, SMap.getD, SMap.find_put_self]

/-! ### Events and attention: the parts that neither touches -/

/-- Latching a cause leaves every word of a register but ATTN_CAUSE. -/
theorem State.rd_setAttnBit (s : State) {u c : Nat} (hu : u < 4) (hc : c < 32) (n : RegName) (i w : Nat) (h : regKey n i w ≠ regKey .attnCause u 0) :
    (s.setAttnBit u c).rd n i w = s.rd n i w := by
  have hd : regDefault (regKey .attnCause u 0) = 0 := by
    have : u = 0 ∨ u = 1 ∨ u = 2 ∨ u = 3 := by omega
    rcases this with rfl | rfl | rfl | rfl <;> decide
  have hv : BitVec.ofNat 32 (setBit (s.rd .attnCause u 0) c true) ≠ regDefault (regKey .attnCause u 0) := by
    intro he
    have ht := congrArg (fun (b : Word) => b.toNat.testBit c) he
    have h1 : (setBit (s.rd .attnCause u 0) c true).testBit c = true := by
      have h2 : s.rd .attnCause u 0 / 2 ^ c % 2 * 2 ^ c ≤ s.rd .attnCause u 0 :=
        le_trans (Nat.mul_le_mul_right _ (Nat.mod_le _ _)) (Nat.div_mul_le_self _ _)
      unfold setBit
      rw [Nat.testBit_eq_decide_div_mod_eq]
      simp only [if_true, decide_eq_true_eq]
      rw [Nat.add_div_right _ (Nat.two_pow_pos c), mul_comm (_ % 2), Nat.sub_mul_div]
      omega
    rw [hd] at ht
    simp only [BitVec.toNat_ofNat, Nat.testBit_mod_two_pow, hc, h1] at ht
    simp at ht
  show (SMap.getD regDefault (SMap.setD regDefault s.regs _ _) _).toNat = _
  unfold SMap.setD
  rw [if_neg hv]
  simp [State.rd, SMap.getD, SMap.find_put_ne _ _ _ _ h]
/-- An event leaves every word of a register but ATTN_CAUSE. -/
theorem State.rd_event (s : State) (a b t d : Nat) (n : RegName) (i w : Nat) (h : ∀ u < 4, regKey n i w ≠ regKey .attnCause u 0) :
    (s.event a b t d).rd n i w = s.rd n i w :=
  @event_of_attn (fun x => x.rd n i w = s.rd n i w) (fun _ _ e => e)
    (fun x _ hu e => (State.rd_setAttnBit x hu (by decide) n i w (h _ hu)).trans e) s a b t d rfl

@[simp] theorem State.event_pending (s : State) (a b c d : Nat) : (s.event a b c d).pending = s.pending :=
  @event_of (fun t => t.pending = s.pending) (fun _ _ h => h) (fun _ _ _ _ _ h => h) s a b c d rfl
@[simp] theorem State.event_fuse (s : State) (a b c d : Nat) : (s.event a b c d).fuse = s.fuse :=
  @event_of (fun t => t.fuse = s.fuse) (fun _ _ h => h) (fun _ _ _ _ _ h => h) s a b c d rfl
@[simp] theorem State.event_cnts (s : State) (a b c d : Nat) : (s.event a b c d).cnts = s.cnts :=
  @event_of (fun t => t.cnts = s.cnts) (fun _ _ h => h) (fun _ _ _ _ _ h => h) s a b c d rfl
@[simp] theorem State.event_stage (s : State) (a b c d : Nat) : (s.event a b c d).stage = s.stage :=
  @event_of (fun t => t.stage = s.stage) (fun _ _ h => h) (fun _ _ _ _ _ h => h) s a b c d rfl
@[simp] theorem State.event_free (s : State) (a b c d : Nat) : (s.event a b c d).free = s.free :=
  @event_of (fun t => t.free = s.free) (fun _ _ h => h) (fun _ _ _ _ _ h => h) s a b c d rfl
@[simp] theorem State.event_time (s : State) (a b c d : Nat) : (s.event a b c d).time = s.time :=
  @event_of (fun t => t.time = s.time) (fun _ _ h => h) (fun _ _ _ _ _ h => h) s a b c d rfl
@[simp] theorem State.event_weir (s : State) (a b c d : Nat) : (s.event a b c d).weir = s.weir :=
  @event_of (fun t => t.weir = s.weir) (fun _ _ h => h) (fun _ _ _ _ _ h => h) s a b c d rfl
@[simp] theorem State.event_eddy (s : State) (a b c d : Nat) : (s.event a b c d).eddy = s.eddy :=
  @event_of (fun t => t.eddy = s.eddy) (fun _ _ h => h) (fun _ _ _ _ _ h => h) s a b c d rfl
@[simp] theorem State.event_ve (s : State) (a b c d : Nat) : (s.event a b c d).ve = s.ve :=
  @event_of (fun t => t.ve = s.ve) (fun _ _ h => h) (fun _ _ _ _ _ h => h) s a b c d rfl
@[simp] theorem State.event_die (s : State) (a b c d : Nat) : (s.event a b c d).die = s.die :=
  @event_of (fun t => t.die = s.die) (fun _ _ h => h) (fun _ _ _ _ _ h => h) s a b c d rfl
@[simp] theorem State.event_dist (s : State) (a b c d : Nat) : (s.event a b c d).dist = s.dist :=
  @event_of (fun t => t.dist = s.dist) (fun _ _ h => h) (fun _ _ _ _ _ h => h) s a b c d rfl
@[simp] theorem State.event_cap (s : State) (a b c d : Nat) : (s.event a b c d).cap = s.cap :=
  @event_of (fun t => t.cap = s.cap) (fun _ _ h => h) (fun _ _ _ _ _ h => h) s a b c d rfl
@[simp] theorem State.event_slu (s : State) (a b c d : Nat) : (s.event a b c d).slu = s.slu :=
  @event_of (fun t => t.slu = s.slu) (fun _ _ h => h) (fun _ _ _ _ _ h => h) s a b c d rfl
@[simp] theorem State.event_braid (s : State) (a b c d : Nat) : (s.event a b c d).braid = s.braid :=
  @event_of (fun t => t.braid = s.braid) (fun _ _ h => h) (fun _ _ _ _ _ h => h) s a b c d rfl
@[simp] theorem State.event_head (s : State) (a b c d : Nat) : (s.event a b c d).head = s.head :=
  @event_of (fun t => t.head = s.head) (fun _ _ h => h) (fun _ _ _ _ _ h => h) s a b c d rfl
@[simp] theorem State.event_mem (s : State) (a b c d : Nat) : (s.event a b c d).mem = s.mem :=
  @event_of (fun t => t.mem = s.mem) (fun _ _ h => h) (fun _ _ _ _ _ h => h) s a b c d rfl
@[simp] theorem State.event_sec (s : State) (a b c d : Nat) : (s.event a b c d).sec = s.sec :=
  @event_of (fun t => t.sec = s.sec) (fun _ _ h => h) (fun _ _ _ _ _ h => h) s a b c d rfl
@[simp] theorem State.event_rel (s : State) (a b c d : Nat) : (s.event a b c d).rel = s.rel :=
  @event_of (fun t => t.rel = s.rel) (fun _ _ h => h) (fun _ _ _ _ _ h => h) s a b c d rfl
@[simp] theorem State.event_power (s : State) (a b c d : Nat) : (s.event a b c d).power = s.power :=
  @event_of (fun t => t.power = s.power) (fun _ _ h => h) (fun _ _ _ _ _ h => h) s a b c d rfl
@[simp] theorem State.event_mgmt (s : State) (a b c d : Nat) : (s.event a b c d).mgmt = s.mgmt :=
  @event_of (fun t => t.mgmt = s.mgmt) (fun _ _ h => h) (fun _ _ _ _ _ h => h) s a b c d rfl
@[simp] theorem State.event_pins (s : State) (a b c d : Nat) : (s.event a b c d).pins = s.pins :=
  @event_of (fun t => t.pins = s.pins) (fun _ _ h => h) (fun _ _ _ _ _ h => h) s a b c d rfl

/-! ### One lemma for each part that an update leaves -/

@[simp] theorem State.wr_pending (s : State) (n : RegName) (copy word v : Nat) : (s.wr n copy word v).pending = s.pending := rfl
@[simp] theorem State.wr_fuse (s : State) (n : RegName) (copy word v : Nat) : (s.wr n copy word v).fuse = s.fuse := rfl
@[simp] theorem State.wr_cnts (s : State) (n : RegName) (copy word v : Nat) : (s.wr n copy word v).cnts = s.cnts := rfl
@[simp] theorem State.wr_stage (s : State) (n : RegName) (copy word v : Nat) : (s.wr n copy word v).stage = s.stage := rfl
@[simp] theorem State.wr_free (s : State) (n : RegName) (copy word v : Nat) : (s.wr n copy word v).free = s.free := rfl
@[simp] theorem State.wr_time (s : State) (n : RegName) (copy word v : Nat) : (s.wr n copy word v).time = s.time := rfl
@[simp] theorem State.wr_trib (s : State) (n : RegName) (copy word v : Nat) : (s.wr n copy word v).trib = s.trib := rfl
@[simp] theorem State.wr_weir (s : State) (n : RegName) (copy word v : Nat) : (s.wr n copy word v).weir = s.weir := rfl
@[simp] theorem State.wr_eddy (s : State) (n : RegName) (copy word v : Nat) : (s.wr n copy word v).eddy = s.eddy := rfl
@[simp] theorem State.wr_ve (s : State) (n : RegName) (copy word v : Nat) : (s.wr n copy word v).ve = s.ve := rfl
@[simp] theorem State.wr_die (s : State) (n : RegName) (copy word v : Nat) : (s.wr n copy word v).die = s.die := rfl
@[simp] theorem State.wr_dist (s : State) (n : RegName) (copy word v : Nat) : (s.wr n copy word v).dist = s.dist := rfl
@[simp] theorem State.wr_cap (s : State) (n : RegName) (copy word v : Nat) : (s.wr n copy word v).cap = s.cap := rfl
@[simp] theorem State.wr_slu (s : State) (n : RegName) (copy word v : Nat) : (s.wr n copy word v).slu = s.slu := rfl
@[simp] theorem State.wr_braid (s : State) (n : RegName) (copy word v : Nat) : (s.wr n copy word v).braid = s.braid := rfl
@[simp] theorem State.wr_head (s : State) (n : RegName) (copy word v : Nat) : (s.wr n copy word v).head = s.head := rfl
@[simp] theorem State.wr_mem (s : State) (n : RegName) (copy word v : Nat) : (s.wr n copy word v).mem = s.mem := rfl
@[simp] theorem State.wr_sec (s : State) (n : RegName) (copy word v : Nat) : (s.wr n copy word v).sec = s.sec := rfl
@[simp] theorem State.wr_rel (s : State) (n : RegName) (copy word v : Nat) : (s.wr n copy word v).rel = s.rel := rfl
@[simp] theorem State.wr_power (s : State) (n : RegName) (copy word v : Nat) : (s.wr n copy word v).power = s.power := rfl
@[simp] theorem State.wr_mgmt (s : State) (n : RegName) (copy word v : Nat) : (s.wr n copy word v).mgmt = s.mgmt := rfl
@[simp] theorem State.wr_pins (s : State) (n : RegName) (copy word v : Nat) : (s.wr n copy word v).pins = s.pins := rfl

@[simp] theorem State.count_pending (s : State) (n : RegName) (copy k : Nat) : (s.count n copy k).pending = s.pending := rfl
@[simp] theorem State.count_fuse (s : State) (n : RegName) (copy k : Nat) : (s.count n copy k).fuse = s.fuse := rfl
@[simp] theorem State.count_regs (s : State) (n : RegName) (copy k : Nat) : (s.count n copy k).regs = s.regs := rfl
@[simp] theorem State.count_stage (s : State) (n : RegName) (copy k : Nat) : (s.count n copy k).stage = s.stage := rfl
@[simp] theorem State.count_free (s : State) (n : RegName) (copy k : Nat) : (s.count n copy k).free = s.free := rfl
@[simp] theorem State.count_time (s : State) (n : RegName) (copy k : Nat) : (s.count n copy k).time = s.time := rfl
@[simp] theorem State.count_trib (s : State) (n : RegName) (copy k : Nat) : (s.count n copy k).trib = s.trib := rfl
@[simp] theorem State.count_weir (s : State) (n : RegName) (copy k : Nat) : (s.count n copy k).weir = s.weir := rfl
@[simp] theorem State.count_eddy (s : State) (n : RegName) (copy k : Nat) : (s.count n copy k).eddy = s.eddy := rfl
@[simp] theorem State.count_ve (s : State) (n : RegName) (copy k : Nat) : (s.count n copy k).ve = s.ve := rfl
@[simp] theorem State.count_die (s : State) (n : RegName) (copy k : Nat) : (s.count n copy k).die = s.die := rfl
@[simp] theorem State.count_dist (s : State) (n : RegName) (copy k : Nat) : (s.count n copy k).dist = s.dist := rfl
@[simp] theorem State.count_cap (s : State) (n : RegName) (copy k : Nat) : (s.count n copy k).cap = s.cap := rfl
@[simp] theorem State.count_slu (s : State) (n : RegName) (copy k : Nat) : (s.count n copy k).slu = s.slu := rfl
@[simp] theorem State.count_braid (s : State) (n : RegName) (copy k : Nat) : (s.count n copy k).braid = s.braid := rfl
@[simp] theorem State.count_head (s : State) (n : RegName) (copy k : Nat) : (s.count n copy k).head = s.head := rfl
@[simp] theorem State.count_mem (s : State) (n : RegName) (copy k : Nat) : (s.count n copy k).mem = s.mem := rfl
@[simp] theorem State.count_sec (s : State) (n : RegName) (copy k : Nat) : (s.count n copy k).sec = s.sec := rfl
@[simp] theorem State.count_rel (s : State) (n : RegName) (copy k : Nat) : (s.count n copy k).rel = s.rel := rfl
@[simp] theorem State.count_power (s : State) (n : RegName) (copy k : Nat) : (s.count n copy k).power = s.power := rfl
@[simp] theorem State.count_mgmt (s : State) (n : RegName) (copy k : Nat) : (s.count n copy k).mgmt = s.mgmt := rfl
@[simp] theorem State.count_pins (s : State) (n : RegName) (copy k : Nat) : (s.count n copy k).pins = s.pins := rfl

@[simp] theorem State.setPort_pending (s : State) (p : Nat) (x : PortSt) : (s.setPort p x).pending = s.pending := rfl
@[simp] theorem State.setPort_fuse (s : State) (p : Nat) (x : PortSt) : (s.setPort p x).fuse = s.fuse := rfl
@[simp] theorem State.setPort_regs (s : State) (p : Nat) (x : PortSt) : (s.setPort p x).regs = s.regs := rfl
@[simp] theorem State.setPort_cnts (s : State) (p : Nat) (x : PortSt) : (s.setPort p x).cnts = s.cnts := rfl
@[simp] theorem State.setPort_stage (s : State) (p : Nat) (x : PortSt) : (s.setPort p x).stage = s.stage := rfl
@[simp] theorem State.setPort_free (s : State) (p : Nat) (x : PortSt) : (s.setPort p x).free = s.free := rfl
@[simp] theorem State.setPort_time (s : State) (p : Nat) (x : PortSt) : (s.setPort p x).time = s.time := rfl
@[simp] theorem State.setPort_weir (s : State) (p : Nat) (x : PortSt) : (s.setPort p x).weir = s.weir := rfl
@[simp] theorem State.setPort_eddy (s : State) (p : Nat) (x : PortSt) : (s.setPort p x).eddy = s.eddy := rfl
@[simp] theorem State.setPort_ve (s : State) (p : Nat) (x : PortSt) : (s.setPort p x).ve = s.ve := rfl
@[simp] theorem State.setPort_die (s : State) (p : Nat) (x : PortSt) : (s.setPort p x).die = s.die := rfl
@[simp] theorem State.setPort_dist (s : State) (p : Nat) (x : PortSt) : (s.setPort p x).dist = s.dist := rfl
@[simp] theorem State.setPort_cap (s : State) (p : Nat) (x : PortSt) : (s.setPort p x).cap = s.cap := rfl
@[simp] theorem State.setPort_slu (s : State) (p : Nat) (x : PortSt) : (s.setPort p x).slu = s.slu := rfl
@[simp] theorem State.setPort_braid (s : State) (p : Nat) (x : PortSt) : (s.setPort p x).braid = s.braid := rfl
@[simp] theorem State.setPort_head (s : State) (p : Nat) (x : PortSt) : (s.setPort p x).head = s.head := rfl
@[simp] theorem State.setPort_mem (s : State) (p : Nat) (x : PortSt) : (s.setPort p x).mem = s.mem := rfl
@[simp] theorem State.setPort_sec (s : State) (p : Nat) (x : PortSt) : (s.setPort p x).sec = s.sec := rfl
@[simp] theorem State.setPort_rel (s : State) (p : Nat) (x : PortSt) : (s.setPort p x).rel = s.rel := rfl
@[simp] theorem State.setPort_power (s : State) (p : Nat) (x : PortSt) : (s.setPort p x).power = s.power := rfl
@[simp] theorem State.setPort_mgmt (s : State) (p : Nat) (x : PortSt) : (s.setPort p x).mgmt = s.mgmt := rfl
@[simp] theorem State.setPort_pins (s : State) (p : Nat) (x : PortSt) : (s.setPort p x).pins = s.pins := rfl

@[simp] theorem State.setHub_pending (s : State) (h : Nat) (w : WeirHub) : (s.setHub h w).pending = s.pending := rfl
@[simp] theorem State.setHub_fuse (s : State) (h : Nat) (w : WeirHub) : (s.setHub h w).fuse = s.fuse := rfl
@[simp] theorem State.setHub_regs (s : State) (h : Nat) (w : WeirHub) : (s.setHub h w).regs = s.regs := rfl
@[simp] theorem State.setHub_cnts (s : State) (h : Nat) (w : WeirHub) : (s.setHub h w).cnts = s.cnts := rfl
@[simp] theorem State.setHub_stage (s : State) (h : Nat) (w : WeirHub) : (s.setHub h w).stage = s.stage := rfl
@[simp] theorem State.setHub_free (s : State) (h : Nat) (w : WeirHub) : (s.setHub h w).free = s.free := rfl
@[simp] theorem State.setHub_time (s : State) (h : Nat) (w : WeirHub) : (s.setHub h w).time = s.time := rfl
@[simp] theorem State.setHub_trib (s : State) (h : Nat) (w : WeirHub) : (s.setHub h w).trib = s.trib := rfl
@[simp] theorem State.setHub_eddy (s : State) (h : Nat) (w : WeirHub) : (s.setHub h w).eddy = s.eddy := rfl
@[simp] theorem State.setHub_ve (s : State) (h : Nat) (w : WeirHub) : (s.setHub h w).ve = s.ve := rfl
@[simp] theorem State.setHub_die (s : State) (h : Nat) (w : WeirHub) : (s.setHub h w).die = s.die := rfl
@[simp] theorem State.setHub_dist (s : State) (h : Nat) (w : WeirHub) : (s.setHub h w).dist = s.dist := rfl
@[simp] theorem State.setHub_cap (s : State) (h : Nat) (w : WeirHub) : (s.setHub h w).cap = s.cap := rfl
@[simp] theorem State.setHub_slu (s : State) (h : Nat) (w : WeirHub) : (s.setHub h w).slu = s.slu := rfl
@[simp] theorem State.setHub_braid (s : State) (h : Nat) (w : WeirHub) : (s.setHub h w).braid = s.braid := rfl
@[simp] theorem State.setHub_head (s : State) (h : Nat) (w : WeirHub) : (s.setHub h w).head = s.head := rfl
@[simp] theorem State.setHub_mem (s : State) (h : Nat) (w : WeirHub) : (s.setHub h w).mem = s.mem := rfl
@[simp] theorem State.setHub_sec (s : State) (h : Nat) (w : WeirHub) : (s.setHub h w).sec = s.sec := rfl
@[simp] theorem State.setHub_rel (s : State) (h : Nat) (w : WeirHub) : (s.setHub h w).rel = s.rel := rfl
@[simp] theorem State.setHub_power (s : State) (h : Nat) (w : WeirHub) : (s.setHub h w).power = s.power := rfl
@[simp] theorem State.setHub_mgmt (s : State) (h : Nat) (w : WeirHub) : (s.setHub h w).mgmt = s.mgmt := rfl
@[simp] theorem State.setHub_pins (s : State) (h : Nat) (w : WeirHub) : (s.setHub h w).pins = s.pins := rfl

@[simp] theorem State.setQueue_pending (s : State) (q : Nat) (l : AdmQueue) : (s.setQueue q l).pending = s.pending := rfl
@[simp] theorem State.setQueue_fuse (s : State) (q : Nat) (l : AdmQueue) : (s.setQueue q l).fuse = s.fuse := rfl
@[simp] theorem State.setQueue_regs (s : State) (q : Nat) (l : AdmQueue) : (s.setQueue q l).regs = s.regs := rfl
@[simp] theorem State.setQueue_cnts (s : State) (q : Nat) (l : AdmQueue) : (s.setQueue q l).cnts = s.cnts := rfl
@[simp] theorem State.setQueue_stage (s : State) (q : Nat) (l : AdmQueue) : (s.setQueue q l).stage = s.stage := rfl
@[simp] theorem State.setQueue_free (s : State) (q : Nat) (l : AdmQueue) : (s.setQueue q l).free = s.free := rfl
@[simp] theorem State.setQueue_time (s : State) (q : Nat) (l : AdmQueue) : (s.setQueue q l).time = s.time := rfl
@[simp] theorem State.setQueue_trib (s : State) (q : Nat) (l : AdmQueue) : (s.setQueue q l).trib = s.trib := rfl
@[simp] theorem State.setQueue_eddy (s : State) (q : Nat) (l : AdmQueue) : (s.setQueue q l).eddy = s.eddy := rfl
@[simp] theorem State.setQueue_ve (s : State) (q : Nat) (l : AdmQueue) : (s.setQueue q l).ve = s.ve := rfl
@[simp] theorem State.setQueue_die (s : State) (q : Nat) (l : AdmQueue) : (s.setQueue q l).die = s.die := rfl
@[simp] theorem State.setQueue_dist (s : State) (q : Nat) (l : AdmQueue) : (s.setQueue q l).dist = s.dist := rfl
@[simp] theorem State.setQueue_cap (s : State) (q : Nat) (l : AdmQueue) : (s.setQueue q l).cap = s.cap := rfl
@[simp] theorem State.setQueue_slu (s : State) (q : Nat) (l : AdmQueue) : (s.setQueue q l).slu = s.slu := rfl
@[simp] theorem State.setQueue_braid (s : State) (q : Nat) (l : AdmQueue) : (s.setQueue q l).braid = s.braid := rfl
@[simp] theorem State.setQueue_head (s : State) (q : Nat) (l : AdmQueue) : (s.setQueue q l).head = s.head := rfl
@[simp] theorem State.setQueue_mem (s : State) (q : Nat) (l : AdmQueue) : (s.setQueue q l).mem = s.mem := rfl
@[simp] theorem State.setQueue_sec (s : State) (q : Nat) (l : AdmQueue) : (s.setQueue q l).sec = s.sec := rfl
@[simp] theorem State.setQueue_rel (s : State) (q : Nat) (l : AdmQueue) : (s.setQueue q l).rel = s.rel := rfl
@[simp] theorem State.setQueue_power (s : State) (q : Nat) (l : AdmQueue) : (s.setQueue q l).power = s.power := rfl
@[simp] theorem State.setQueue_mgmt (s : State) (q : Nat) (l : AdmQueue) : (s.setQueue q l).mgmt = s.mgmt := rfl
@[simp] theorem State.setQueue_pins (s : State) (q : Nat) (l : AdmQueue) : (s.setQueue q l).pins = s.pins := rfl

@[simp] theorem State.setFreeze_pending (s : State) (t : Nat) (f : FreezeSt) : (s.setFreeze t f).pending = s.pending := rfl
@[simp] theorem State.setFreeze_fuse (s : State) (t : Nat) (f : FreezeSt) : (s.setFreeze t f).fuse = s.fuse := rfl
@[simp] theorem State.setFreeze_regs (s : State) (t : Nat) (f : FreezeSt) : (s.setFreeze t f).regs = s.regs := rfl
@[simp] theorem State.setFreeze_cnts (s : State) (t : Nat) (f : FreezeSt) : (s.setFreeze t f).cnts = s.cnts := rfl
@[simp] theorem State.setFreeze_stage (s : State) (t : Nat) (f : FreezeSt) : (s.setFreeze t f).stage = s.stage := rfl
@[simp] theorem State.setFreeze_free (s : State) (t : Nat) (f : FreezeSt) : (s.setFreeze t f).free = s.free := rfl
@[simp] theorem State.setFreeze_time (s : State) (t : Nat) (f : FreezeSt) : (s.setFreeze t f).time = s.time := rfl
@[simp] theorem State.setFreeze_trib (s : State) (t : Nat) (f : FreezeSt) : (s.setFreeze t f).trib = s.trib := rfl
@[simp] theorem State.setFreeze_eddy (s : State) (t : Nat) (f : FreezeSt) : (s.setFreeze t f).eddy = s.eddy := rfl
@[simp] theorem State.setFreeze_ve (s : State) (t : Nat) (f : FreezeSt) : (s.setFreeze t f).ve = s.ve := rfl
@[simp] theorem State.setFreeze_die (s : State) (t : Nat) (f : FreezeSt) : (s.setFreeze t f).die = s.die := rfl
@[simp] theorem State.setFreeze_dist (s : State) (t : Nat) (f : FreezeSt) : (s.setFreeze t f).dist = s.dist := rfl
@[simp] theorem State.setFreeze_cap (s : State) (t : Nat) (f : FreezeSt) : (s.setFreeze t f).cap = s.cap := rfl
@[simp] theorem State.setFreeze_slu (s : State) (t : Nat) (f : FreezeSt) : (s.setFreeze t f).slu = s.slu := rfl
@[simp] theorem State.setFreeze_braid (s : State) (t : Nat) (f : FreezeSt) : (s.setFreeze t f).braid = s.braid := rfl
@[simp] theorem State.setFreeze_head (s : State) (t : Nat) (f : FreezeSt) : (s.setFreeze t f).head = s.head := rfl
@[simp] theorem State.setFreeze_mem (s : State) (t : Nat) (f : FreezeSt) : (s.setFreeze t f).mem = s.mem := rfl
@[simp] theorem State.setFreeze_sec (s : State) (t : Nat) (f : FreezeSt) : (s.setFreeze t f).sec = s.sec := rfl
@[simp] theorem State.setFreeze_rel (s : State) (t : Nat) (f : FreezeSt) : (s.setFreeze t f).rel = s.rel := rfl
@[simp] theorem State.setFreeze_power (s : State) (t : Nat) (f : FreezeSt) : (s.setFreeze t f).power = s.power := rfl
@[simp] theorem State.setFreeze_mgmt (s : State) (t : Nat) (f : FreezeSt) : (s.setFreeze t f).mgmt = s.mgmt := rfl
@[simp] theorem State.setFreeze_pins (s : State) (t : Nat) (f : FreezeSt) : (s.setFreeze t f).pins = s.pins := rfl

@[simp] theorem State.setDieRec_pending (s : State) (x : DieRec) : (s.setDieRec x).pending = s.pending := rfl
@[simp] theorem State.setDieRec_fuse (s : State) (x : DieRec) : (s.setDieRec x).fuse = s.fuse := rfl
@[simp] theorem State.setDieRec_regs (s : State) (x : DieRec) : (s.setDieRec x).regs = s.regs := rfl
@[simp] theorem State.setDieRec_cnts (s : State) (x : DieRec) : (s.setDieRec x).cnts = s.cnts := rfl
@[simp] theorem State.setDieRec_stage (s : State) (x : DieRec) : (s.setDieRec x).stage = s.stage := rfl
@[simp] theorem State.setDieRec_free (s : State) (x : DieRec) : (s.setDieRec x).free = s.free := rfl
@[simp] theorem State.setDieRec_time (s : State) (x : DieRec) : (s.setDieRec x).time = s.time := rfl
@[simp] theorem State.setDieRec_trib (s : State) (x : DieRec) : (s.setDieRec x).trib = s.trib := rfl
@[simp] theorem State.setDieRec_weir (s : State) (x : DieRec) : (s.setDieRec x).weir = s.weir := rfl
@[simp] theorem State.setDieRec_eddy (s : State) (x : DieRec) : (s.setDieRec x).eddy = s.eddy := rfl
@[simp] theorem State.setDieRec_ve (s : State) (x : DieRec) : (s.setDieRec x).ve = s.ve := rfl
@[simp] theorem State.setDieRec_dist (s : State) (x : DieRec) : (s.setDieRec x).dist = s.dist := rfl
@[simp] theorem State.setDieRec_cap (s : State) (x : DieRec) : (s.setDieRec x).cap = s.cap := rfl
@[simp] theorem State.setDieRec_slu (s : State) (x : DieRec) : (s.setDieRec x).slu = s.slu := rfl
@[simp] theorem State.setDieRec_braid (s : State) (x : DieRec) : (s.setDieRec x).braid = s.braid := rfl
@[simp] theorem State.setDieRec_head (s : State) (x : DieRec) : (s.setDieRec x).head = s.head := rfl
@[simp] theorem State.setDieRec_mem (s : State) (x : DieRec) : (s.setDieRec x).mem = s.mem := rfl
@[simp] theorem State.setDieRec_sec (s : State) (x : DieRec) : (s.setDieRec x).sec = s.sec := rfl
@[simp] theorem State.setDieRec_rel (s : State) (x : DieRec) : (s.setDieRec x).rel = s.rel := rfl
@[simp] theorem State.setDieRec_power (s : State) (x : DieRec) : (s.setDieRec x).power = s.power := rfl
@[simp] theorem State.setDieRec_mgmt (s : State) (x : DieRec) : (s.setDieRec x).mgmt = s.mgmt := rfl
@[simp] theorem State.setDieRec_pins (s : State) (x : DieRec) : (s.setDieRec x).pins = s.pins := rfl

@[simp] theorem State.putIns_pending (s : State) (t : TileIns) : (s.putIns t).pending = s.pending := rfl
@[simp] theorem State.putIns_fuse (s : State) (t : TileIns) : (s.putIns t).fuse = s.fuse := rfl
@[simp] theorem State.putIns_regs (s : State) (t : TileIns) : (s.putIns t).regs = s.regs := rfl
@[simp] theorem State.putIns_cnts (s : State) (t : TileIns) : (s.putIns t).cnts = s.cnts := rfl
@[simp] theorem State.putIns_stage (s : State) (t : TileIns) : (s.putIns t).stage = s.stage := rfl
@[simp] theorem State.putIns_free (s : State) (t : TileIns) : (s.putIns t).free = s.free := rfl
@[simp] theorem State.putIns_time (s : State) (t : TileIns) : (s.putIns t).time = s.time := rfl
@[simp] theorem State.putIns_trib (s : State) (t : TileIns) : (s.putIns t).trib = s.trib := rfl
@[simp] theorem State.putIns_weir (s : State) (t : TileIns) : (s.putIns t).weir = s.weir := rfl
@[simp] theorem State.putIns_eddy (s : State) (t : TileIns) : (s.putIns t).eddy = s.eddy := rfl
@[simp] theorem State.putIns_ve (s : State) (t : TileIns) : (s.putIns t).ve = s.ve := rfl
@[simp] theorem State.putIns_dist (s : State) (t : TileIns) : (s.putIns t).dist = s.dist := rfl
@[simp] theorem State.putIns_cap (s : State) (t : TileIns) : (s.putIns t).cap = s.cap := rfl
@[simp] theorem State.putIns_slu (s : State) (t : TileIns) : (s.putIns t).slu = s.slu := rfl
@[simp] theorem State.putIns_braid (s : State) (t : TileIns) : (s.putIns t).braid = s.braid := rfl
@[simp] theorem State.putIns_head (s : State) (t : TileIns) : (s.putIns t).head = s.head := rfl
@[simp] theorem State.putIns_mem (s : State) (t : TileIns) : (s.putIns t).mem = s.mem := rfl
@[simp] theorem State.putIns_sec (s : State) (t : TileIns) : (s.putIns t).sec = s.sec := rfl
@[simp] theorem State.putIns_rel (s : State) (t : TileIns) : (s.putIns t).rel = s.rel := rfl
@[simp] theorem State.putIns_power (s : State) (t : TileIns) : (s.putIns t).power = s.power := rfl
@[simp] theorem State.putIns_mgmt (s : State) (t : TileIns) : (s.putIns t).mgmt = s.mgmt := rfl
@[simp] theorem State.putIns_pins (s : State) (t : TileIns) : (s.putIns t).pins = s.pins := rfl

@[simp] theorem State.setSettlement_pending (s : State) (x : Settlement) : (s.setSettlement x).pending = s.pending := rfl
@[simp] theorem State.setSettlement_fuse (s : State) (x : Settlement) : (s.setSettlement x).fuse = s.fuse := rfl
@[simp] theorem State.setSettlement_regs (s : State) (x : Settlement) : (s.setSettlement x).regs = s.regs := rfl
@[simp] theorem State.setSettlement_cnts (s : State) (x : Settlement) : (s.setSettlement x).cnts = s.cnts := rfl
@[simp] theorem State.setSettlement_stage (s : State) (x : Settlement) : (s.setSettlement x).stage = s.stage := rfl
@[simp] theorem State.setSettlement_free (s : State) (x : Settlement) : (s.setSettlement x).free = s.free := rfl
@[simp] theorem State.setSettlement_time (s : State) (x : Settlement) : (s.setSettlement x).time = s.time := rfl
@[simp] theorem State.setSettlement_trib (s : State) (x : Settlement) : (s.setSettlement x).trib = s.trib := rfl
@[simp] theorem State.setSettlement_weir (s : State) (x : Settlement) : (s.setSettlement x).weir = s.weir := rfl
@[simp] theorem State.setSettlement_eddy (s : State) (x : Settlement) : (s.setSettlement x).eddy = s.eddy := rfl
@[simp] theorem State.setSettlement_ve (s : State) (x : Settlement) : (s.setSettlement x).ve = s.ve := rfl
@[simp] theorem State.setSettlement_die (s : State) (x : Settlement) : (s.setSettlement x).die = s.die := rfl
@[simp] theorem State.setSettlement_cap (s : State) (x : Settlement) : (s.setSettlement x).cap = s.cap := rfl
@[simp] theorem State.setSettlement_slu (s : State) (x : Settlement) : (s.setSettlement x).slu = s.slu := rfl
@[simp] theorem State.setSettlement_braid (s : State) (x : Settlement) : (s.setSettlement x).braid = s.braid := rfl
@[simp] theorem State.setSettlement_head (s : State) (x : Settlement) : (s.setSettlement x).head = s.head := rfl
@[simp] theorem State.setSettlement_mem (s : State) (x : Settlement) : (s.setSettlement x).mem = s.mem := rfl
@[simp] theorem State.setSettlement_sec (s : State) (x : Settlement) : (s.setSettlement x).sec = s.sec := rfl
@[simp] theorem State.setSettlement_rel (s : State) (x : Settlement) : (s.setSettlement x).rel = s.rel := rfl
@[simp] theorem State.setSettlement_power (s : State) (x : Settlement) : (s.setSettlement x).power = s.power := rfl
@[simp] theorem State.setSettlement_mgmt (s : State) (x : Settlement) : (s.setSettlement x).mgmt = s.mgmt := rfl
@[simp] theorem State.setSettlement_pins (s : State) (x : Settlement) : (s.setSettlement x).pins = s.pins := rfl

@[simp] theorem State.setVe_pending (s : State) (h : Nat) (v : VeHub) : (s.setVe h v).pending = s.pending := rfl
@[simp] theorem State.setVe_fuse (s : State) (h : Nat) (v : VeHub) : (s.setVe h v).fuse = s.fuse := rfl
@[simp] theorem State.setVe_regs (s : State) (h : Nat) (v : VeHub) : (s.setVe h v).regs = s.regs := rfl
@[simp] theorem State.setVe_cnts (s : State) (h : Nat) (v : VeHub) : (s.setVe h v).cnts = s.cnts := rfl
@[simp] theorem State.setVe_stage (s : State) (h : Nat) (v : VeHub) : (s.setVe h v).stage = s.stage := rfl
@[simp] theorem State.setVe_free (s : State) (h : Nat) (v : VeHub) : (s.setVe h v).free = s.free := rfl
@[simp] theorem State.setVe_time (s : State) (h : Nat) (v : VeHub) : (s.setVe h v).time = s.time := rfl
@[simp] theorem State.setVe_trib (s : State) (h : Nat) (v : VeHub) : (s.setVe h v).trib = s.trib := rfl
@[simp] theorem State.setVe_weir (s : State) (h : Nat) (v : VeHub) : (s.setVe h v).weir = s.weir := rfl
@[simp] theorem State.setVe_eddy (s : State) (h : Nat) (v : VeHub) : (s.setVe h v).eddy = s.eddy := rfl
@[simp] theorem State.setVe_die (s : State) (h : Nat) (v : VeHub) : (s.setVe h v).die = s.die := rfl
@[simp] theorem State.setVe_dist (s : State) (h : Nat) (v : VeHub) : (s.setVe h v).dist = s.dist := rfl
@[simp] theorem State.setVe_cap (s : State) (h : Nat) (v : VeHub) : (s.setVe h v).cap = s.cap := rfl
@[simp] theorem State.setVe_slu (s : State) (h : Nat) (v : VeHub) : (s.setVe h v).slu = s.slu := rfl
@[simp] theorem State.setVe_braid (s : State) (h : Nat) (v : VeHub) : (s.setVe h v).braid = s.braid := rfl
@[simp] theorem State.setVe_head (s : State) (h : Nat) (v : VeHub) : (s.setVe h v).head = s.head := rfl
@[simp] theorem State.setVe_mem (s : State) (h : Nat) (v : VeHub) : (s.setVe h v).mem = s.mem := rfl
@[simp] theorem State.setVe_sec (s : State) (h : Nat) (v : VeHub) : (s.setVe h v).sec = s.sec := rfl
@[simp] theorem State.setVe_rel (s : State) (h : Nat) (v : VeHub) : (s.setVe h v).rel = s.rel := rfl
@[simp] theorem State.setVe_power (s : State) (h : Nat) (v : VeHub) : (s.setVe h v).power = s.power := rfl
@[simp] theorem State.setVe_mgmt (s : State) (h : Nat) (v : VeHub) : (s.setVe h v).mgmt = s.mgmt := rfl
@[simp] theorem State.setVe_pins (s : State) (h : Nat) (v : VeHub) : (s.setVe h v).pins = s.pins := rfl

@[simp] theorem State.setCap_pending (s : State) (t : Nat) (c : CapSt) : (s.setCap t c).pending = s.pending := rfl
@[simp] theorem State.setCap_fuse (s : State) (t : Nat) (c : CapSt) : (s.setCap t c).fuse = s.fuse := rfl
@[simp] theorem State.setCap_regs (s : State) (t : Nat) (c : CapSt) : (s.setCap t c).regs = s.regs := rfl
@[simp] theorem State.setCap_cnts (s : State) (t : Nat) (c : CapSt) : (s.setCap t c).cnts = s.cnts := rfl
@[simp] theorem State.setCap_stage (s : State) (t : Nat) (c : CapSt) : (s.setCap t c).stage = s.stage := rfl
@[simp] theorem State.setCap_free (s : State) (t : Nat) (c : CapSt) : (s.setCap t c).free = s.free := rfl
@[simp] theorem State.setCap_time (s : State) (t : Nat) (c : CapSt) : (s.setCap t c).time = s.time := rfl
@[simp] theorem State.setCap_trib (s : State) (t : Nat) (c : CapSt) : (s.setCap t c).trib = s.trib := rfl
@[simp] theorem State.setCap_weir (s : State) (t : Nat) (c : CapSt) : (s.setCap t c).weir = s.weir := rfl
@[simp] theorem State.setCap_eddy (s : State) (t : Nat) (c : CapSt) : (s.setCap t c).eddy = s.eddy := rfl
@[simp] theorem State.setCap_ve (s : State) (t : Nat) (c : CapSt) : (s.setCap t c).ve = s.ve := rfl
@[simp] theorem State.setCap_die (s : State) (t : Nat) (c : CapSt) : (s.setCap t c).die = s.die := rfl
@[simp] theorem State.setCap_dist (s : State) (t : Nat) (c : CapSt) : (s.setCap t c).dist = s.dist := rfl
@[simp] theorem State.setCap_slu (s : State) (t : Nat) (c : CapSt) : (s.setCap t c).slu = s.slu := rfl
@[simp] theorem State.setCap_braid (s : State) (t : Nat) (c : CapSt) : (s.setCap t c).braid = s.braid := rfl
@[simp] theorem State.setCap_head (s : State) (t : Nat) (c : CapSt) : (s.setCap t c).head = s.head := rfl
@[simp] theorem State.setCap_mem (s : State) (t : Nat) (c : CapSt) : (s.setCap t c).mem = s.mem := rfl
@[simp] theorem State.setCap_sec (s : State) (t : Nat) (c : CapSt) : (s.setCap t c).sec = s.sec := rfl
@[simp] theorem State.setCap_rel (s : State) (t : Nat) (c : CapSt) : (s.setCap t c).rel = s.rel := rfl
@[simp] theorem State.setCap_power (s : State) (t : Nat) (c : CapSt) : (s.setCap t c).power = s.power := rfl
@[simp] theorem State.setCap_mgmt (s : State) (t : Nat) (c : CapSt) : (s.setCap t c).mgmt = s.mgmt := rfl
@[simp] theorem State.setCap_pins (s : State) (t : Nat) (c : CapSt) : (s.setCap t c).pins = s.pins := rfl

@[simp] theorem State.setBar_pending (s : State) (b : Nat) (x : Barrier) : (s.setBar b x).pending = s.pending := rfl
@[simp] theorem State.setBar_fuse (s : State) (b : Nat) (x : Barrier) : (s.setBar b x).fuse = s.fuse := rfl
@[simp] theorem State.setBar_regs (s : State) (b : Nat) (x : Barrier) : (s.setBar b x).regs = s.regs := rfl
@[simp] theorem State.setBar_cnts (s : State) (b : Nat) (x : Barrier) : (s.setBar b x).cnts = s.cnts := rfl
@[simp] theorem State.setBar_stage (s : State) (b : Nat) (x : Barrier) : (s.setBar b x).stage = s.stage := rfl
@[simp] theorem State.setBar_free (s : State) (b : Nat) (x : Barrier) : (s.setBar b x).free = s.free := rfl
@[simp] theorem State.setBar_time (s : State) (b : Nat) (x : Barrier) : (s.setBar b x).time = s.time := rfl
@[simp] theorem State.setBar_trib (s : State) (b : Nat) (x : Barrier) : (s.setBar b x).trib = s.trib := rfl
@[simp] theorem State.setBar_weir (s : State) (b : Nat) (x : Barrier) : (s.setBar b x).weir = s.weir := rfl
@[simp] theorem State.setBar_eddy (s : State) (b : Nat) (x : Barrier) : (s.setBar b x).eddy = s.eddy := rfl
@[simp] theorem State.setBar_ve (s : State) (b : Nat) (x : Barrier) : (s.setBar b x).ve = s.ve := rfl
@[simp] theorem State.setBar_die (s : State) (b : Nat) (x : Barrier) : (s.setBar b x).die = s.die := rfl
@[simp] theorem State.setBar_dist (s : State) (b : Nat) (x : Barrier) : (s.setBar b x).dist = s.dist := rfl
@[simp] theorem State.setBar_cap (s : State) (b : Nat) (x : Barrier) : (s.setBar b x).cap = s.cap := rfl
@[simp] theorem State.setBar_braid (s : State) (b : Nat) (x : Barrier) : (s.setBar b x).braid = s.braid := rfl
@[simp] theorem State.setBar_head (s : State) (b : Nat) (x : Barrier) : (s.setBar b x).head = s.head := rfl
@[simp] theorem State.setBar_mem (s : State) (b : Nat) (x : Barrier) : (s.setBar b x).mem = s.mem := rfl
@[simp] theorem State.setBar_sec (s : State) (b : Nat) (x : Barrier) : (s.setBar b x).sec = s.sec := rfl
@[simp] theorem State.setBar_rel (s : State) (b : Nat) (x : Barrier) : (s.setBar b x).rel = s.rel := rfl
@[simp] theorem State.setBar_power (s : State) (b : Nat) (x : Barrier) : (s.setBar b x).power = s.power := rfl
@[simp] theorem State.setBar_mgmt (s : State) (b : Nat) (x : Barrier) : (s.setBar b x).mgmt = s.mgmt := rfl
@[simp] theorem State.setBar_pins (s : State) (b : Nat) (x : Barrier) : (s.setBar b x).pins = s.pins := rfl

@[simp] theorem State.setQue_pending (s : State) (q : Nat) (x : SlQueue) : (s.setQue q x).pending = s.pending := rfl
@[simp] theorem State.setQue_fuse (s : State) (q : Nat) (x : SlQueue) : (s.setQue q x).fuse = s.fuse := rfl
@[simp] theorem State.setQue_regs (s : State) (q : Nat) (x : SlQueue) : (s.setQue q x).regs = s.regs := rfl
@[simp] theorem State.setQue_cnts (s : State) (q : Nat) (x : SlQueue) : (s.setQue q x).cnts = s.cnts := rfl
@[simp] theorem State.setQue_stage (s : State) (q : Nat) (x : SlQueue) : (s.setQue q x).stage = s.stage := rfl
@[simp] theorem State.setQue_free (s : State) (q : Nat) (x : SlQueue) : (s.setQue q x).free = s.free := rfl
@[simp] theorem State.setQue_time (s : State) (q : Nat) (x : SlQueue) : (s.setQue q x).time = s.time := rfl
@[simp] theorem State.setQue_trib (s : State) (q : Nat) (x : SlQueue) : (s.setQue q x).trib = s.trib := rfl
@[simp] theorem State.setQue_weir (s : State) (q : Nat) (x : SlQueue) : (s.setQue q x).weir = s.weir := rfl
@[simp] theorem State.setQue_eddy (s : State) (q : Nat) (x : SlQueue) : (s.setQue q x).eddy = s.eddy := rfl
@[simp] theorem State.setQue_ve (s : State) (q : Nat) (x : SlQueue) : (s.setQue q x).ve = s.ve := rfl
@[simp] theorem State.setQue_die (s : State) (q : Nat) (x : SlQueue) : (s.setQue q x).die = s.die := rfl
@[simp] theorem State.setQue_dist (s : State) (q : Nat) (x : SlQueue) : (s.setQue q x).dist = s.dist := rfl
@[simp] theorem State.setQue_cap (s : State) (q : Nat) (x : SlQueue) : (s.setQue q x).cap = s.cap := rfl
@[simp] theorem State.setQue_braid (s : State) (q : Nat) (x : SlQueue) : (s.setQue q x).braid = s.braid := rfl
@[simp] theorem State.setQue_head (s : State) (q : Nat) (x : SlQueue) : (s.setQue q x).head = s.head := rfl
@[simp] theorem State.setQue_mem (s : State) (q : Nat) (x : SlQueue) : (s.setQue q x).mem = s.mem := rfl
@[simp] theorem State.setQue_sec (s : State) (q : Nat) (x : SlQueue) : (s.setQue q x).sec = s.sec := rfl
@[simp] theorem State.setQue_rel (s : State) (q : Nat) (x : SlQueue) : (s.setQue q x).rel = s.rel := rfl
@[simp] theorem State.setQue_power (s : State) (q : Nat) (x : SlQueue) : (s.setQue q x).power = s.power := rfl
@[simp] theorem State.setQue_mgmt (s : State) (q : Nat) (x : SlQueue) : (s.setQue q x).mgmt = s.mgmt := rfl
@[simp] theorem State.setQue_pins (s : State) (q : Nat) (x : SlQueue) : (s.setQue q x).pins = s.pins := rfl

@[simp] theorem State.setSem_pending (s : State) (i : Nat) (x : Sem) : (s.setSem i x).pending = s.pending := rfl
@[simp] theorem State.setSem_fuse (s : State) (i : Nat) (x : Sem) : (s.setSem i x).fuse = s.fuse := rfl
@[simp] theorem State.setSem_regs (s : State) (i : Nat) (x : Sem) : (s.setSem i x).regs = s.regs := rfl
@[simp] theorem State.setSem_cnts (s : State) (i : Nat) (x : Sem) : (s.setSem i x).cnts = s.cnts := rfl
@[simp] theorem State.setSem_stage (s : State) (i : Nat) (x : Sem) : (s.setSem i x).stage = s.stage := rfl
@[simp] theorem State.setSem_free (s : State) (i : Nat) (x : Sem) : (s.setSem i x).free = s.free := rfl
@[simp] theorem State.setSem_time (s : State) (i : Nat) (x : Sem) : (s.setSem i x).time = s.time := rfl
@[simp] theorem State.setSem_trib (s : State) (i : Nat) (x : Sem) : (s.setSem i x).trib = s.trib := rfl
@[simp] theorem State.setSem_weir (s : State) (i : Nat) (x : Sem) : (s.setSem i x).weir = s.weir := rfl
@[simp] theorem State.setSem_eddy (s : State) (i : Nat) (x : Sem) : (s.setSem i x).eddy = s.eddy := rfl
@[simp] theorem State.setSem_ve (s : State) (i : Nat) (x : Sem) : (s.setSem i x).ve = s.ve := rfl
@[simp] theorem State.setSem_die (s : State) (i : Nat) (x : Sem) : (s.setSem i x).die = s.die := rfl
@[simp] theorem State.setSem_dist (s : State) (i : Nat) (x : Sem) : (s.setSem i x).dist = s.dist := rfl
@[simp] theorem State.setSem_cap (s : State) (i : Nat) (x : Sem) : (s.setSem i x).cap = s.cap := rfl
@[simp] theorem State.setSem_braid (s : State) (i : Nat) (x : Sem) : (s.setSem i x).braid = s.braid := rfl
@[simp] theorem State.setSem_head (s : State) (i : Nat) (x : Sem) : (s.setSem i x).head = s.head := rfl
@[simp] theorem State.setSem_mem (s : State) (i : Nat) (x : Sem) : (s.setSem i x).mem = s.mem := rfl
@[simp] theorem State.setSem_sec (s : State) (i : Nat) (x : Sem) : (s.setSem i x).sec = s.sec := rfl
@[simp] theorem State.setSem_rel (s : State) (i : Nat) (x : Sem) : (s.setSem i x).rel = s.rel := rfl
@[simp] theorem State.setSem_power (s : State) (i : Nat) (x : Sem) : (s.setSem i x).power = s.power := rfl
@[simp] theorem State.setSem_mgmt (s : State) (i : Nat) (x : Sem) : (s.setSem i x).mgmt = s.mgmt := rfl
@[simp] theorem State.setSem_pins (s : State) (i : Nat) (x : Sem) : (s.setSem i x).pins = s.pins := rfl

@[simp] theorem State.setBrPort_pending (s : State) (b : Nat) (x : BrPort) : (s.setBrPort b x).pending = s.pending := rfl
@[simp] theorem State.setBrPort_fuse (s : State) (b : Nat) (x : BrPort) : (s.setBrPort b x).fuse = s.fuse := rfl
@[simp] theorem State.setBrPort_regs (s : State) (b : Nat) (x : BrPort) : (s.setBrPort b x).regs = s.regs := rfl
@[simp] theorem State.setBrPort_cnts (s : State) (b : Nat) (x : BrPort) : (s.setBrPort b x).cnts = s.cnts := rfl
@[simp] theorem State.setBrPort_stage (s : State) (b : Nat) (x : BrPort) : (s.setBrPort b x).stage = s.stage := rfl
@[simp] theorem State.setBrPort_free (s : State) (b : Nat) (x : BrPort) : (s.setBrPort b x).free = s.free := rfl
@[simp] theorem State.setBrPort_time (s : State) (b : Nat) (x : BrPort) : (s.setBrPort b x).time = s.time := rfl
@[simp] theorem State.setBrPort_trib (s : State) (b : Nat) (x : BrPort) : (s.setBrPort b x).trib = s.trib := rfl
@[simp] theorem State.setBrPort_weir (s : State) (b : Nat) (x : BrPort) : (s.setBrPort b x).weir = s.weir := rfl
@[simp] theorem State.setBrPort_eddy (s : State) (b : Nat) (x : BrPort) : (s.setBrPort b x).eddy = s.eddy := rfl
@[simp] theorem State.setBrPort_ve (s : State) (b : Nat) (x : BrPort) : (s.setBrPort b x).ve = s.ve := rfl
@[simp] theorem State.setBrPort_die (s : State) (b : Nat) (x : BrPort) : (s.setBrPort b x).die = s.die := rfl
@[simp] theorem State.setBrPort_dist (s : State) (b : Nat) (x : BrPort) : (s.setBrPort b x).dist = s.dist := rfl
@[simp] theorem State.setBrPort_cap (s : State) (b : Nat) (x : BrPort) : (s.setBrPort b x).cap = s.cap := rfl
@[simp] theorem State.setBrPort_slu (s : State) (b : Nat) (x : BrPort) : (s.setBrPort b x).slu = s.slu := rfl
@[simp] theorem State.setBrPort_head (s : State) (b : Nat) (x : BrPort) : (s.setBrPort b x).head = s.head := rfl
@[simp] theorem State.setBrPort_mem (s : State) (b : Nat) (x : BrPort) : (s.setBrPort b x).mem = s.mem := rfl
@[simp] theorem State.setBrPort_sec (s : State) (b : Nat) (x : BrPort) : (s.setBrPort b x).sec = s.sec := rfl
@[simp] theorem State.setBrPort_rel (s : State) (b : Nat) (x : BrPort) : (s.setBrPort b x).rel = s.rel := rfl
@[simp] theorem State.setBrPort_power (s : State) (b : Nat) (x : BrPort) : (s.setBrPort b x).power = s.power := rfl
@[simp] theorem State.setBrPort_mgmt (s : State) (b : Nat) (x : BrPort) : (s.setBrPort b x).mgmt = s.mgmt := rfl
@[simp] theorem State.setBrPort_pins (s : State) (b : Nat) (x : BrPort) : (s.setBrPort b x).pins = s.pins := rfl

@[simp] theorem State.putXfer_pending (s : State) (x : McXfer) : (s.putXfer x).pending = s.pending := rfl
@[simp] theorem State.putXfer_fuse (s : State) (x : McXfer) : (s.putXfer x).fuse = s.fuse := rfl
@[simp] theorem State.putXfer_regs (s : State) (x : McXfer) : (s.putXfer x).regs = s.regs := rfl
@[simp] theorem State.putXfer_cnts (s : State) (x : McXfer) : (s.putXfer x).cnts = s.cnts := rfl
@[simp] theorem State.putXfer_stage (s : State) (x : McXfer) : (s.putXfer x).stage = s.stage := rfl
@[simp] theorem State.putXfer_free (s : State) (x : McXfer) : (s.putXfer x).free = s.free := rfl
@[simp] theorem State.putXfer_time (s : State) (x : McXfer) : (s.putXfer x).time = s.time := rfl
@[simp] theorem State.putXfer_trib (s : State) (x : McXfer) : (s.putXfer x).trib = s.trib := rfl
@[simp] theorem State.putXfer_weir (s : State) (x : McXfer) : (s.putXfer x).weir = s.weir := rfl
@[simp] theorem State.putXfer_eddy (s : State) (x : McXfer) : (s.putXfer x).eddy = s.eddy := rfl
@[simp] theorem State.putXfer_ve (s : State) (x : McXfer) : (s.putXfer x).ve = s.ve := rfl
@[simp] theorem State.putXfer_die (s : State) (x : McXfer) : (s.putXfer x).die = s.die := rfl
@[simp] theorem State.putXfer_dist (s : State) (x : McXfer) : (s.putXfer x).dist = s.dist := rfl
@[simp] theorem State.putXfer_cap (s : State) (x : McXfer) : (s.putXfer x).cap = s.cap := rfl
@[simp] theorem State.putXfer_slu (s : State) (x : McXfer) : (s.putXfer x).slu = s.slu := rfl
@[simp] theorem State.putXfer_head (s : State) (x : McXfer) : (s.putXfer x).head = s.head := rfl
@[simp] theorem State.putXfer_mem (s : State) (x : McXfer) : (s.putXfer x).mem = s.mem := rfl
@[simp] theorem State.putXfer_sec (s : State) (x : McXfer) : (s.putXfer x).sec = s.sec := rfl
@[simp] theorem State.putXfer_rel (s : State) (x : McXfer) : (s.putXfer x).rel = s.rel := rfl
@[simp] theorem State.putXfer_power (s : State) (x : McXfer) : (s.putXfer x).power = s.power := rfl
@[simp] theorem State.putXfer_mgmt (s : State) (x : McXfer) : (s.putXfer x).mgmt = s.mgmt := rfl
@[simp] theorem State.putXfer_pins (s : State) (x : McXfer) : (s.putXfer x).pins = s.pins := rfl

@[simp] theorem State.dropXfer_pending (s : State) (sender transfer : Nat) : (s.dropXfer sender transfer).pending = s.pending := rfl
@[simp] theorem State.dropXfer_fuse (s : State) (sender transfer : Nat) : (s.dropXfer sender transfer).fuse = s.fuse := rfl
@[simp] theorem State.dropXfer_regs (s : State) (sender transfer : Nat) : (s.dropXfer sender transfer).regs = s.regs := rfl
@[simp] theorem State.dropXfer_cnts (s : State) (sender transfer : Nat) : (s.dropXfer sender transfer).cnts = s.cnts := rfl
@[simp] theorem State.dropXfer_stage (s : State) (sender transfer : Nat) : (s.dropXfer sender transfer).stage = s.stage := rfl
@[simp] theorem State.dropXfer_free (s : State) (sender transfer : Nat) : (s.dropXfer sender transfer).free = s.free := rfl
@[simp] theorem State.dropXfer_time (s : State) (sender transfer : Nat) : (s.dropXfer sender transfer).time = s.time := rfl
@[simp] theorem State.dropXfer_trib (s : State) (sender transfer : Nat) : (s.dropXfer sender transfer).trib = s.trib := rfl
@[simp] theorem State.dropXfer_weir (s : State) (sender transfer : Nat) : (s.dropXfer sender transfer).weir = s.weir := rfl
@[simp] theorem State.dropXfer_eddy (s : State) (sender transfer : Nat) : (s.dropXfer sender transfer).eddy = s.eddy := rfl
@[simp] theorem State.dropXfer_ve (s : State) (sender transfer : Nat) : (s.dropXfer sender transfer).ve = s.ve := rfl
@[simp] theorem State.dropXfer_die (s : State) (sender transfer : Nat) : (s.dropXfer sender transfer).die = s.die := rfl
@[simp] theorem State.dropXfer_dist (s : State) (sender transfer : Nat) : (s.dropXfer sender transfer).dist = s.dist := rfl
@[simp] theorem State.dropXfer_cap (s : State) (sender transfer : Nat) : (s.dropXfer sender transfer).cap = s.cap := rfl
@[simp] theorem State.dropXfer_slu (s : State) (sender transfer : Nat) : (s.dropXfer sender transfer).slu = s.slu := rfl
@[simp] theorem State.dropXfer_head (s : State) (sender transfer : Nat) : (s.dropXfer sender transfer).head = s.head := rfl
@[simp] theorem State.dropXfer_mem (s : State) (sender transfer : Nat) : (s.dropXfer sender transfer).mem = s.mem := rfl
@[simp] theorem State.dropXfer_sec (s : State) (sender transfer : Nat) : (s.dropXfer sender transfer).sec = s.sec := rfl
@[simp] theorem State.dropXfer_rel (s : State) (sender transfer : Nat) : (s.dropXfer sender transfer).rel = s.rel := rfl
@[simp] theorem State.dropXfer_power (s : State) (sender transfer : Nat) : (s.dropXfer sender transfer).power = s.power := rfl
@[simp] theorem State.dropXfer_mgmt (s : State) (sender transfer : Nat) : (s.dropXfer sender transfer).mgmt = s.mgmt := rfl
@[simp] theorem State.dropXfer_pins (s : State) (sender transfer : Nat) : (s.dropXfer sender transfer).pins = s.pins := rfl

@[simp] theorem State.setHwT_pending (s : State) (t : Nat) (h : HwTenant) : (s.setHwT t h).pending = s.pending := rfl
@[simp] theorem State.setHwT_fuse (s : State) (t : Nat) (h : HwTenant) : (s.setHwT t h).fuse = s.fuse := rfl
@[simp] theorem State.setHwT_regs (s : State) (t : Nat) (h : HwTenant) : (s.setHwT t h).regs = s.regs := rfl
@[simp] theorem State.setHwT_cnts (s : State) (t : Nat) (h : HwTenant) : (s.setHwT t h).cnts = s.cnts := rfl
@[simp] theorem State.setHwT_stage (s : State) (t : Nat) (h : HwTenant) : (s.setHwT t h).stage = s.stage := rfl
@[simp] theorem State.setHwT_free (s : State) (t : Nat) (h : HwTenant) : (s.setHwT t h).free = s.free := rfl
@[simp] theorem State.setHwT_time (s : State) (t : Nat) (h : HwTenant) : (s.setHwT t h).time = s.time := rfl
@[simp] theorem State.setHwT_trib (s : State) (t : Nat) (h : HwTenant) : (s.setHwT t h).trib = s.trib := rfl
@[simp] theorem State.setHwT_weir (s : State) (t : Nat) (h : HwTenant) : (s.setHwT t h).weir = s.weir := rfl
@[simp] theorem State.setHwT_eddy (s : State) (t : Nat) (h : HwTenant) : (s.setHwT t h).eddy = s.eddy := rfl
@[simp] theorem State.setHwT_ve (s : State) (t : Nat) (h : HwTenant) : (s.setHwT t h).ve = s.ve := rfl
@[simp] theorem State.setHwT_die (s : State) (t : Nat) (h : HwTenant) : (s.setHwT t h).die = s.die := rfl
@[simp] theorem State.setHwT_dist (s : State) (t : Nat) (h : HwTenant) : (s.setHwT t h).dist = s.dist := rfl
@[simp] theorem State.setHwT_cap (s : State) (t : Nat) (h : HwTenant) : (s.setHwT t h).cap = s.cap := rfl
@[simp] theorem State.setHwT_slu (s : State) (t : Nat) (h : HwTenant) : (s.setHwT t h).slu = s.slu := rfl
@[simp] theorem State.setHwT_braid (s : State) (t : Nat) (h : HwTenant) : (s.setHwT t h).braid = s.braid := rfl
@[simp] theorem State.setHwT_mem (s : State) (t : Nat) (h : HwTenant) : (s.setHwT t h).mem = s.mem := rfl
@[simp] theorem State.setHwT_sec (s : State) (t : Nat) (h : HwTenant) : (s.setHwT t h).sec = s.sec := rfl
@[simp] theorem State.setHwT_rel (s : State) (t : Nat) (h : HwTenant) : (s.setHwT t h).rel = s.rel := rfl
@[simp] theorem State.setHwT_power (s : State) (t : Nat) (h : HwTenant) : (s.setHwT t h).power = s.power := rfl
@[simp] theorem State.setHwT_mgmt (s : State) (t : Nat) (h : HwTenant) : (s.setHwT t h).mgmt = s.mgmt := rfl
@[simp] theorem State.setHwT_pins (s : State) (t : Nat) (h : HwTenant) : (s.setHwT t h).pins = s.pins := rfl

@[simp] theorem State.toStep_pending (s : State) (n : Nat) : (s.toStep n).pending = s.pending := rfl
@[simp] theorem State.toStep_fuse (s : State) (n : Nat) : (s.toStep n).fuse = s.fuse := rfl
@[simp] theorem State.toStep_regs (s : State) (n : Nat) : (s.toStep n).regs = s.regs := rfl
@[simp] theorem State.toStep_cnts (s : State) (n : Nat) : (s.toStep n).cnts = s.cnts := rfl
@[simp] theorem State.toStep_stage (s : State) (n : Nat) : (s.toStep n).stage = s.stage := rfl
@[simp] theorem State.toStep_free (s : State) (n : Nat) : (s.toStep n).free = s.free := rfl
@[simp] theorem State.toStep_time (s : State) (n : Nat) : (s.toStep n).time = s.time := rfl
@[simp] theorem State.toStep_trib (s : State) (n : Nat) : (s.toStep n).trib = s.trib := rfl
@[simp] theorem State.toStep_weir (s : State) (n : Nat) : (s.toStep n).weir = s.weir := rfl
@[simp] theorem State.toStep_eddy (s : State) (n : Nat) : (s.toStep n).eddy = s.eddy := rfl
@[simp] theorem State.toStep_ve (s : State) (n : Nat) : (s.toStep n).ve = s.ve := rfl
@[simp] theorem State.toStep_die (s : State) (n : Nat) : (s.toStep n).die = s.die := rfl
@[simp] theorem State.toStep_dist (s : State) (n : Nat) : (s.toStep n).dist = s.dist := rfl
@[simp] theorem State.toStep_cap (s : State) (n : Nat) : (s.toStep n).cap = s.cap := rfl
@[simp] theorem State.toStep_slu (s : State) (n : Nat) : (s.toStep n).slu = s.slu := rfl
@[simp] theorem State.toStep_braid (s : State) (n : Nat) : (s.toStep n).braid = s.braid := rfl
@[simp] theorem State.toStep_mem (s : State) (n : Nat) : (s.toStep n).mem = s.mem := rfl
@[simp] theorem State.toStep_sec (s : State) (n : Nat) : (s.toStep n).sec = s.sec := rfl
@[simp] theorem State.toStep_rel (s : State) (n : Nat) : (s.toStep n).rel = s.rel := rfl
@[simp] theorem State.toStep_power (s : State) (n : Nat) : (s.toStep n).power = s.power := rfl
@[simp] theorem State.toStep_mgmt (s : State) (n : Nat) : (s.toStep n).mgmt = s.mgmt := rfl
@[simp] theorem State.toStep_pins (s : State) (n : Nat) : (s.toStep n).pins = s.pins := rfl

@[simp] theorem State.memOut_pending (s : State) (reader addr outcome : Nat) (b : List Byte) : (s.memOut reader addr outcome b).pending = s.pending := rfl
@[simp] theorem State.memOut_fuse (s : State) (reader addr outcome : Nat) (b : List Byte) : (s.memOut reader addr outcome b).fuse = s.fuse := rfl
@[simp] theorem State.memOut_regs (s : State) (reader addr outcome : Nat) (b : List Byte) : (s.memOut reader addr outcome b).regs = s.regs := rfl
@[simp] theorem State.memOut_cnts (s : State) (reader addr outcome : Nat) (b : List Byte) : (s.memOut reader addr outcome b).cnts = s.cnts := rfl
@[simp] theorem State.memOut_stage (s : State) (reader addr outcome : Nat) (b : List Byte) : (s.memOut reader addr outcome b).stage = s.stage := rfl
@[simp] theorem State.memOut_free (s : State) (reader addr outcome : Nat) (b : List Byte) : (s.memOut reader addr outcome b).free = s.free := rfl
@[simp] theorem State.memOut_time (s : State) (reader addr outcome : Nat) (b : List Byte) : (s.memOut reader addr outcome b).time = s.time := rfl
@[simp] theorem State.memOut_trib (s : State) (reader addr outcome : Nat) (b : List Byte) : (s.memOut reader addr outcome b).trib = s.trib := rfl
@[simp] theorem State.memOut_weir (s : State) (reader addr outcome : Nat) (b : List Byte) : (s.memOut reader addr outcome b).weir = s.weir := rfl
@[simp] theorem State.memOut_eddy (s : State) (reader addr outcome : Nat) (b : List Byte) : (s.memOut reader addr outcome b).eddy = s.eddy := rfl
@[simp] theorem State.memOut_ve (s : State) (reader addr outcome : Nat) (b : List Byte) : (s.memOut reader addr outcome b).ve = s.ve := rfl
@[simp] theorem State.memOut_die (s : State) (reader addr outcome : Nat) (b : List Byte) : (s.memOut reader addr outcome b).die = s.die := rfl
@[simp] theorem State.memOut_dist (s : State) (reader addr outcome : Nat) (b : List Byte) : (s.memOut reader addr outcome b).dist = s.dist := rfl
@[simp] theorem State.memOut_cap (s : State) (reader addr outcome : Nat) (b : List Byte) : (s.memOut reader addr outcome b).cap = s.cap := rfl
@[simp] theorem State.memOut_slu (s : State) (reader addr outcome : Nat) (b : List Byte) : (s.memOut reader addr outcome b).slu = s.slu := rfl
@[simp] theorem State.memOut_braid (s : State) (reader addr outcome : Nat) (b : List Byte) : (s.memOut reader addr outcome b).braid = s.braid := rfl
@[simp] theorem State.memOut_head (s : State) (reader addr outcome : Nat) (b : List Byte) : (s.memOut reader addr outcome b).head = s.head := rfl
@[simp] theorem State.memOut_sec (s : State) (reader addr outcome : Nat) (b : List Byte) : (s.memOut reader addr outcome b).sec = s.sec := rfl
@[simp] theorem State.memOut_rel (s : State) (reader addr outcome : Nat) (b : List Byte) : (s.memOut reader addr outcome b).rel = s.rel := rfl
@[simp] theorem State.memOut_power (s : State) (reader addr outcome : Nat) (b : List Byte) : (s.memOut reader addr outcome b).power = s.power := rfl
@[simp] theorem State.memOut_mgmt (s : State) (reader addr outcome : Nat) (b : List Byte) : (s.memOut reader addr outcome b).mgmt = s.mgmt := rfl
@[simp] theorem State.memOut_pins (s : State) (reader addr outcome : Nat) (b : List Byte) : (s.memOut reader addr outcome b).pins = s.pins := rfl

@[simp] theorem State.setTile_pending (s : State) (d t : Nat) (u : UnitSt) : (s.setTile d t u).pending = s.pending := rfl
@[simp] theorem State.setTile_fuse (s : State) (d t : Nat) (u : UnitSt) : (s.setTile d t u).fuse = s.fuse := rfl
@[simp] theorem State.setTile_regs (s : State) (d t : Nat) (u : UnitSt) : (s.setTile d t u).regs = s.regs := rfl
@[simp] theorem State.setTile_cnts (s : State) (d t : Nat) (u : UnitSt) : (s.setTile d t u).cnts = s.cnts := rfl
@[simp] theorem State.setTile_stage (s : State) (d t : Nat) (u : UnitSt) : (s.setTile d t u).stage = s.stage := rfl
@[simp] theorem State.setTile_free (s : State) (d t : Nat) (u : UnitSt) : (s.setTile d t u).free = s.free := rfl
@[simp] theorem State.setTile_time (s : State) (d t : Nat) (u : UnitSt) : (s.setTile d t u).time = s.time := rfl
@[simp] theorem State.setTile_trib (s : State) (d t : Nat) (u : UnitSt) : (s.setTile d t u).trib = s.trib := rfl
@[simp] theorem State.setTile_weir (s : State) (d t : Nat) (u : UnitSt) : (s.setTile d t u).weir = s.weir := rfl
@[simp] theorem State.setTile_eddy (s : State) (d t : Nat) (u : UnitSt) : (s.setTile d t u).eddy = s.eddy := rfl
@[simp] theorem State.setTile_ve (s : State) (d t : Nat) (u : UnitSt) : (s.setTile d t u).ve = s.ve := rfl
@[simp] theorem State.setTile_die (s : State) (d t : Nat) (u : UnitSt) : (s.setTile d t u).die = s.die := rfl
@[simp] theorem State.setTile_dist (s : State) (d t : Nat) (u : UnitSt) : (s.setTile d t u).dist = s.dist := rfl
@[simp] theorem State.setTile_cap (s : State) (d t : Nat) (u : UnitSt) : (s.setTile d t u).cap = s.cap := rfl
@[simp] theorem State.setTile_slu (s : State) (d t : Nat) (u : UnitSt) : (s.setTile d t u).slu = s.slu := rfl
@[simp] theorem State.setTile_braid (s : State) (d t : Nat) (u : UnitSt) : (s.setTile d t u).braid = s.braid := rfl
@[simp] theorem State.setTile_head (s : State) (d t : Nat) (u : UnitSt) : (s.setTile d t u).head = s.head := rfl
@[simp] theorem State.setTile_mem (s : State) (d t : Nat) (u : UnitSt) : (s.setTile d t u).mem = s.mem := rfl
@[simp] theorem State.setTile_sec (s : State) (d t : Nat) (u : UnitSt) : (s.setTile d t u).sec = s.sec := rfl
@[simp] theorem State.setTile_power (s : State) (d t : Nat) (u : UnitSt) : (s.setTile d t u).power = s.power := rfl
@[simp] theorem State.setTile_mgmt (s : State) (d t : Nat) (u : UnitSt) : (s.setTile d t u).mgmt = s.mgmt := rfl
@[simp] theorem State.setTile_pins (s : State) (d t : Nat) (u : UnitSt) : (s.setTile d t u).pins = s.pins := rfl

@[simp] theorem State.setMu_pending (s : State) (d m : Nat) (u : UnitSt) : (s.setMu d m u).pending = s.pending := rfl
@[simp] theorem State.setMu_fuse (s : State) (d m : Nat) (u : UnitSt) : (s.setMu d m u).fuse = s.fuse := rfl
@[simp] theorem State.setMu_regs (s : State) (d m : Nat) (u : UnitSt) : (s.setMu d m u).regs = s.regs := rfl
@[simp] theorem State.setMu_cnts (s : State) (d m : Nat) (u : UnitSt) : (s.setMu d m u).cnts = s.cnts := rfl
@[simp] theorem State.setMu_stage (s : State) (d m : Nat) (u : UnitSt) : (s.setMu d m u).stage = s.stage := rfl
@[simp] theorem State.setMu_free (s : State) (d m : Nat) (u : UnitSt) : (s.setMu d m u).free = s.free := rfl
@[simp] theorem State.setMu_time (s : State) (d m : Nat) (u : UnitSt) : (s.setMu d m u).time = s.time := rfl
@[simp] theorem State.setMu_trib (s : State) (d m : Nat) (u : UnitSt) : (s.setMu d m u).trib = s.trib := rfl
@[simp] theorem State.setMu_weir (s : State) (d m : Nat) (u : UnitSt) : (s.setMu d m u).weir = s.weir := rfl
@[simp] theorem State.setMu_eddy (s : State) (d m : Nat) (u : UnitSt) : (s.setMu d m u).eddy = s.eddy := rfl
@[simp] theorem State.setMu_ve (s : State) (d m : Nat) (u : UnitSt) : (s.setMu d m u).ve = s.ve := rfl
@[simp] theorem State.setMu_die (s : State) (d m : Nat) (u : UnitSt) : (s.setMu d m u).die = s.die := rfl
@[simp] theorem State.setMu_dist (s : State) (d m : Nat) (u : UnitSt) : (s.setMu d m u).dist = s.dist := rfl
@[simp] theorem State.setMu_cap (s : State) (d m : Nat) (u : UnitSt) : (s.setMu d m u).cap = s.cap := rfl
@[simp] theorem State.setMu_slu (s : State) (d m : Nat) (u : UnitSt) : (s.setMu d m u).slu = s.slu := rfl
@[simp] theorem State.setMu_braid (s : State) (d m : Nat) (u : UnitSt) : (s.setMu d m u).braid = s.braid := rfl
@[simp] theorem State.setMu_head (s : State) (d m : Nat) (u : UnitSt) : (s.setMu d m u).head = s.head := rfl
@[simp] theorem State.setMu_mem (s : State) (d m : Nat) (u : UnitSt) : (s.setMu d m u).mem = s.mem := rfl
@[simp] theorem State.setMu_sec (s : State) (d m : Nat) (u : UnitSt) : (s.setMu d m u).sec = s.sec := rfl
@[simp] theorem State.setMu_power (s : State) (d m : Nat) (u : UnitSt) : (s.setMu d m u).power = s.power := rfl
@[simp] theorem State.setMu_mgmt (s : State) (d m : Nat) (u : UnitSt) : (s.setMu d m u).mgmt = s.mgmt := rfl
@[simp] theorem State.setMu_pins (s : State) (d m : Nat) (u : UnitSt) : (s.setMu d m u).pins = s.pins := rfl

@[simp] theorem State.setEngine_pending (s : State) (h v : Nat) (u : UnitSt) : (s.setEngine h v u).pending = s.pending := rfl
@[simp] theorem State.setEngine_fuse (s : State) (h v : Nat) (u : UnitSt) : (s.setEngine h v u).fuse = s.fuse := rfl
@[simp] theorem State.setEngine_regs (s : State) (h v : Nat) (u : UnitSt) : (s.setEngine h v u).regs = s.regs := rfl
@[simp] theorem State.setEngine_cnts (s : State) (h v : Nat) (u : UnitSt) : (s.setEngine h v u).cnts = s.cnts := rfl
@[simp] theorem State.setEngine_stage (s : State) (h v : Nat) (u : UnitSt) : (s.setEngine h v u).stage = s.stage := rfl
@[simp] theorem State.setEngine_free (s : State) (h v : Nat) (u : UnitSt) : (s.setEngine h v u).free = s.free := rfl
@[simp] theorem State.setEngine_time (s : State) (h v : Nat) (u : UnitSt) : (s.setEngine h v u).time = s.time := rfl
@[simp] theorem State.setEngine_trib (s : State) (h v : Nat) (u : UnitSt) : (s.setEngine h v u).trib = s.trib := rfl
@[simp] theorem State.setEngine_weir (s : State) (h v : Nat) (u : UnitSt) : (s.setEngine h v u).weir = s.weir := rfl
@[simp] theorem State.setEngine_eddy (s : State) (h v : Nat) (u : UnitSt) : (s.setEngine h v u).eddy = s.eddy := rfl
@[simp] theorem State.setEngine_ve (s : State) (h v : Nat) (u : UnitSt) : (s.setEngine h v u).ve = s.ve := rfl
@[simp] theorem State.setEngine_die (s : State) (h v : Nat) (u : UnitSt) : (s.setEngine h v u).die = s.die := rfl
@[simp] theorem State.setEngine_dist (s : State) (h v : Nat) (u : UnitSt) : (s.setEngine h v u).dist = s.dist := rfl
@[simp] theorem State.setEngine_cap (s : State) (h v : Nat) (u : UnitSt) : (s.setEngine h v u).cap = s.cap := rfl
@[simp] theorem State.setEngine_slu (s : State) (h v : Nat) (u : UnitSt) : (s.setEngine h v u).slu = s.slu := rfl
@[simp] theorem State.setEngine_braid (s : State) (h v : Nat) (u : UnitSt) : (s.setEngine h v u).braid = s.braid := rfl
@[simp] theorem State.setEngine_head (s : State) (h v : Nat) (u : UnitSt) : (s.setEngine h v u).head = s.head := rfl
@[simp] theorem State.setEngine_mem (s : State) (h v : Nat) (u : UnitSt) : (s.setEngine h v u).mem = s.mem := rfl
@[simp] theorem State.setEngine_sec (s : State) (h v : Nat) (u : UnitSt) : (s.setEngine h v u).sec = s.sec := rfl
@[simp] theorem State.setEngine_power (s : State) (h v : Nat) (u : UnitSt) : (s.setEngine h v u).power = s.power := rfl
@[simp] theorem State.setEngine_mgmt (s : State) (h v : Nat) (u : UnitSt) : (s.setEngine h v u).mgmt = s.mgmt := rfl
@[simp] theorem State.setEngine_pins (s : State) (h v : Nat) (u : UnitSt) : (s.setEngine h v u).pins = s.pins := rfl

@[simp] theorem State.setWin_pending (s : State) (u : Nat) (w : FaultWin) : (s.setWin u w).pending = s.pending := rfl
@[simp] theorem State.setWin_fuse (s : State) (u : Nat) (w : FaultWin) : (s.setWin u w).fuse = s.fuse := rfl
@[simp] theorem State.setWin_regs (s : State) (u : Nat) (w : FaultWin) : (s.setWin u w).regs = s.regs := rfl
@[simp] theorem State.setWin_cnts (s : State) (u : Nat) (w : FaultWin) : (s.setWin u w).cnts = s.cnts := rfl
@[simp] theorem State.setWin_stage (s : State) (u : Nat) (w : FaultWin) : (s.setWin u w).stage = s.stage := rfl
@[simp] theorem State.setWin_free (s : State) (u : Nat) (w : FaultWin) : (s.setWin u w).free = s.free := rfl
@[simp] theorem State.setWin_time (s : State) (u : Nat) (w : FaultWin) : (s.setWin u w).time = s.time := rfl
@[simp] theorem State.setWin_trib (s : State) (u : Nat) (w : FaultWin) : (s.setWin u w).trib = s.trib := rfl
@[simp] theorem State.setWin_weir (s : State) (u : Nat) (w : FaultWin) : (s.setWin u w).weir = s.weir := rfl
@[simp] theorem State.setWin_eddy (s : State) (u : Nat) (w : FaultWin) : (s.setWin u w).eddy = s.eddy := rfl
@[simp] theorem State.setWin_ve (s : State) (u : Nat) (w : FaultWin) : (s.setWin u w).ve = s.ve := rfl
@[simp] theorem State.setWin_die (s : State) (u : Nat) (w : FaultWin) : (s.setWin u w).die = s.die := rfl
@[simp] theorem State.setWin_dist (s : State) (u : Nat) (w : FaultWin) : (s.setWin u w).dist = s.dist := rfl
@[simp] theorem State.setWin_cap (s : State) (u : Nat) (w : FaultWin) : (s.setWin u w).cap = s.cap := rfl
@[simp] theorem State.setWin_slu (s : State) (u : Nat) (w : FaultWin) : (s.setWin u w).slu = s.slu := rfl
@[simp] theorem State.setWin_braid (s : State) (u : Nat) (w : FaultWin) : (s.setWin u w).braid = s.braid := rfl
@[simp] theorem State.setWin_head (s : State) (u : Nat) (w : FaultWin) : (s.setWin u w).head = s.head := rfl
@[simp] theorem State.setWin_mem (s : State) (u : Nat) (w : FaultWin) : (s.setWin u w).mem = s.mem := rfl
@[simp] theorem State.setWin_sec (s : State) (u : Nat) (w : FaultWin) : (s.setWin u w).sec = s.sec := rfl
@[simp] theorem State.setWin_power (s : State) (u : Nat) (w : FaultWin) : (s.setWin u w).power = s.power := rfl
@[simp] theorem State.setWin_mgmt (s : State) (u : Nat) (w : FaultWin) : (s.setWin u w).mgmt = s.mgmt := rfl
@[simp] theorem State.setWin_pins (s : State) (u : Nat) (w : FaultWin) : (s.setWin u w).pins = s.pins := rfl

@[simp] theorem State.setSup_pending (s : State) (d : Nat) (x : SupplySt) : (s.setSup d x).pending = s.pending := rfl
@[simp] theorem State.setSup_fuse (s : State) (d : Nat) (x : SupplySt) : (s.setSup d x).fuse = s.fuse := rfl
@[simp] theorem State.setSup_regs (s : State) (d : Nat) (x : SupplySt) : (s.setSup d x).regs = s.regs := rfl
@[simp] theorem State.setSup_cnts (s : State) (d : Nat) (x : SupplySt) : (s.setSup d x).cnts = s.cnts := rfl
@[simp] theorem State.setSup_stage (s : State) (d : Nat) (x : SupplySt) : (s.setSup d x).stage = s.stage := rfl
@[simp] theorem State.setSup_free (s : State) (d : Nat) (x : SupplySt) : (s.setSup d x).free = s.free := rfl
@[simp] theorem State.setSup_time (s : State) (d : Nat) (x : SupplySt) : (s.setSup d x).time = s.time := rfl
@[simp] theorem State.setSup_trib (s : State) (d : Nat) (x : SupplySt) : (s.setSup d x).trib = s.trib := rfl
@[simp] theorem State.setSup_weir (s : State) (d : Nat) (x : SupplySt) : (s.setSup d x).weir = s.weir := rfl
@[simp] theorem State.setSup_eddy (s : State) (d : Nat) (x : SupplySt) : (s.setSup d x).eddy = s.eddy := rfl
@[simp] theorem State.setSup_ve (s : State) (d : Nat) (x : SupplySt) : (s.setSup d x).ve = s.ve := rfl
@[simp] theorem State.setSup_die (s : State) (d : Nat) (x : SupplySt) : (s.setSup d x).die = s.die := rfl
@[simp] theorem State.setSup_dist (s : State) (d : Nat) (x : SupplySt) : (s.setSup d x).dist = s.dist := rfl
@[simp] theorem State.setSup_cap (s : State) (d : Nat) (x : SupplySt) : (s.setSup d x).cap = s.cap := rfl
@[simp] theorem State.setSup_slu (s : State) (d : Nat) (x : SupplySt) : (s.setSup d x).slu = s.slu := rfl
@[simp] theorem State.setSup_braid (s : State) (d : Nat) (x : SupplySt) : (s.setSup d x).braid = s.braid := rfl
@[simp] theorem State.setSup_head (s : State) (d : Nat) (x : SupplySt) : (s.setSup d x).head = s.head := rfl
@[simp] theorem State.setSup_mem (s : State) (d : Nat) (x : SupplySt) : (s.setSup d x).mem = s.mem := rfl
@[simp] theorem State.setSup_sec (s : State) (d : Nat) (x : SupplySt) : (s.setSup d x).sec = s.sec := rfl
@[simp] theorem State.setSup_rel (s : State) (d : Nat) (x : SupplySt) : (s.setSup d x).rel = s.rel := rfl
@[simp] theorem State.setSup_mgmt (s : State) (d : Nat) (x : SupplySt) : (s.setSup d x).mgmt = s.mgmt := rfl
@[simp] theorem State.setSup_pins (s : State) (d : Nat) (x : SupplySt) : (s.setSup d x).pins = s.pins := rfl

@[simp] theorem State.setHeat_pending (s : State) (d : Nat) (x : DieHeat) : (s.setHeat d x).pending = s.pending := rfl
@[simp] theorem State.setHeat_fuse (s : State) (d : Nat) (x : DieHeat) : (s.setHeat d x).fuse = s.fuse := rfl
@[simp] theorem State.setHeat_regs (s : State) (d : Nat) (x : DieHeat) : (s.setHeat d x).regs = s.regs := rfl
@[simp] theorem State.setHeat_cnts (s : State) (d : Nat) (x : DieHeat) : (s.setHeat d x).cnts = s.cnts := rfl
@[simp] theorem State.setHeat_stage (s : State) (d : Nat) (x : DieHeat) : (s.setHeat d x).stage = s.stage := rfl
@[simp] theorem State.setHeat_free (s : State) (d : Nat) (x : DieHeat) : (s.setHeat d x).free = s.free := rfl
@[simp] theorem State.setHeat_time (s : State) (d : Nat) (x : DieHeat) : (s.setHeat d x).time = s.time := rfl
@[simp] theorem State.setHeat_trib (s : State) (d : Nat) (x : DieHeat) : (s.setHeat d x).trib = s.trib := rfl
@[simp] theorem State.setHeat_weir (s : State) (d : Nat) (x : DieHeat) : (s.setHeat d x).weir = s.weir := rfl
@[simp] theorem State.setHeat_eddy (s : State) (d : Nat) (x : DieHeat) : (s.setHeat d x).eddy = s.eddy := rfl
@[simp] theorem State.setHeat_ve (s : State) (d : Nat) (x : DieHeat) : (s.setHeat d x).ve = s.ve := rfl
@[simp] theorem State.setHeat_die (s : State) (d : Nat) (x : DieHeat) : (s.setHeat d x).die = s.die := rfl
@[simp] theorem State.setHeat_dist (s : State) (d : Nat) (x : DieHeat) : (s.setHeat d x).dist = s.dist := rfl
@[simp] theorem State.setHeat_cap (s : State) (d : Nat) (x : DieHeat) : (s.setHeat d x).cap = s.cap := rfl
@[simp] theorem State.setHeat_slu (s : State) (d : Nat) (x : DieHeat) : (s.setHeat d x).slu = s.slu := rfl
@[simp] theorem State.setHeat_braid (s : State) (d : Nat) (x : DieHeat) : (s.setHeat d x).braid = s.braid := rfl
@[simp] theorem State.setHeat_head (s : State) (d : Nat) (x : DieHeat) : (s.setHeat d x).head = s.head := rfl
@[simp] theorem State.setHeat_mem (s : State) (d : Nat) (x : DieHeat) : (s.setHeat d x).mem = s.mem := rfl
@[simp] theorem State.setHeat_sec (s : State) (d : Nat) (x : DieHeat) : (s.setHeat d x).sec = s.sec := rfl
@[simp] theorem State.setHeat_rel (s : State) (d : Nat) (x : DieHeat) : (s.setHeat d x).rel = s.rel := rfl
@[simp] theorem State.setHeat_mgmt (s : State) (d : Nat) (x : DieHeat) : (s.setHeat d x).mgmt = s.mgmt := rfl
@[simp] theorem State.setHeat_pins (s : State) (d : Nat) (x : DieHeat) : (s.setHeat d x).pins = s.pins := rfl

@[simp] theorem State.setFwup_pending (s : State) (f : FwupSt) : (s.setFwup f).pending = s.pending := rfl
@[simp] theorem State.setFwup_fuse (s : State) (f : FwupSt) : (s.setFwup f).fuse = s.fuse := rfl
@[simp] theorem State.setFwup_regs (s : State) (f : FwupSt) : (s.setFwup f).regs = s.regs := rfl
@[simp] theorem State.setFwup_cnts (s : State) (f : FwupSt) : (s.setFwup f).cnts = s.cnts := rfl
@[simp] theorem State.setFwup_stage (s : State) (f : FwupSt) : (s.setFwup f).stage = s.stage := rfl
@[simp] theorem State.setFwup_free (s : State) (f : FwupSt) : (s.setFwup f).free = s.free := rfl
@[simp] theorem State.setFwup_time (s : State) (f : FwupSt) : (s.setFwup f).time = s.time := rfl
@[simp] theorem State.setFwup_trib (s : State) (f : FwupSt) : (s.setFwup f).trib = s.trib := rfl
@[simp] theorem State.setFwup_weir (s : State) (f : FwupSt) : (s.setFwup f).weir = s.weir := rfl
@[simp] theorem State.setFwup_eddy (s : State) (f : FwupSt) : (s.setFwup f).eddy = s.eddy := rfl
@[simp] theorem State.setFwup_ve (s : State) (f : FwupSt) : (s.setFwup f).ve = s.ve := rfl
@[simp] theorem State.setFwup_die (s : State) (f : FwupSt) : (s.setFwup f).die = s.die := rfl
@[simp] theorem State.setFwup_dist (s : State) (f : FwupSt) : (s.setFwup f).dist = s.dist := rfl
@[simp] theorem State.setFwup_cap (s : State) (f : FwupSt) : (s.setFwup f).cap = s.cap := rfl
@[simp] theorem State.setFwup_slu (s : State) (f : FwupSt) : (s.setFwup f).slu = s.slu := rfl
@[simp] theorem State.setFwup_braid (s : State) (f : FwupSt) : (s.setFwup f).braid = s.braid := rfl
@[simp] theorem State.setFwup_head (s : State) (f : FwupSt) : (s.setFwup f).head = s.head := rfl
@[simp] theorem State.setFwup_mem (s : State) (f : FwupSt) : (s.setFwup f).mem = s.mem := rfl
@[simp] theorem State.setFwup_sec (s : State) (f : FwupSt) : (s.setFwup f).sec = s.sec := rfl
@[simp] theorem State.setFwup_rel (s : State) (f : FwupSt) : (s.setFwup f).rel = s.rel := rfl
@[simp] theorem State.setFwup_power (s : State) (f : FwupSt) : (s.setFwup f).power = s.power := rfl
@[simp] theorem State.setFwup_pins (s : State) (f : FwupSt) : (s.setFwup f).pins = s.pins := rfl

@[simp] theorem State.mgmtSend_pending (s : State) (b : Nat) (m : List Byte) : (s.mgmtSend b m).pending = s.pending := rfl
@[simp] theorem State.mgmtSend_fuse (s : State) (b : Nat) (m : List Byte) : (s.mgmtSend b m).fuse = s.fuse := rfl
@[simp] theorem State.mgmtSend_regs (s : State) (b : Nat) (m : List Byte) : (s.mgmtSend b m).regs = s.regs := rfl
@[simp] theorem State.mgmtSend_cnts (s : State) (b : Nat) (m : List Byte) : (s.mgmtSend b m).cnts = s.cnts := rfl
@[simp] theorem State.mgmtSend_stage (s : State) (b : Nat) (m : List Byte) : (s.mgmtSend b m).stage = s.stage := rfl
@[simp] theorem State.mgmtSend_free (s : State) (b : Nat) (m : List Byte) : (s.mgmtSend b m).free = s.free := rfl
@[simp] theorem State.mgmtSend_time (s : State) (b : Nat) (m : List Byte) : (s.mgmtSend b m).time = s.time := rfl
@[simp] theorem State.mgmtSend_trib (s : State) (b : Nat) (m : List Byte) : (s.mgmtSend b m).trib = s.trib := rfl
@[simp] theorem State.mgmtSend_weir (s : State) (b : Nat) (m : List Byte) : (s.mgmtSend b m).weir = s.weir := rfl
@[simp] theorem State.mgmtSend_eddy (s : State) (b : Nat) (m : List Byte) : (s.mgmtSend b m).eddy = s.eddy := rfl
@[simp] theorem State.mgmtSend_ve (s : State) (b : Nat) (m : List Byte) : (s.mgmtSend b m).ve = s.ve := rfl
@[simp] theorem State.mgmtSend_die (s : State) (b : Nat) (m : List Byte) : (s.mgmtSend b m).die = s.die := rfl
@[simp] theorem State.mgmtSend_dist (s : State) (b : Nat) (m : List Byte) : (s.mgmtSend b m).dist = s.dist := rfl
@[simp] theorem State.mgmtSend_cap (s : State) (b : Nat) (m : List Byte) : (s.mgmtSend b m).cap = s.cap := rfl
@[simp] theorem State.mgmtSend_slu (s : State) (b : Nat) (m : List Byte) : (s.mgmtSend b m).slu = s.slu := rfl
@[simp] theorem State.mgmtSend_braid (s : State) (b : Nat) (m : List Byte) : (s.mgmtSend b m).braid = s.braid := rfl
@[simp] theorem State.mgmtSend_head (s : State) (b : Nat) (m : List Byte) : (s.mgmtSend b m).head = s.head := rfl
@[simp] theorem State.mgmtSend_mem (s : State) (b : Nat) (m : List Byte) : (s.mgmtSend b m).mem = s.mem := rfl
@[simp] theorem State.mgmtSend_sec (s : State) (b : Nat) (m : List Byte) : (s.mgmtSend b m).sec = s.sec := rfl
@[simp] theorem State.mgmtSend_rel (s : State) (b : Nat) (m : List Byte) : (s.mgmtSend b m).rel = s.rel := rfl
@[simp] theorem State.mgmtSend_power (s : State) (b : Nat) (m : List Byte) : (s.mgmtSend b m).power = s.power := rfl
@[simp] theorem State.mgmtSend_pins (s : State) (b : Nat) (m : List Byte) : (s.mgmtSend b m).pins = s.pins := rfl

@[simp] theorem State.mgmtPop_pending (s : State) (b : Nat) : (s.mgmtPop b).pending = s.pending := rfl
@[simp] theorem State.mgmtPop_fuse (s : State) (b : Nat) : (s.mgmtPop b).fuse = s.fuse := rfl
@[simp] theorem State.mgmtPop_regs (s : State) (b : Nat) : (s.mgmtPop b).regs = s.regs := rfl
@[simp] theorem State.mgmtPop_cnts (s : State) (b : Nat) : (s.mgmtPop b).cnts = s.cnts := rfl
@[simp] theorem State.mgmtPop_stage (s : State) (b : Nat) : (s.mgmtPop b).stage = s.stage := rfl
@[simp] theorem State.mgmtPop_free (s : State) (b : Nat) : (s.mgmtPop b).free = s.free := rfl
@[simp] theorem State.mgmtPop_time (s : State) (b : Nat) : (s.mgmtPop b).time = s.time := rfl
@[simp] theorem State.mgmtPop_trib (s : State) (b : Nat) : (s.mgmtPop b).trib = s.trib := rfl
@[simp] theorem State.mgmtPop_weir (s : State) (b : Nat) : (s.mgmtPop b).weir = s.weir := rfl
@[simp] theorem State.mgmtPop_eddy (s : State) (b : Nat) : (s.mgmtPop b).eddy = s.eddy := rfl
@[simp] theorem State.mgmtPop_ve (s : State) (b : Nat) : (s.mgmtPop b).ve = s.ve := rfl
@[simp] theorem State.mgmtPop_die (s : State) (b : Nat) : (s.mgmtPop b).die = s.die := rfl
@[simp] theorem State.mgmtPop_dist (s : State) (b : Nat) : (s.mgmtPop b).dist = s.dist := rfl
@[simp] theorem State.mgmtPop_cap (s : State) (b : Nat) : (s.mgmtPop b).cap = s.cap := rfl
@[simp] theorem State.mgmtPop_slu (s : State) (b : Nat) : (s.mgmtPop b).slu = s.slu := rfl
@[simp] theorem State.mgmtPop_braid (s : State) (b : Nat) : (s.mgmtPop b).braid = s.braid := rfl
@[simp] theorem State.mgmtPop_head (s : State) (b : Nat) : (s.mgmtPop b).head = s.head := rfl
@[simp] theorem State.mgmtPop_mem (s : State) (b : Nat) : (s.mgmtPop b).mem = s.mem := rfl
@[simp] theorem State.mgmtPop_sec (s : State) (b : Nat) : (s.mgmtPop b).sec = s.sec := rfl
@[simp] theorem State.mgmtPop_rel (s : State) (b : Nat) : (s.mgmtPop b).rel = s.rel := rfl
@[simp] theorem State.mgmtPop_power (s : State) (b : Nat) : (s.mgmtPop b).power = s.power := rfl
@[simp] theorem State.mgmtPop_pins (s : State) (b : Nat) : (s.mgmtPop b).pins = s.pins := rfl

@[simp] theorem State.saveArea_pending (s : State) : (s.saveArea).pending = s.pending := rfl
@[simp] theorem State.saveArea_fuse (s : State) : (s.saveArea).fuse = s.fuse := rfl
@[simp] theorem State.saveArea_regs (s : State) : (s.saveArea).regs = s.regs := rfl
@[simp] theorem State.saveArea_cnts (s : State) : (s.saveArea).cnts = s.cnts := rfl
@[simp] theorem State.saveArea_stage (s : State) : (s.saveArea).stage = s.stage := rfl
@[simp] theorem State.saveArea_free (s : State) : (s.saveArea).free = s.free := rfl
@[simp] theorem State.saveArea_time (s : State) : (s.saveArea).time = s.time := rfl
@[simp] theorem State.saveArea_trib (s : State) : (s.saveArea).trib = s.trib := rfl
@[simp] theorem State.saveArea_weir (s : State) : (s.saveArea).weir = s.weir := rfl
@[simp] theorem State.saveArea_eddy (s : State) : (s.saveArea).eddy = s.eddy := rfl
@[simp] theorem State.saveArea_ve (s : State) : (s.saveArea).ve = s.ve := rfl
@[simp] theorem State.saveArea_die (s : State) : (s.saveArea).die = s.die := rfl
@[simp] theorem State.saveArea_dist (s : State) : (s.saveArea).dist = s.dist := rfl
@[simp] theorem State.saveArea_cap (s : State) : (s.saveArea).cap = s.cap := rfl
@[simp] theorem State.saveArea_slu (s : State) : (s.saveArea).slu = s.slu := rfl
@[simp] theorem State.saveArea_braid (s : State) : (s.saveArea).braid = s.braid := rfl
@[simp] theorem State.saveArea_head (s : State) : (s.saveArea).head = s.head := rfl
@[simp] theorem State.saveArea_mem (s : State) : (s.saveArea).mem = s.mem := rfl
@[simp] theorem State.saveArea_rel (s : State) : (s.saveArea).rel = s.rel := rfl
@[simp] theorem State.saveArea_power (s : State) : (s.saveArea).power = s.power := rfl
@[simp] theorem State.saveArea_mgmt (s : State) : (s.saveArea).mgmt = s.mgmt := rfl
@[simp] theorem State.saveArea_pins (s : State) : (s.saveArea).pins = s.pins := rfl

@[simp] theorem State.hearParent_pending (s : State) (w : TimeWord) : (s.hearParent w).pending = s.pending := rfl
@[simp] theorem State.hearParent_fuse (s : State) (w : TimeWord) : (s.hearParent w).fuse = s.fuse := rfl
@[simp] theorem State.hearParent_regs (s : State) (w : TimeWord) : (s.hearParent w).regs = s.regs := rfl
@[simp] theorem State.hearParent_cnts (s : State) (w : TimeWord) : (s.hearParent w).cnts = s.cnts := rfl
@[simp] theorem State.hearParent_stage (s : State) (w : TimeWord) : (s.hearParent w).stage = s.stage := rfl
@[simp] theorem State.hearParent_free (s : State) (w : TimeWord) : (s.hearParent w).free = s.free := rfl
@[simp] theorem State.hearParent_trib (s : State) (w : TimeWord) : (s.hearParent w).trib = s.trib := rfl
@[simp] theorem State.hearParent_weir (s : State) (w : TimeWord) : (s.hearParent w).weir = s.weir := rfl
@[simp] theorem State.hearParent_eddy (s : State) (w : TimeWord) : (s.hearParent w).eddy = s.eddy := rfl
@[simp] theorem State.hearParent_ve (s : State) (w : TimeWord) : (s.hearParent w).ve = s.ve := rfl
@[simp] theorem State.hearParent_die (s : State) (w : TimeWord) : (s.hearParent w).die = s.die := rfl
@[simp] theorem State.hearParent_dist (s : State) (w : TimeWord) : (s.hearParent w).dist = s.dist := rfl
@[simp] theorem State.hearParent_cap (s : State) (w : TimeWord) : (s.hearParent w).cap = s.cap := rfl
@[simp] theorem State.hearParent_slu (s : State) (w : TimeWord) : (s.hearParent w).slu = s.slu := rfl
@[simp] theorem State.hearParent_braid (s : State) (w : TimeWord) : (s.hearParent w).braid = s.braid := rfl
@[simp] theorem State.hearParent_head (s : State) (w : TimeWord) : (s.hearParent w).head = s.head := rfl
@[simp] theorem State.hearParent_mem (s : State) (w : TimeWord) : (s.hearParent w).mem = s.mem := rfl
@[simp] theorem State.hearParent_sec (s : State) (w : TimeWord) : (s.hearParent w).sec = s.sec := rfl
@[simp] theorem State.hearParent_rel (s : State) (w : TimeWord) : (s.hearParent w).rel = s.rel := rfl
@[simp] theorem State.hearParent_power (s : State) (w : TimeWord) : (s.hearParent w).power = s.power := rfl
@[simp] theorem State.hearParent_mgmt (s : State) (w : TimeWord) : (s.hearParent w).mgmt = s.mgmt := rfl
@[simp] theorem State.hearParent_pins (s : State) (w : TimeWord) : (s.hearParent w).pins = s.pins := rfl

@[simp] theorem State.trainStacks_pending (s : State) : (s.trainStacks).pending = s.pending := rfl
@[simp] theorem State.trainStacks_fuse (s : State) : (s.trainStacks).fuse = s.fuse := rfl
@[simp] theorem State.trainStacks_regs (s : State) : (s.trainStacks).regs = s.regs := rfl
@[simp] theorem State.trainStacks_cnts (s : State) : (s.trainStacks).cnts = s.cnts := rfl
@[simp] theorem State.trainStacks_stage (s : State) : (s.trainStacks).stage = s.stage := rfl
@[simp] theorem State.trainStacks_free (s : State) : (s.trainStacks).free = s.free := rfl
@[simp] theorem State.trainStacks_time (s : State) : (s.trainStacks).time = s.time := rfl
@[simp] theorem State.trainStacks_trib (s : State) : (s.trainStacks).trib = s.trib := rfl
@[simp] theorem State.trainStacks_weir (s : State) : (s.trainStacks).weir = s.weir := rfl
@[simp] theorem State.trainStacks_eddy (s : State) : (s.trainStacks).eddy = s.eddy := rfl
@[simp] theorem State.trainStacks_ve (s : State) : (s.trainStacks).ve = s.ve := rfl
@[simp] theorem State.trainStacks_die (s : State) : (s.trainStacks).die = s.die := rfl
@[simp] theorem State.trainStacks_dist (s : State) : (s.trainStacks).dist = s.dist := rfl
@[simp] theorem State.trainStacks_cap (s : State) : (s.trainStacks).cap = s.cap := rfl
@[simp] theorem State.trainStacks_slu (s : State) : (s.trainStacks).slu = s.slu := rfl
@[simp] theorem State.trainStacks_braid (s : State) : (s.trainStacks).braid = s.braid := rfl
@[simp] theorem State.trainStacks_head (s : State) : (s.trainStacks).head = s.head := rfl
@[simp] theorem State.trainStacks_sec (s : State) : (s.trainStacks).sec = s.sec := rfl
@[simp] theorem State.trainStacks_rel (s : State) : (s.trainStacks).rel = s.rel := rfl
@[simp] theorem State.trainStacks_power (s : State) : (s.trainStacks).power = s.power := rfl
@[simp] theorem State.trainStacks_mgmt (s : State) : (s.trainStacks).mgmt = s.mgmt := rfl
@[simp] theorem State.trainStacks_pins (s : State) : (s.trainStacks).pins = s.pins := rfl

@[simp] theorem State.trimBufs_pending (s : State) : (s.trimBufs).pending = s.pending := rfl
@[simp] theorem State.trimBufs_fuse (s : State) : (s.trimBufs).fuse = s.fuse := rfl
@[simp] theorem State.trimBufs_regs (s : State) : (s.trimBufs).regs = s.regs := rfl
@[simp] theorem State.trimBufs_cnts (s : State) : (s.trimBufs).cnts = s.cnts := rfl
@[simp] theorem State.trimBufs_stage (s : State) : (s.trimBufs).stage = s.stage := rfl
@[simp] theorem State.trimBufs_free (s : State) : (s.trimBufs).free = s.free := rfl
@[simp] theorem State.trimBufs_time (s : State) : (s.trimBufs).time = s.time := rfl
@[simp] theorem State.trimBufs_trib (s : State) : (s.trimBufs).trib = s.trib := rfl
@[simp] theorem State.trimBufs_weir (s : State) : (s.trimBufs).weir = s.weir := rfl
@[simp] theorem State.trimBufs_eddy (s : State) : (s.trimBufs).eddy = s.eddy := rfl
@[simp] theorem State.trimBufs_ve (s : State) : (s.trimBufs).ve = s.ve := rfl
@[simp] theorem State.trimBufs_dist (s : State) : (s.trimBufs).dist = s.dist := rfl
@[simp] theorem State.trimBufs_cap (s : State) : (s.trimBufs).cap = s.cap := rfl
@[simp] theorem State.trimBufs_slu (s : State) : (s.trimBufs).slu = s.slu := rfl
@[simp] theorem State.trimBufs_braid (s : State) : (s.trimBufs).braid = s.braid := rfl
@[simp] theorem State.trimBufs_head (s : State) : (s.trimBufs).head = s.head := rfl
@[simp] theorem State.trimBufs_mem (s : State) : (s.trimBufs).mem = s.mem := rfl
@[simp] theorem State.trimBufs_sec (s : State) : (s.trimBufs).sec = s.sec := rfl
@[simp] theorem State.trimBufs_rel (s : State) : (s.trimBufs).rel = s.rel := rfl
@[simp] theorem State.trimBufs_power (s : State) : (s.trimBufs).power = s.power := rfl
@[simp] theorem State.trimBufs_mgmt (s : State) : (s.trimBufs).mgmt = s.mgmt := rfl
@[simp] theorem State.trimBufs_pins (s : State) : (s.trimBufs).pins = s.pins := rfl

end Sys2Proof.Machine
end

