-- ==== Sys2Proof/Laws/Ops.lean ====
section
/-! SUPPORT. What the shared operations of the commands do, once each: the gate of a held reset, signed commands, management requests, services,
vector instructions, queue commands, Braid messages. -/

namespace Sys2Proof.Machine

/-! ### The gate of a held reset -/

theorem gated_runs {s : State} (h : s.runs) (x : Out) : s.gated x = x := by
  simp [State.gated, h.1, h.2]

theorem gatedCold_runs {s : State} (h : s.pins.held = false) (x : Out) : s.gatedCold x = x := by
  simp [State.gatedCold, h]

theorem gated_held {s : State} (h : ¬ s.runs) (x : Out) : s.gated x = .next s := by
  unfold State.gated
  rw [if_pos]
  by_contra hc
  simp only [Bool.or_eq_true, not_or, Bool.not_eq_true] at hc
  exact h hc

/-- A gated command that leaves a next state does so as its body, or a reset is held and nothing has changed. -/
theorem gated_next {s t : State} {x : Out} (h : s.gated x = .next t) : (s.runs ∧ x = .next t) ∨ (¬ s.runs ∧ t = s) := by
  by_cases hr : s.runs
  · rw [gated_runs hr] at h; exact .inl ⟨hr, h⟩
  · rw [gated_held hr] at h; cases h; exact .inr ⟨hr, rfl⟩

/-! ### Signed commands -/

/-- The first accepted command runs with the state that it leaves behind it. -/
theorem runCmd_first {s : State} {k : Nat} {c : HwCmd} {l : List HwCmd} (h : s.firstCmd k c l) (f : HwCmd → State → CmdRes) :
    s.runCmd k f = .next (State.endCmd c (f c (s.leaving l))) := by
  obtain ⟨h1, h2, h3, h4, h5, h6⟩ := h
  have hk : (launchKind k).isNone = true → c.cmd.targetEn = 0 := fun hh => h6 (by simpa using hh)
  simp only [State.runCmd, h1, h2, h3, h4, ne_eq, not_true, if_false, State.leaving]
  congr 2
  rw [if_neg]
  simp only [bne_self_eq_false, Bool.not_true, Bool.false_or, Bool.or_eq_true, Bool.and_eq_true, decide_eq_true_eq, bne_iff_ne, ne_eq]
  rintro (⟨a, b⟩ | ⟨a, b⟩)
  · omega
  · exact b (hk a)

/-! ### Management requests and services -/

theorem serveMsg_asked {s : State} {b : Nat} {ask : Nat × Nat × Nat} {m : List Byte} (h : s.asked b ask m)
    (f : List Byte → State → State × List Byte) : s.serveMsg b ask f = .next ((f m s).1.answered b (f m s).2) := by
  obtain ⟨h1, h2⟩ := h
  simp only [State.serveMsg, h1, h2]
  rw [if_neg (by simp)]
  rfl

theorem service_open {s : State} {b code : Nat} {c : SignedCmd} (h : s.serves b code c) (ho : openService code = true) (f : SignedCmd → State → SvcRes) :
    s.service b code none f = .next ((f c s).sent b) := by
  obtain ⟨m, ⟨h1, h2⟩, rfl, h3, h4, h5⟩ := h
  rw [ho] at h5
  simp only [State.service, State.serveMsg, h1, h2, h3, h4, h5]
  rw [if_neg (by simp), if_neg (by simp)]
  rfl

theorem service_role {s n : State} {b code : Nat} {c : SignedCmd} (h : s.serves b code c) (ho : openService code = false) (g : SignedCmd → KeyEnt → Bool)
    (hp : s.proves c (g c) n) (f : SignedCmd → State → SvcRes) : s.service b code (some g) f = .next ((f c n).sent b) := by
  obtain ⟨m, ⟨h1, h2⟩, rfl, h3, h4, h5⟩ := h
  rw [ho] at h5
  unfold State.proves at hp
  simp only [State.service, State.serveMsg, h1, h2, h3, h4, h5, hp]
  rw [if_neg (by simp), if_neg (by simp)]
  rfl

/-! ### Vector instructions -/

/-- An engine at an instruction goes one instruction on. -/
theorem veExec_at {s : State} {hub engine op : Nat} {r : VeRun} (h : s.runAt hub engine op r) (f : LoopFrame → VIns → Lane → Lane) :
    s.veExec hub engine op f = .next (s.ranTo hub engine (r.stepped f)) := by
  obtain ⟨h1, h2, h3⟩ := h
  simp only [State.veExec, h1]
  rw [if_neg (by omega)]
  rfl

/-- A command that executes one opcode carries it out. -/
theorem carriesOut_of {c : Nat → Nat → Instr} {op : Nat} {f : LoopFrame → VIns → Lane → Lane}
    (h : ∀ hub engine s, exec (c hub engine) s = s.gated (s.veExec hub engine op f)) : carriesOut c op f := by
  intro hub engine r s hr ha
  rw [h, gated_runs hr, veExec_at ha]

/-! ### Queue commands -/

theorem runQueue_empty (s : State) (q n : Nat) (h : (s.que q).cmds = []) : s.runQueue q n = s := by
  cases n with
  | zero => rfl
  | succ n => simp [State.runQueue, h]

/-- A free queue runs the command it is given at once. -/
theorem give_free {s : State} {q : Nat} (h : s.queueFree q) (b : List Byte) :
    let c := qcmdOfBytes b
    s.give q b = (if ((s.queued q c).execHead q c).2 then ((s.queued q c).execHead q c).1.runQueue q 255
      else ((s.queued q c).execHead q c).1) := by
  intro c
  obtain ⟨h1, h2, h3, h4, h5, h6⟩ := h
  simp only [State.give, h6, List.length_nil]
  rw [if_neg (by omega)]
  show State.runQueue (s.queued q c) q 256 = _
  rw [State.runQueue]
  have hq : (s.queued q c).que q = { s.que q with cmds := [c] } := State.que_setQue _ _ _
  simp only [hq]
  rw [if_neg]
  have h2' : (s.queued q c).queEn q = true := h2
  have h3' : (s.queued q c).queHeld q = false := h3
  simp [h2', h3', h4, h5]

/-- A command that stops its queue. -/
theorem give_stop {s m : State} {q : Nat} (h : s.queueFree q) (b : List Byte)
    (e : (s.queued q (qcmdOfBytes b)).execHead q (qcmdOfBytes b) = (m, false)) : s.give q b = m := by
  rw [give_free h, e]; simp

/-- A command that is done and leaves its queue empty. -/
theorem give_done {s m : State} {q : Nat} (h : s.queueFree q) (b : List Byte)
    (e : (s.queued q (qcmdOfBytes b)).execHead q (qcmdOfBytes b) = (m.popQue q, true))
    (hm : (m.que q).cmds = [qcmdOfBytes b]) : s.give q b = m.popQue q := by
  rw [give_free h, e]
  simp only [if_true]
  rw [runQueue_empty]
  rw [State.popQue, State.que_setQue, hm]
  rfl

/-- A command whose fields fit Table 13.2 is read back from its bytes as it was written. -/
theorem qcmdOfBytes_bytes (c : QCmd) (h1 : c.op < 2 ^ 8) (h2 : c.flags < 2 ^ 8) (h3 : c.id < 2 ^ 16) (h4 : c.amount < 2 ^ 32) (h5 : c.arg < 2 ^ 64) :
    qcmdOfBytes c.bytes = c := by
  obtain ⟨op, flags, id, amount, arg⟩ := c
  simp only [qcmdOfBytes, QCmd.bytes, leAt, slice, leBytes, List.cons_append, List.nil_append, List.drop_succ_cons, List.drop_zero, List.take_succ_cons,
    List.take_zero, leNat, BitVec.toNat_ofNat, QCmd.mk.injEq]
  simp only at h1 h2 h3 h4 h5
  omega

/-! ### Services -/

/-- A request of one argument that is in form, and whose value the service takes, has no faulty argument (Table 17.4). -/
theorem oneArgFault_none {c : SignedCmd} {bad : Bool} (h : oneArg c = true) (hb : bad = false) : oneArgFault c bad = none := by
  simp only [oneArg, Bool.and_eq_true, beq_iff_eq] at h
  unfold oneArgFault
  rw [if_neg (by simp [h.1, hb]), if_neg (by simp [h.2]), h.1]
  rfl

/-! ### Braid messages -/

/-- A port that is up takes a message that its link does not hold yet, if its check passed, and counts one whose check failed. -/
theorem brTake_up {s : State} {port : Nat} (m : BrMsg) (f : State → State) (h : port < 12) (hs : (s.brPort port).step = 6)
    (hm : s.linkHeld port m = false) :
    s.brTake port m f = if m.ok then f (s.linkTake port m) else (s.linkTake port m).tick .cntBraidPortCnt (port * 9 + 4) := by
  rw [State.brTake, if_neg (by omega), hm]
  rfl

/-- A copy of a message that the link holds is discarded (R383). -/
theorem brTake_held {s : State} {port : Nat} (m : BrMsg) (f : State → State) (h : port < 12) (hs : (s.brPort port).step = 6)
    (hm : s.linkHeld port m = true) : s.brTake port m f = s.setBrPort port { s.brPort port with replays := 0 } := by
  rw [State.brTake, if_neg (by omega), hm]
  rfl

/-! ### Memory -/

/-- Sealing a sector copy changes the bytes of that copy alone (R440). -/
theorem seal_read_out (m : MemSt) (o : Nat) (c : Nat × Nat) (b : List Byte) (hm : Memory.wf m.data = true) (a : Nat)
    (h : a < copyName c * 512 ∨ copyName c * 512 + 512 ≤ a) : Memory.read (m.seal o c b).data a = Memory.read m.data a := by
  have hd : (m.seal o c b).data = Memory.writeBytes m.data (copyName c * 512) (b.take 512) := by
    unfold MemSt.seal
    extract_lets n k m1
    split <;> rfl
  rw [hd]
  refine Memory.read_writeBytes_out _ _ hm _ _ ?_
  have := List.length_take_le 512 b
  omega

/-- A sector copy that passes its check holds the MAC of its ciphertext under the keys that it is read under (R440). -/
theorem passes_mac {m : MemSt} {o : Nat} {c : Nat × Nat} (h : m.passes o c = true) (addr : Nat) :
    m.macAt addr o c = sectorMac (m.keyOf o (m.sectorGen c)) addr o (m.sectorGen c) (m.cipherAt addr o c) := by
  simp only [MemSt.passes, Bool.and_eq_true, beq_iff_eq] at h
  unfold MemSt.macAt
  rw [h.1.2]

/-- A sealed sector copy holds what was written (R440). -/
theorem seal_plain (m : MemSt) (o : Nat) (c : Nat × Nat) (b : List Byte) (hm : Memory.wf m.data = true) (hb : b.length = 512) :
    (m.seal o c b).plain c = b := by
  have hd : (m.seal o c b).data = Memory.writeBytes m.data (copyName c * 512) (b.take 512) := by
    unfold MemSt.seal
    extract_lets n k m1
    split <;> rfl
  have ht : b.take 512 = b := List.take_of_length_le (by omega)
  unfold MemSt.plain
  rw [hd, ht, ← hb]
  exact Memory.readBytes_writeBytes _ _ hm _

end Sys2Proof.Machine
end

