-- ==== Sys2Proof/WellFormed.lean ====
section
/-! DEFINITION. Which commands name things that the device has: dies, ports, tenants, units and the like are within their numbers. -/

namespace Sys2Proof

/-- A record port of a hub die pair (R59): port 0 to 15, sub-port 0 or 1. -/
def Wf.recPort (port sub : Nat) : Bool := decide (port < 16) && decide (sub < 2)
/-- A hub die. -/
def Wf.hub (h : Nat) : Bool := decide (h < 2)
/-- A scoring die. -/
def Wf.sdie (d : Nat) : Bool := decide (d < 8)
/-- A die: scoring dies 0 to 7, hub dies 8 and 9; a supply domain is numbered alike. -/
def Wf.anyDie (d : Nat) : Bool := decide (d < 10)
/-- A tenant. -/
def Wf.tenant (t : Nat) : Bool := decide (t < 4)
/-- A Braid port. -/
def Wf.braidPort (b : Nat) : Bool := decide (b < 12)
/-- A memory stack. -/
def Wf.stack (p : Nat) : Bool := decide (p < 12)
/-- An admission queue: 32 record ports, 12 Braid ports. -/
def Wf.admQueue (q : Nat) : Bool := decide (q < 44)
/-- A Sluice command queue. -/
def Wf.cmdQueue (q : Nat) : Bool := decide (q < 128)
/-- The fields of a queue command within their bytes (R355, Table 13.2). -/
def Wf.qcmd (id amount flags arg : Nat) : Bool :=
  decide (id < 2 ^ 16) && decide (amount < 2 ^ 32) && decide (flags < 2 ^ 8) && decide (arg < 2 ^ 64)
/-- A logical slot (0 to 65) or logical match unit (66 to 73) of a die. -/
def Wf.logUnit (u : Nat) : Bool := decide (u < 74)
/-- A tile of a die. -/
def Wf.tile (t : Nat) : Bool := decide (t < 66)
/-- A match unit of a die. -/
def Wf.mu (m : Nat) : Bool := decide (m < 9)
/-- A vector engine of a hub die. -/
def Wf.engine (v : Nat) : Bool := decide (v < 34)
/-- A fetch engine of a hub die. -/
def Wf.fetchEngine (e : Nat) : Bool := decide (e < 16)
/-- A stream of a hub die. -/
def Wf.stream (n : Nat) : Bool := decide (n < 512)
/-- A Backwater group of a hub die. -/
def Wf.group (g : Nat) : Bool := decide (g < 32)
/-- A unit address (R481). -/
def Wf.unit (u : Nat) : Bool := decide (u < 0xE000)
/-- A control core. -/
def Wf.core (c : Nat) : Bool := decide (c < 8)
/-- A die-to-die link. -/
def Wf.link (l : Nat) : Bool := decide (l < 17)
/-- A management binding: 0 I3C, 1 SGMII. -/
def Wf.binding (b : Nat) : Bool := decide (b < 2)
/-- An access path: 0 CONTROL, 1 management. -/
def Wf.path (p : Nat) : Bool := decide (p < 2)
/-- A 32-bit word. -/
def Wf.word (v : Nat) : Bool := decide (v < 2 ^ 32)
/-- A device barrier. -/
def Wf.devBarrier (k : Nat) : Bool := decide (k < 8)
/-- A barrier: 160 of the dies, 8 of the device. -/
def Wf.barrier (b : Nat) : Bool := decide (b < 168)
/-- A device of a domain. -/
def Wf.device (d : Nat) : Bool := decide (d < 8192)

/-- The command names only what exists. -/
def Instr.wf : Instr → Bool
  | .frameReceived port sub _ => Wf.recPort port sub
  | .losslessFrameParse port sub _ => Wf.recPort port sub
  | .pfcFrameReceived port sub _ _ => Wf.recPort port sub
  | .controlProtocolFrame port sub _ => Wf.recPort port sub
  | .ptpMessage port _ => Wf.recPort port 0
  | .recordPortUp port sub => Wf.recPort port sub
  | .recordPortDown port sub => Wf.recPort port sub
  | .macsecKeyChange port sub => Wf.recPort port sub
  | .sessionIdleExpiry hub _ => Wf.hub hub
  | .replyCoalesceExpiry port sub _ => Wf.recPort port sub
  | .lockstepReleaseTick => true
  | .epochStart => true
  | .epochNoLongerLive _ => true
  | .timeWordSend port => Wf.braidPort port
  | .timeWordReceived port _ => Wf.braidPort port
  | .holdoverEntry => true
  | .holdoverExpiry => true
  | .rootSwitch => true
  | .rootBtStart => true
  | .admissionHeadAdmit queue => Wf.admQueue queue
  | .admissionDeadlineExpiry queue => Wf.admQueue queue
  | .streamElementIssue hub stream _ => Wf.hub hub && Wf.stream stream
  | .fetchReadComplete hub engine _ _ => Wf.hub hub && Wf.fetchEngine engine
  | .streamCountEnd hub stream => Wf.hub hub && Wf.stream stream
  | .fetchRearm hub stream _ _ => Wf.hub hub && Wf.stream stream
  | .stageBufferIssue hub _ => Wf.hub hub
  | .abortComplete hub stream => Wf.hub hub && Wf.stream stream
  | .drainDone tenant => Wf.tenant tenant
  | .drainTimeout tenant => Wf.tenant tenant
  | .bwDeadlock hub group => Wf.hub hub && Wf.group group
  | .eddyReq _ _ => true
  | .eddyFenceRelease hub => Wf.hub hub
  | .eddySnap _ _ => true
  | .snapshotWaitExpiry hub _ => Wf.hub hub
  | .exportStore => true
  | .eddyExportDone tenant => Wf.tenant tenant
  | .importBegin => true
  | .importChunk => true
  | .veBatchWaitExpiry hub _ => Wf.hub hub
  | .veBatchLaunch hub engine _ => Wf.hub hub && Wf.engine engine
  | .veBatchComplete hub engine => Wf.hub hub && Wf.engine engine
  | .veSpareIn hub engine => Wf.hub hub && Wf.engine engine
  | .veNop hub engine => Wf.hub hub && Wf.engine engine
  | .veLoop hub engine => Wf.hub hub && Wf.engine engine
  | .veEndl hub engine => Wf.hub hub && Wf.engine engine
  | .veAdd hub engine => Wf.hub hub && Wf.engine engine
  | .veSub hub engine => Wf.hub hub && Wf.engine engine
  | .veAdds hub engine => Wf.hub hub && Wf.engine engine
  | .veSubs hub engine => Wf.hub hub && Wf.engine engine
  | .veAddus hub engine => Wf.hub hub && Wf.engine engine
  | .veSubus hub engine => Wf.hub hub && Wf.engine engine
  | .veMul hub engine => Wf.hub hub && Wf.engine engine
  | .veMulhu hub engine => Wf.hub hub && Wf.engine engine
  | .veMulhs hub engine => Wf.hub hub && Wf.engine engine
  | .veMins hub engine => Wf.hub hub && Wf.engine engine
  | .veMaxs hub engine => Wf.hub hub && Wf.engine engine
  | .veMinu hub engine => Wf.hub hub && Wf.engine engine
  | .veMaxu hub engine => Wf.hub hub && Wf.engine engine
  | .veAbs hub engine => Wf.hub hub && Wf.engine engine
  | .veDivu hub engine => Wf.hub hub && Wf.engine engine
  | .veDivs hub engine => Wf.hub hub && Wf.engine engine
  | .veAnd hub engine => Wf.hub hub && Wf.engine engine
  | .veOr hub engine => Wf.hub hub && Wf.engine engine
  | .veXor hub engine => Wf.hub hub && Wf.engine engine
  | .veAndn hub engine => Wf.hub hub && Wf.engine engine
  | .veShl hub engine => Wf.hub hub && Wf.engine engine
  | .veShr hub engine => Wf.hub hub && Wf.engine engine
  | .veSar hub engine => Wf.hub hub && Wf.engine engine
  | .veBfx hub engine => Wf.hub hub && Wf.engine engine
  | .veBfi hub engine => Wf.hub hub && Wf.engine engine
  | .vePopc hub engine => Wf.hub hub && Wf.engine engine
  | .veClz hub engine => Wf.hub hub && Wf.engine engine
  | .veMovi hub engine => Wf.hub hub && Wf.engine engine
  | .veMov hub engine => Wf.hub hub && Wf.engine engine
  | .veClrm hub engine => Wf.hub hub && Wf.engine engine
  | .veSetm hub engine => Wf.hub hub && Wf.engine engine
  | .veSel hub engine => Wf.hub hub && Wf.engine engine
  | .veFadd hub engine => Wf.hub hub && Wf.engine engine
  | .veFsub hub engine => Wf.hub hub && Wf.engine engine
  | .veFmul hub engine => Wf.hub hub && Wf.engine engine
  | .veFmin hub engine => Wf.hub hub && Wf.engine engine
  | .veFmax hub engine => Wf.hub hub && Wf.engine engine
  | .veFabs hub engine => Wf.hub hub && Wf.engine engine
  | .veFneg hub engine => Wf.hub hub && Wf.engine engine
  | .veFdiv hub engine => Wf.hub hub && Wf.engine engine
  | .veFsqrt hub engine => Wf.hub hub && Wf.engine engine
  | .veFrcp hub engine => Wf.hub hub && Wf.engine engine
  | .veFexp2 hub engine => Wf.hub hub && Wf.engine engine
  | .veFlog2 hub engine => Wf.hub hub && Wf.engine engine
  | .veCvtif hub engine => Wf.hub hub && Wf.engine engine
  | .veCvtfi hub engine => Wf.hub hub && Wf.engine engine
  | .veCmp hub engine => Wf.hub hub && Wf.engine engine
  | .vePlog hub engine => Wf.hub hub && Wf.engine engine
  | .vePwl hub engine => Wf.hub hub && Wf.engine engine
  | .veBkt hub engine => Wf.hub hub && Wf.engine engine
  | .veLd hub engine => Wf.hub hub && Wf.engine engine
  | .veStf hub engine => Wf.hub hub && Wf.engine engine
  | .veStf2 hub engine => Wf.hub hub && Wf.engine engine
  | .veMissf hub engine => Wf.hub hub && Wf.engine engine
  | .veStc hub engine => Wf.hub hub && Wf.engine engine
  | .veStr hub engine => Wf.hub hub && Wf.engine engine
  | .veRdf hub engine => Wf.hub hub && Wf.engine engine
  | .eval die unit hub _ _ _ _ => Wf.sdie die && Wf.logUnit unit && Wf.hub hub
  | .evalComplete die unit hub _ _ => Wf.sdie die && Wf.logUnit unit && Wf.hub hub
  | .preload die hub _ _ => Wf.sdie die && Wf.hub hub
  | .drain die unit hub _ _ => Wf.sdie die && Wf.logUnit unit && Wf.hub hub
  | .clear die unit hub _ _ => Wf.sdie die && Wf.logUnit unit && Wf.hub hub
  | .poolUnitTake die tile owner hub _ _ _ _ => Wf.sdie die && Wf.tile tile && Wf.tile owner && Wf.hub hub
  | .spillWindowFilled die unit _ => Wf.sdie die && Wf.logUnit unit
  | .diePartialReturn die hub => Wf.sdie die && Wf.hub hub
  | .ruleSearch hub _ _ _ => Wf.hub hub
  | .muScrubCompare die unit _ => Wf.sdie die && Wf.mu unit
  | .tileSpareLoaded die tile => Wf.sdie die && Wf.tile tile
  | .tileSlotRemapped die tile => Wf.sdie die && Wf.tile tile
  | .muSpareLoaded die unit => Wf.sdie die && Wf.mu unit
  | .muRemapped die unit => Wf.sdie die && Wf.mu unit
  | .ruleEdit => true
  | .ruleEditSettle tenant _ => Wf.tenant tenant
  | .settlementOpen tenant _ => Wf.tenant tenant
  | .orderedProcedureEnd tenant _ => Wf.tenant tenant
  | .lateRecordSettle tenant _ => Wf.tenant tenant
  | .lateCmdlistPart tenant _ => Wf.tenant tenant
  | .settlementClose tenant _ => Wf.tenant tenant
  | .capCommit => true
  | .captureGapEntry tenant => Wf.tenant tenant
  | .captureRead => true
  | .replayStart => true
  | .replayHeadRelease queue => Wf.admQueue queue
  | .replayEnd => true
  | .replayDone tenant => Wf.tenant tenant
  | .qSig q id amount flags arg => Wf.cmdQueue q && Wf.qcmd id amount flags arg
  | .qWait q id amount flags arg => Wf.cmdQueue q && Wf.qcmd id amount flags arg
  | .waitGrant _ => true
  | .qDec q id amount flags arg => Wf.cmdQueue q && Wf.qcmd id amount flags arg
  | .qSset q id amount flags arg => Wf.cmdQueue q && Wf.qcmd id amount flags arg
  | .qBar q id amount flags arg => Wf.cmdQueue q && Wf.qcmd id amount flags arg
  | .qBarnw q id amount flags arg => Wf.cmdQueue q && Wf.qcmd id amount flags arg
  | .barrierRelease bar => Wf.barrier bar
  | .barrierFullRelease bar => Wf.barrier bar
  | .qWaitbt q id amount flags arg => Wf.cmdQueue q && Wf.qcmd id amount flags arg
  | .waitbtReached q => Wf.cmdQueue q
  | .qRearm q id amount flags arg => Wf.cmdQueue q && Wf.qcmd id amount flags arg
  | .qRsig q id amount flags arg => Wf.cmdQueue q && Wf.qcmd id amount flags arg
  | .sluiceSignal port dev _ _ _ => Wf.braidPort port && Wf.device dev
  | .sluiceArrival dev _ _ _ => Wf.device dev
  | .domainBarrierRelease k => Wf.devBarrier k
  | .sluDbarStalled k => Wf.devBarrier k
  | .semCountWrite _ _ => true
  | .barrierMaskWrite bar _ value => Wf.barrier bar && Wf.word value
  | .dbarcfgWrite k value => Wf.devBarrier k && Wf.word value
  | .queueHold q _ => Wf.cmdQueue q
  | .queueResume q => Wf.cmdQueue q
  | .queueFlush q => Wf.cmdQueue q
  | .braidBringupStepDone port => Wf.braidPort port
  | .braidBringupTimeout port => Wf.braidPort port
  | .identityWord port _ => Wf.braidPort port
  | .flitReplay e => Wf.braidPort e.port
  | .braidPortDown port _ => Wf.braidPort port
  | .braidRecord port _ _ => Wf.braidPort port
  | .braidReply port _ => Wf.braidPort port
  | .mcast port _ => Wf.braidPort port
  | .mcastCredit port _ => Wf.braidPort port
  | .mcastChunkSend _ => true
  | .mcastPrune _ _ => true
  | .mcastOutOfSet _ => true
  | .repairReq port _ => Wf.braidPort port
  | .mcastRepairSend _ => true
  | .mcastRetentionExpiry _ => true
  | .cmdlist port _ => Wf.braidPort port
  | .attEgressTimeout port => Wf.braidPort port
  | .bootStepComplete _ => true
  | .controlSegment => true
  | .segmentTimeout tenant _ _ => Wf.tenant tenant
  | .readReg => true
  | .writeReg => true
  | .swap => true
  | .drainSwap => true
  | .freeze => true
  | .resume => true
  | .discardShadow => true
  | .modelChunk => true
  | .bundleIdleExpiry tenant => Wf.tenant tenant
  | .bundleCheckComplete tenant => Wf.tenant tenant
  | .loadPlacementComplete tenant => Wf.tenant tenant
  | .oldHalfRelease tenant => Wf.tenant tenant
  | .drainSwapPlacementComplete tenant => Wf.tenant tenant
  | .sectorRead _ hub _ _ _ _ => Wf.hub hub
  | .sectorWrite _ hub _ _ _ => Wf.hub hub
  | .hbmErrorPoll stack _ => Wf.stack stack
  | .hbmRetrain stack _ => Wf.stack stack
  | .rowRepair stack _ _ => Wf.stack stack
  | .sweepPageDone stack _ => Wf.stack stack
  | .memEraseDone => true
  | .memScrubDone tenant => Wf.tenant tenant
  | .showStatus binding => Wf.binding binding
  | .selfTest binding _ => Wf.binding binding
  | .kemPublic binding => Wf.binding binding
  | .setOwner binding => Wf.binding binding
  | .enrolKey binding => Wf.binding binding
  | .revokeKey binding => Wf.binding binding
  | .raiseMinVersion binding => Wf.binding binding
  | .setSigPolicy binding => Wf.binding binding
  | .setTenancy binding => Wf.binding binding
  | .loadMacsecCak binding => Wf.binding binding
  | .loadExportKey binding => Wf.binding binding
  | .deleteExportKey binding => Wf.binding binding
  | .rotateMemKey binding => Wf.binding binding
  | .releaseTenant binding => Wf.binding binding
  | .zeroise binding => Wf.binding binding
  | .getVersion binding => Wf.binding binding
  | .getCapabilities binding => Wf.binding binding
  | .negotiateAlgorithms binding => Wf.binding binding
  | .getDigests binding => Wf.binding binding
  | .getCertificate binding => Wf.binding binding
  | .challenge binding => Wf.binding binding
  | .getMeasurements binding => Wf.binding binding
  | .correctableError e => Wf.unit e.unit
  | .uncorrectableError unit _ => Wf.unit unit
  | .relUnitReset unit _ => Wf.unit unit
  | .unitRetire unit => Wf.unit unit
  | .unitReinstate unit _ => Wf.unit unit
  | .unitReset unit => Wf.unit unit
  | .relCoreReset core => Wf.core core
  | .watchdogExpiry => true
  | .avsCurrentRead domain _ => Wf.anyDie domain
  | .adaptiveVoltageStep domain _ => Wf.anyDie domain
  | .setpointReached domain _ => Wf.anyDie domain
  | .vwarnCrossing domain _ => Wf.anyDie domain
  | .stretchRelease domain _ _ _ _ => Wf.anyDie domain
  | .vrstCrossing domain _ => Wf.anyDie domain
  | .pwrRegFault domain _ => Wf.anyDie domain
  | .refInputLost _ => true
  | .refRevert _ => true
  | .refHoldExpiry => true
  | .adaptiveClockStep die _ => Wf.sdie die
  | .timingEmergency domain _ => Wf.anyDie domain
  | .thermalReading die => Wf.anyDie die
  | .tripRestore _ _ => true
  | .capPeriodEnd _ _ _ => true
  | .gaugeSample die _ => Wf.anyDie die
  | .mctpPacket binding _ => Wf.binding binding
  | .setEndpointId binding => Wf.binding binding
  | .getEndpointId binding => Wf.binding binding
  | .getEndpointUuid binding => Wf.binding binding
  | .getMctpVersionSupport binding => Wf.binding binding
  | .getMessageTypeSupport binding => Wf.binding binding
  | .getVendorDefinedMessageSupport binding => Wf.binding binding
  | .getTid binding => Wf.binding binding
  | .getPldmVersion binding => Wf.binding binding
  | .getPldmTypes binding => Wf.binding binding
  | .getPldmCommands binding => Wf.binding binding
  | .getSensorReading binding => Wf.binding binding
  | .getStateSensorReadings binding => Wf.binding binding
  | .getPdrRepositoryInfo binding => Wf.binding binding
  | .getPdr binding => Wf.binding binding
  | .setEventReceiver binding => Wf.binding binding
  | .queryDeviceIdentifiers binding => Wf.binding binding
  | .getFirmwareParameters binding => Wf.binding binding
  | .requestUpdate binding => Wf.binding binding
  | .passComponentTable binding => Wf.binding binding
  | .updateComponent binding => Wf.binding binding
  | .requestFirmwareData binding _ => Wf.binding binding
  | .transferComplete binding => Wf.binding binding
  | .verifyComplete binding => Wf.binding binding
  | .applyComplete binding => Wf.binding binding
  | .activateFirmware binding => Wf.binding binding
  | .getStatus binding => Wf.binding binding
  | .cancelUpdate binding => Wf.binding binding
  | .mgmtWarmReset value => Wf.word value
  | .mgmtColdReset value => Wf.word value
  | .registerWrite path tenant addr mask value => Wf.path path && Wf.tenant tenant && Wf.word addr && Wf.word mask && Wf.word value
  | .word0ReadLatch path tenant addr => Wf.path path && Wf.tenant tenant && Wf.word addr
  | .coldRstNAssert => true
  | .coldRstNDeassert => true
  | .warmRstNAssert => true
  | .warmRstNDeassert => true
  | .auxPgFall => true
  | .auxPgRise => true
  | .trstNAssert => true
  | .jtagBypass => true
  | .jtagSamplePreload => true
  | .jtagExtest => true
  | .jtagExtestPulse => true
  | .jtagExtestTrain => true
  | .jtagClamp => true
  | .jtagHighz => true
  | .powerUp _ _ => true
  | .trstNDeassert => true
  | .dynamicAddressAssignment _ => true
  | .sgmiiLinkChange _ => true
  | .stackTemperatureReport stack _ => Wf.stack stack
  | .hbmRefresh stack _ _ => Wf.stack stack
  | .dieLinkTrainingComplete link => Wf.link link
  | .mkaFrame port sub _ => Wf.recPort port sub
  | .lldpTransmit port sub => Wf.recPort port sub
  | .ptpLockLoss => true
  | .supplyRangeTimeout domain => Wf.anyDie domain
  | .replyLeftPort port sub _ _ => Wf.recPort port sub

end Sys2Proof
end

