-- ==== Sys2Proof/Tests/Slice0.lean ====
section
/-! SUPPORT. The row's own tests: for each obligation with hypotheses a state and operands that meet them (`wit_…`; what only a
free value decides is left out and said so), one ill-formed command for each check of `WellFormed`, and the worked examples of
the spec's chapters as single evaluations (`test_…`). -/

open Sys2Proof Sys2Proof.Machine
set_option Elab.async false
set_option maxRecDepth 4000
set_option linter.unusedVariables false

/-- A state with a model set active for tenant 0. -/
def tSet (m : ModelSet) : State := { head := { tenants := [{ active := some { set := m } }, {}, {}, {}] } }
/-- A record that came by Braid. -/
def tRec : Rec := { dest := .braid 0 0 0 }
/-- A state with one command accepted. -/
def tCmd (c : HwCmd) : State := { head := { cmds := [c] } }
/-- A state whose hub die 0 is as given. -/
def tHub (w : WeirHub) : State := { weir := { hubs := [w, {}] } }

/-- A chunk header of an export with no bucket (Table 6.15). -/
def tChunk : List Byte :=
  [0x45, 0x44, 0x45, 0x58, 1, 0, 0, 0] ++ List.replicate 20 0 ++ [0xFF, 0x0A] ++ List.replicate 50 0
/-- A run that stands at an instruction of an opcode. -/
def tRun (op : Nat) : VeRun := { prog := { code := [BitVec.ofNat 64 (op * 2 ^ 56)] }, lanes := [{}] }
/-- Vector engine 0 of hub die 0 in that run. -/
def tVe (op : Nat) : State := { ve := [{ runs := [(0, tRun op)] }, {}] }

/-- A record in stage 0 that is in hub die 0 as entry 0, with its die record and an instruction. -/
def tDie (x : DieRec) (l : List TileIns) : State :=
  { weir := { hubs := [{ recs := [(0, { r := tRec })], streams := [(0, {})] }, {}] }, die := { recs := [x], ins := l } }
/-- The body of a rule edit with one entry: an ADD at part 0, row 0. -/
def tEdit : List Byte := List.replicate 16 0 ++ (1 :: List.replicate 63 0)

/-- A state with a Sluice queue enabled. -/
def tQue (q : Nat) : State := { regs := [(regKey .sluQcfg q 0, 1)] }

/-- A security command at binding 0: a vendor message with a signed command of key 0 and counter 1; SIG_ALG is 0 for the
services that authenticate no one. -/
def tMsg (code : Nat) (body : List Byte) : List Byte :=
  [0x7F, 0, 0, 0, 0, 1] ++ leBytes 2 code ++ [if code < 0x11 then 0 else 3, 0, 0xFF, 0xFF, 0, 0] ++ leBytes 8 1 ++ leBytes 4 0 ++ leBytes 4 0 ++ leBytes 4 body.length ++
  leBytes 4 0 ++ body
def tSigned (code : Nat) (body : List Byte) : SignedCmd := parseSigned ((tMsg code body).drop 6)
/-- A security module in approved mode, with the owner key and that command at its front. -/
def tSvc (code : Nat) (body : List Byte) : State :=
  { sec := { approved := true, keys := [{ keyId := 0, role := 1, tenants := 15 }, { keyId := 1, tenants := 15 }] }, mgmt := { queue := [(0, tMsg code body)] } }
/-- A management message at the front of binding 1. -/
def tAsk (m : List Byte) : State := { sec := { approved := true }, mgmt := { queue := [(1, m)] } }

/-- A key entry of an operator, as a service's body holds it (Table 17.5). -/
def tEntry : List Byte := [2, 0, 0, 0, 2, 3, 0, 0] ++ List.replicate 2728 0

/-- Memory after the erase, with a sealed first sector. -/
def tMem : State := { mem := { erased := true, keys := List.replicate 5 (1, 2), seals := [(0, 1)] } }

/-- A set whose slot 0 holds one spilled tree of one block. -/
def tSpill : State := tSet { slots := [(0, [1, 0, 0x8000000000000000])] }

/-- A message that finds its egress queue full by its own size, and that a test takes. -/
theorem full_alone (m : BrMsg) (p : BrMsg → Bool) (h : 2 ^ 21 ≤ m.body.length) (hp : p m = true) : (foundFull 0 [m]).find? p = some m := by
  have : 2 ^ 21 < 0 + m.size := by
    have := List.length_append (as := m.body) (bs := List.replicate ((8 - m.body.length % 8) % 8) 0)
    unfold BrMsg.size padTo
    omega
  rw [foundFull, if_pos this, List.find?_cons_of_pos hp]
/-- A repair request of a body of `n` bytes, and a port that holds it. -/
def tLong (n : Nat) : BrMsg := { type := 5, body := List.replicate n 0 }
def tFull (n : Nat) : State := { regs := [(regKey .braidPortCfg 0 0, 2)], braid := { ports := [(0, { egress := [tLong n] })] }, time := { bt := 2 ^ 32 } }

/-- `Obligations.IdleStepIsTick`: states and operands that meet each clause's hypotheses. -/
theorem wit_idleStepIsTick :
  (∃ s : State, s.pending = []) ∧
  (∃ s : State, ¬ s.runs) :=
  ⟨⟨{}, rfl⟩,
  ⟨{ pins := { held := true } }, by unfold State.runs; decide⟩⟩

/-- `Obligations.StepKeepsInv`: states and operands that meet each clause's hypotheses. -/
theorem wit_stepKeepsInv :
  (∃ (s t : State), s.Inv ∧ step s = .next t) :=
  ⟨{}, _, by unfold State.Inv State.canon State.gradeLegal; decide,
    rfl⟩

/-- `Obligations.HeldResetStopsParts`: states and operands that meet each clause's hypotheses. -/
theorem wit_heldResetStopsParts :
  (∃ (c : Instr) (s : State), c.inReset = false ∧ ¬ s.runs) ∧
  (∃ (die stack temp : Nat) (s : State), s.pins.held = true) :=
  ⟨⟨.epochStart, { pins := { held := true } }, by decide +kernel,
    by unfold State.runs; decide⟩,
  ⟨9, 11, 105, { pins := { held := true } }, by decide +kernel⟩⟩

/-- `Obligations.FramesAtPorts`: states and operands that meet each clause's hypotheses. -/
theorem wit_framesAtPorts :
  (∃ (port sub : Nat) (f : RxFrame) (h : IpHead) (payload : List Byte) (sas : List SecAssoc) (s : State), s.runs ∧ s.portUsed (2 * port + sub) = true ∧
    s.portCfg (2 * port + sub) 0 0 = 1 ∧ (s.port (2 * port + sub)).up = true ∧ 64 ≤ f.len ∧ f.len ≤ 9216 ∧ f.tags = [] ∧
    f.len ≤ s.classShare (2 * port + sub) none ∧ f.fcsOk = true ∧ s.macsecCheck (2 * port + sub) f.secTag = some sas ∧ f.body = .ip h payload ∧
    s.portCfg (2 * port + sub) (if h.v6 then 2 else 1) (if h.v6 then 2 else 1) = 1 ∧ h.own = true ∧ h.plain = true ∧ h.udp = true ∧
    (if h.csumZero then !h.v6 else h.csumOk) = true ∧ h.dstPort = s.fld .tribCfg ((2 * port + sub) / 16) 0 31 16) ∧
  (∃ (port sub : Nat) (f : RxFrame) (s : State), s.runs ∧ s.portUsed (2 * port + sub) = true ∧ s.portCfg (2 * port + sub) 0 0 = 1 ∧
    (s.port (2 * port + sub)).up = true ∧ f.len < 64) ∧
  (∃ (port sub : Nat) (w : WaitFrame) (l : List WaitFrame) (s : State), s.runs ∧ (s.port (2 * port + sub)).waitA = w :: l ∧
    qLen (s.queue (2 * port + sub)) + (parseJrfHead w.payload).records ≤ s.queueCap (2 * port + sub)) ∧
  (∃ (port sub : Nat) (enable : BitVec 8) (quanta : PfcQuanta) (sas : List SecAssoc) (s : State), s.runs ∧ s.portUsed (2 * port + sub) = true ∧
    (s.port (2 * port + sub)).up = true ∧ s.macsecCheck (2 * port + sub) quanta.tag = some sas) ∧
  (∃ (port sub : Nat) (enable : BitVec 8) (quanta : PfcQuanta) (s : State), s.runs ∧ s.portUsed (2 * port + sub) = true ∧
    (s.port (2 * port + sub)).up = true ∧ s.macsecCheck (2 * port + sub) quanta.tag = none) ∧
  (∃ (port sub : Nat) (tag : Option SecTag) (sas : List SecAssoc) (s : State), s.runs ∧ s.portUsed (2 * port + sub) = true ∧
    (s.port (2 * port + sub)).up = true ∧ s.portCfg (2 * port + sub) 1 1 = 1 ∧ s.macsecCheck (2 * port + sub) tag = some sas) :=
  ⟨⟨0, 0, { body := .ip { dstPort := 5 } [] }, { dstPort := 5 }, [], [], { regs := [(regKey .tribCfg 0 0, 0x50000), (regKey .tribPortCfg 0 0, 3)], trib := { ports := [(0, { up := true })] } }, ⟨rfl, rfl⟩,
    by and_intros <;> decide +kernel⟩,
  ⟨0, 0, { len := 63 }, { regs := [(regKey .tribPortCfg 0 0, 1)], trib := { ports := [(0, { up := true })] } }, ⟨rfl, rfl⟩,
    by and_intros <;> decide +kernel⟩,
  ⟨0, 0, { dest := .braid 0 0 0 }, [], { trib := { ports := [(0, { waitA := [{ dest := .braid 0 0 0 }] })] } }, ⟨rfl, rfl⟩,
    by and_intros <;> decide +kernel⟩,
  ⟨0, 0, 1, {}, [], { trib := { ports := [(0, { up := true })] } }, ⟨rfl, rfl⟩,
    by and_intros <;> decide +kernel⟩,
  ⟨0, 0, 1, {}, { regs := [(regKey .tribPortCfg 0 0, 8)], trib := { ports := [(0, { up := true })] } }, ⟨rfl, rfl⟩,
    by and_intros <;> decide +kernel⟩,
  ⟨0, 0, none, [], { regs := [(regKey .tribPortCfg 0 0, 2)], trib := { ports := [(0, { up := true })] } }, ⟨rfl, rfl⟩,
    by and_intros <;> decide +kernel⟩⟩

/-- `Obligations.PortStates`: states and operands that meet each clause's hypotheses. -/
theorem wit_portStates :
  (∃ (port sub : Nat) (s : State), s.runs ∧ s.portUsed (2 * port + sub) = true ∧ s.portCfg (2 * port + sub) 0 0 = 1 ∧ 6 ≤ s.head.step ∧
    s.sec.error = false ∧ s.portCfg (2 * port + sub) 3 3 = 0) ∧
  (∃ (port sub : Nat) (s : State), s.runs) ∧
  (∃ (port sub : Nat) (a : SecAssoc) (s : State), s.runs ∧ (s.port (2 * port + sub)).txSa = some a ∧ 2 ^ 62 < a.pn ∧
    (s.port (2 * port + sub)).keyChange = false) ∧
  (∃ (port sub an key : Nat) (ckn : List Byte) (s : State), s.runs ∧ s.sec.caks.find? (2 * port + sub) = some (key, ckn) ∧
    s.portUsed (2 * port + sub) = true ∧ s.sec.error = false) ∧
  (∃ (port sub : Nat) (m : MkaMsg) (s : State), s.runs ∧ s.portUsed (2 * port + sub) = true ∧
    (∀ k, s.sec.caks.find? (2 * port + sub) = some k → m.auth = true → s.sec.error = false → k.2 ≠ m.ckn)) ∧
  (∃ (port sub : Nat) (s : State), s.runs ∧ s.mayTransmit (2 * port + sub) = true) :=
  ⟨⟨0, 0, { regs := [(regKey .tribPortCfg 0 0, 1)], head := { step := 6 } }, ⟨rfl, rfl⟩,
    by and_intros <;> decide +kernel⟩,
  ⟨15, 1, {}, ⟨rfl, rfl⟩⟩,
  ⟨0, 0, { pn := 2 ^ 62 + 1 }, { trib := { ports := [(0, { txSa := some { pn := 2 ^ 62 + 1 } })] } }, ⟨rfl, rfl⟩,
    by and_intros <;> decide +kernel⟩,
  ⟨0, 0, 3, 7, [], { sec := { caks := [(0, (7, []))] } }, ⟨rfl, rfl⟩,
    by and_intros <;> decide +kernel⟩,
  ⟨0, 0, { ckn := [1] }, { sec := { caks := [(0, (7, []))] } }, ⟨rfl, rfl⟩,
    by decide +kernel,
    by intro k h _ _; cases h; decide⟩,
  ⟨0, 0, { trib := { ports := [(0, { up := true })] } }, ⟨rfl, rfl⟩,
    by decide +kernel⟩⟩

/-- `Obligations.RepliesLeave`: states and operands that meet each clause's hypotheses. -/
theorem wit_repliesLeave :
  (∃ (hub : Nat) (key : SessionKey) (s : State), s.runs) ∧
  (∃ (port sub : Nat) (dest : Dest) (f : TxFrame) (s : State), s.runs ∧ (s.port (2 * port + sub)).gather.find? (fun f => f.dest = dest) = some f ∧
    f.first + s.coalesce ((2 * port + sub) / 16) ≤ s.now) ∧
  (∃ s : State, s.runs) ∧
  (∃ (port sub ago : Nat) (f : TxFrame) (l : List TxFrame) (s : State), s.runs ∧ s.mayTransmit (2 * port + sub) = true ∧
    s.replyPaused (2 * port + sub) = false ∧ (s.port (2 * port + sub)).txq = f :: l) ∧
  (∃ (port sub ago : Nat) (s : State), s.runs ∧ s.mayTransmit (2 * port + sub) = true ∧ s.replyPaused (2 * port + sub) = false ∧
    s.fld .tribEvt 0 4 19 16 = port ∧ s.fld .tribEvt 0 4 20 20 = sub) :=
  ⟨⟨1, {}, {}, ⟨rfl, rfl⟩⟩,
  ⟨0, 0, .braid 0 0 0, { dest := .braid 0 0 0 }, { regs := [(regKey .tribReply 0 0, 0)], trib := { ports := [(0, { gather := [{ dest := .braid 0 0 0 }] })] } }, ⟨rfl, rfl⟩,
    by and_intros <;> decide +kernel⟩,
  ⟨{}, ⟨rfl, rfl⟩⟩,
  ⟨0, 0, 0, { dest := .braid 0 0 0 }, [], { trib := { ports := [(0, { up := true, txq := [{ dest := .braid 0 0 0 }] })] } }, ⟨rfl, rfl⟩,
    by and_intros <;> decide +kernel⟩,
  ⟨2, 1, 0, { regs := [(regKey .tribEvt 0 4, 0x120000)], trib := { ports := [(5, { up := true })] } }, ⟨rfl, rfl⟩,
    by and_intros <;> decide +kernel⟩⟩

/-- `Obligations.TimeFollows`: states and operands that meet each clause's hypotheses. -/
theorem wit_timeFollows :
  (∃ s : State, s.runs ∧ s.time.started < s.epoch) ∧
  (∃ (epoch : Nat) (s : State), s.runs ∧ epoch ∈ s.weir.live ∧ epoch < s.epoch ∧ s.epochEmpty epoch = true) ∧
  (∃ (t epoch : Nat) (s : State), (∀ z, s.session t = some z → epoch < z.m)) ∧
  (∃ (t epoch : Nat) (z : Session12) (s : State), s.session t = some z ∧ z.m ≤ epoch ∧ (s.capOf t).digests.find? epoch = none) ∧
  (∃ (port : Nat) (w : TimeWord) (s : State), s.runs ∧ (s.brPort port).step = 6 ∧ s.fld .braidPortCfg port 0 2 1 = 0 ∧ w.onAlt = false ∧
    s.iAmRoot = false ∧ s.parentPort = some port) ∧
  (∃ s : State, s.runs ∧ s.time.state = 1 ∧ s.iAmRoot = false ∧ s.time.lastWord + 8192 ≤ s.now) ∧
  (∃ s : State, s.runs ∧ s.time.state = 2 ∧ s.time.holdFrom + 2 ^ 23 ≤ s.now) :=
  ⟨⟨{ time := { bt := 2 ^ 12 } }, ⟨rfl, rfl⟩,
    by decide +kernel⟩,
  ⟨0, { weir := { live := [0] }, time := { bt := 2 ^ 12 } }, ⟨rfl, rfl⟩,
    by and_intros <;> decide +kernel⟩,
  ⟨0, 0, {}, by intro z h; cases h⟩,
  ⟨0, 5, { m := 5 }, { cap := [{ session := some { m := 5 } }, {}, {}, {}] }, by and_intros <;> decide +kernel⟩,
  ⟨0, {}, { braid := { ports := [(0, { step := 6 })] }, regs := [(regKey .timeCfg 0 0, 0x20), (regKey .braidPortCfg 0 0, 0)] }, ⟨rfl, rfl⟩,
    by and_intros <;> decide +kernel⟩,
  ⟨{ time := { state := 1, bt := 8192 }, regs := [(regKey .timeCfg 0 0, 0x20)] }, ⟨rfl, rfl⟩,
    by and_intros <;> decide +kernel⟩,
  ⟨{ time := { state := 2, bt := 2 ^ 23 } }, ⟨rfl, rfl⟩,
    by and_intros <;> decide +kernel⟩⟩

/-- `Obligations.TimeOfRoot`: states and operands that meet each clause's hypotheses. -/
theorem wit_timeOfRoot :
  (∃ (port : Nat) (s : State), s.runs ∧ (s.brPort port).step = 6 ∧ (∀ t, s.time.sentAt.find? port = some t → t + 1024 ≤ s.now)) ∧
  (∃ s : State, s.runs ∧ s.iAmRoot = true ∧ s.time.state = 0 ∧ 6 < s.head.step ∧ s.time.firstUp = none ∧ (∀ b < 12, s.fld .braidPortCfg b 0 0 0 = 0)) ∧
  (∃ (t : Nat) (s : State), s.runs ∧ s.iAmRoot = true ∧ s.time.state = 0 ∧ 6 < s.head.step ∧ s.time.firstUp = some t ∧ t + 2 ^ 24 ≤ s.now ∧
    s.time.heard = []) ∧
  (∃ s : State, s.runs ∧ s.altEn = true ∧ s.time.onAlt = false ∧ s.iAmRoot = false ∧ s.time.lastBeat + 2 ^ 20 ≤ s.now) ∧
  (∃ (port : Nat) (m : PtpMsg) (r : List Nat) (sas : List SecAssoc) (s : State), s.runs ∧ s.portUsed (2 * port) = true ∧ (s.port (2 * port)).up = true ∧
    s.macsecCheck (2 * port) m.tag = some sas ∧ bit (s.rd .timePtp 0 0) 0 = true ∧ s.time.isRoot = true ∧ bits (s.rd .timePtp 0 0) 4 1 = port ∧
    bits (s.rd .timePtp 0 0) 6 5 = m.transport ∧ bits (s.rd .timePtp 0 0) 14 7 = m.domain ∧ m.kind = .announce r) ∧
  (∃ s : State, s.runs ∧ s.time.isRoot = true) :=
  ⟨⟨0, { braid := { ports := [(0, { step := 6 })] } }, ⟨rfl, rfl⟩,
    by and_intros <;> decide +kernel⟩,
  ⟨{ head := { step := 7 } }, ⟨rfl, rfl⟩,
    by and_intros <;> decide +kernel⟩,
  ⟨0, { head := { step := 7 }, time := { bt := 2 ^ 24, firstUp := some 0 } }, ⟨rfl, rfl⟩,
    by and_intros <;> decide +kernel⟩,
  ⟨{ regs := [(regKey .timeCfg 0 0, 0x80000020)], time := { bt := 2 ^ 20 } }, ⟨rfl, rfl⟩,
    by and_intros <;> decide +kernel⟩,
  ⟨0, { kind := .announce [1] }, [1], [], { regs := [(regKey .timePtp 0 0, 1)], time := { isRoot := true }, trib := { ports := [(0, { up := true })] } }, ⟨rfl, rfl⟩,
    by and_intros <;> decide +kernel⟩,
  ⟨{ time := { isRoot := true } }, ⟨rfl, rfl⟩,
    by decide +kernel⟩⟩

/-- `Obligations.AdmissionHeads`: states and operands that meet each clause's hypotheses. -/
theorem wit_admissionHeads :
  (∃ (queue : Nat) (n s : State), s.runs ∧ s.mayServe queue = true ∧ s.admitHead queue = some n) ∧
  (∃ (queue : Nat) (x : QEnt) (l : List QEnt) (s : State), s.runs ∧ s.mayServe queue = true ∧ s.queue queue = x :: l ∧ s.pastDeadline x.at_ = true ∧
    x.outcome = none ∧ s.pastReplay x = false) ∧
  (∃ (queue : Nat) (x : QEnt) (l : List QEnt) (n s : State), s.runs ∧ s.queue queue = x :: l ∧ x.r.replay = true ∧ s.mayServe queue = true ∧
    s.admitHead queue = some n) :=
  ⟨⟨0, _, { weir := { queues := [(0, [{ r := { dest := .braid 0 0 0, replay := true }, at_ := 0, outcome := some (1, 0) }])] } }, ⟨rfl, rfl⟩,
    by decide +kernel,
    rfl⟩,
  ⟨0, { r := { dest := .braid 0 0 0 } }, [], { time := { bt := 5000 }, weir := { queues := [(0, [{ r := { dest := .braid 0 0 0 } }])] } }, ⟨rfl, rfl⟩,
    by and_intros <;> decide +kernel⟩,
  ⟨0, { r := { dest := .braid 0 0 0, replay := true }, at_ := 0, outcome := some (1, 0) }, [], _, { weir := { queues := [(0, [{ r := { dest := .braid 0 0 0, replay := true }, at_ := 0, outcome := some (1, 0) }])] } }, ⟨rfl, rfl⟩,
    by decide +kernel,
    by decide +kernel,
    by decide +kernel,
    rfl⟩⟩

/-- `Obligations.StreamsRun`: states and operands that meet each clause's hypotheses. -/
theorem wit_streamsRun :
  (∃ (hub stream pick : Nat) (x : StreamSt) (s : State), s.runs ∧ s.stream? hub stream = some x ∧ x.state = 1 ∧ x.elem < x.desc.count ∧
    3 ≤ x.desc.kind ∧ s.engineReads hub x.desc.engine < 512 ∧ (x.desc.kind = 3 → s.spillNext hub stream x = true)) ∧
  (∃ (hub stream pick rep : Nat) (x : StreamSt) (e : RecEnt) (s : State), s.runs ∧ s.stream? hub stream = some x ∧ x.state = 1 ∧ x.elem < x.desc.count ∧
    x.desc.kind = 1 ∧ s.ent? hub pick = some e ∧ e.phase = .stage ∧ e.stage = 0 ∧ x.desc.stage = 0 ∧ (s.recPipe e).cascade = x.desc.cascade ∧
    e.r.tenant = x.tenant ∧ s.replicaFor hub e 1 x.desc.cascade 0 (s.recStage e).ensemble = some rep ∧ rep = x.replica) ∧
  (∃ (hub engine addr : Nat) (ok : Bool) (r : FetchRead) (s : State), s.runs ∧
    (s.hub hub).reads.find? (fun r => r.engine == engine && r.addr == addr) = some r ∧ 
    let kind := fun (u : Nat × Nat) => match (s.hub hub).streams.find? u.1 with | some x => x.desc.kind | none => 0
    let lines := (s.hub hub).bcache ++ [addr / 256]
    let c := (s.copies hub addr ++ placeOf addr).headD (0, 0)
    ok = true) ∧
  (∃ (hub engine addr : Nat) (ok : Bool) (r : FetchRead) (s : State), s.runs ∧
    (s.hub hub).reads.find? (fun r => r.engine == engine && r.addr == addr) = some r ∧ 
    let kind := fun (u : Nat × Nat) => match (s.hub hub).streams.find? u.1 with | some x => x.desc.kind | none => 0
    let lines := (s.hub hub).bcache ++ [addr / 256]
    let c := (s.copies hub addr ++ placeOf addr).headD (0, 0)
    ok = false) ∧
  (∃ (hub stream : Nat) (x : StreamSt) (s : State), s.runs ∧ s.stream? hub stream = some x ∧ x.state = 1 ∧ x.desc.count ≤ x.elem) ∧
  (∃ (hub stream base count : Nat) (n s : State), s.runs ∧ s.rearm hub stream base count = some n) ∧
  (∃ (hub rec_ : Nat) (e : RecEnt) (s : State), s.runs ∧ s.ent? hub rec_ = some e ∧ e.phase = .stage ∧ 0 < e.stage) ∧
  (∃ (hub stream : Nat) (x : StreamSt) (s : State), s.runs ∧ s.stream? hub stream = some x ∧ x.state = 3 ∧ x.rearm = none) :=
  ⟨⟨0, 511, 0, { desc := { kind := 3 }, state := 1 }, { tSpill with weir := (tHub { streams := [(511, { desc := { kind := 3 }, state := 1 })] }).weir }, ⟨rfl, rfl⟩,
    by and_intros <;> decide +kernel⟩,
  ⟨0, 0, 0, 0, { desc := { kind := 1 }, state := 1 }, { r := tRec, phase := .stage }, { tSet { rows := [{}] } with weir := (tHub { recs := [(0, { r := tRec, phase := .stage })], streams := [(0, { desc := { kind := 1 }, state := 1 })] }).weir }, ⟨rfl, rfl⟩,
    by and_intros <;> decide +kernel⟩,
  ⟨0, 0, 256, true, { addr := 256 }, tHub { reads := [{ addr := 256 }] }, ⟨rfl, rfl⟩,
    by and_intros <;> decide +kernel⟩,
  ⟨0, 0, 256, false, { addr := 256 }, tHub { reads := [{ addr := 256 }] }, ⟨rfl, rfl⟩,
    by and_intros <;> decide +kernel⟩,
  ⟨0, 0, { state := 1, elem := 1 }, tHub { streams := [(0, { state := 1, elem := 1 })] }, ⟨rfl, rfl⟩,
    by and_intros <;> decide +kernel⟩,
  ⟨0, 0, 0, 1, _, tHub { streams := [(0, { state := 2 })] }, ⟨rfl, rfl⟩,
    rfl⟩,
  ⟨0, 0, { r := tRec, phase := .stage, stage := 1 }, tHub { recs := [(0, { r := tRec, phase := .stage, stage := 1 })] }, ⟨rfl, rfl⟩,
    by and_intros <;> decide +kernel⟩,
  ⟨0, 0, { state := 3 }, tHub { streams := [(0, { state := 3 })] }, ⟨rfl, rfl⟩,
    by and_intros <;> decide +kernel⟩⟩

/-- `Obligations.DrainsEnd`: states and operands that meet each clause's hypotheses. -/
theorem wit_drainsEnd :
  (∃ (tenant : Nat) (s : State), s.runs ∧ s.frozenAt tenant s.epoch = true ∧ s.drainDue tenant = true ∧ (s.freezeOf tenant).drained = false ∧
    (s.hwT tenant).drainSwap = none) ∧
  (∃ (tenant n : Nat) (s : State), s.runs ∧ (s.freezeOf tenant).from_ = some n ∧ (s.freezeOf tenant).drained = false ∧
    (∀ h < 2, h ∉ (s.freezeOf tenant).timedOut ∧ n * s.epochLen + s.rd .weirDrain h 0 ≤ s.now ∧ s.busyTasks tenant h = [])) ∧
  (∃ (hub group m : Nat) (s : State), s.runs ∧ s.fld .bwCfg hub 0 0 0 ≠ 0 ∧
    2 ^ s.fld .bwCfg hub 0 5 1 ≤ SMap.getD (fun _ => 0) s.slu.bw (32 * hub + group) ∧ s.groupBlocked hub group = true ∧
    s.youngest hub group = some m ∧ m < 512) :=
  ⟨⟨0, { weir := { freeze := [{ drained := false }] } }, ⟨rfl, rfl⟩,
    by and_intros <;> decide +kernel⟩,
  ⟨0, 0, { weir := { freeze := [{ drained := false }] }, time := { bt := 4194304 } }, ⟨rfl, rfl⟩,
    by and_intros <;> decide +kernel⟩,
  ⟨0, 0, 0, { (tHub { recs := [(0, { r := tRec, phase := .issued, run := { issued := true, left := [0] } })], streams := [(0, { desc := { kind := 1 }, state := 2 })] }) with slu := { bw := [(0, 2 ^ 40)] } }, ⟨rfl, rfl⟩,
    by and_intros <;> decide +kernel⟩⟩

/-- `Obligations.EddyServes`: states and operands that meet each clause's hypotheses. -/
theorem wit_eddyServes :
  (∃ (q : EddyReq) (x : Nat × EddyReq) (s : State), s.runs ∧ (nth s.eddy.queues (q.part / 6) []).length < 65536 ∧
    s.eddy.handed.find? (fun x => x.2 = q) = some x ∧ 
    let n := { s with eddy := { s.eddy with handed := s.eddy.handed.erase x } }
    n.now < n.fenceAt q ∧ n.homeMismatch q = false ∧ q.part ∉ n.eddy.lost) ∧
  (∃ (p : Nat) (q : EddyReq) (s : State), s.runs ∧ (nth s.eddy.queues (q.part / 6) []).length < 65536 ∧ (s.brPort p).step = 6 ∧ s.time.state ≠ 0 ∧
    s.now < s.fenceAt q ∧ s.homeMismatch q = false ∧ q.part ∉ s.eddy.lost) ∧
  (∃ (p : Nat) (q : EddyReq) (s : State), s.runs ∧ (nth s.eddy.queues (q.part / 6) []).length < 65536 ∧ (s.brPort p).step = 6 ∧ s.time.state ≠ 0 ∧
    s.fenceAt q ≤ s.now) ∧
  (∃ (hub : Nat) (x : OrderEnt) (s : State), s.runs ∧ firstReq (nth s.eddy.queues hub []) = some x ∧ s.fenceAt x.q ≤ s.now) ∧
  (∃ (b : SnapBody) (s : State), s.runs ∧ b ∈ s.eddy.back) ∧
  (∃ (p : Nat) (b : SnapBody) (s : State), s.runs ∧ (s.brPort p).step = 6) ∧
  (∃ (hub ent : Nat) (e : RecEnt) (s : State), s.runs ∧ s.ent? hub ent = some e ∧ e.phase = .snaps ∧ e.at_ + s.fence + s.fld .eddyCfg 0 0 15 0 ≤ s.now) :=
  ⟨⟨{}, (0, {}), { eddy := { handed := [(0, {})] }, regs := [(regKey .eddyHome 0 0, 0x80000000)], head := { tenants := [{ active := some { set := { schema := some { classes := [{}] } } } }] } }, ⟨rfl, rfl⟩,
    by and_intros <;> decide +kernel⟩,
  ⟨0, {}, { braid := { ports := [(0, { step := 6 })] }, time := { state := 1 }, regs := [(regKey .eddyHome 0 0, 0x80000000)], head := { tenants := [{ active := some { set := { schema := some { classes := [{}] } } } }] } }, ⟨rfl, rfl⟩,
    by and_intros <;> decide +kernel⟩,
  ⟨0, {}, { braid := { ports := [(0, { step := 6 })] }, time := { state := 1, bt := 1856 } }, ⟨rfl, rfl⟩,
    by and_intros <;> decide +kernel⟩,
  ⟨0, {}, { eddy := { queues := [[{}], []] }, time := { bt := 1856 } }, ⟨rfl, rfl⟩,
    by and_intros <;> decide +kernel⟩,
  ⟨{}, { eddy := { back := [{}] } }, ⟨rfl, rfl⟩,
    by decide +kernel⟩,
  ⟨0, {}, { braid := { ports := [(0, { step := 6 })] } }, ⟨rfl, rfl⟩,
    by decide +kernel⟩,
  ⟨0, 0, { r := tRec, phase := .snaps }, { (tHub { recs := [(0, { r := tRec, phase := .snaps })] }) with time := { bt := 2 ^ 17 } }, ⟨rfl, rfl⟩,
    by and_intros <;> decide +kernel⟩⟩

/-- `Obligations.EddyMoves`: states and operands that meet each clause's hypotheses (but what only a free value decides). -/
theorem wit_eddyMoves :
  (∃ (c : HwCmd) (l : List HwCmd) (k : ExportKey) (s : State), s.runs ∧ s.firstCmd 0x0030 c l ∧ c.cmd.body.length = 8 ∧ 
    let n := s.leaving l
    let t := c.cmd.tenant
    let id := leAt c.cmd.body 0 4
    n.showDrained t = true ∧ n.exportKey? t (leAt c.cmd.body 4 4) = some k ∧ n.eddy.exports.any (fun x => x.tenant == t) = false) ∧
  (∃ (tenant : Nat) (x : ExportSt) (s : State), s.runs ∧ s.eddy.exports.find? (fun x => x.tenant == tenant) = some x) ∧
  (∃ (c : HwCmd) (l : List HwCmd) (k : ExportKey) (s : State), s.runs ∧ s.firstCmd 0x0031 c l ∧ c.cmd.body.length = 8 ∧ 
    let n := s.leaving l
    let t := c.cmd.tenant
    n.showDrained t = true ∧ n.exportKey? t (leAt c.cmd.body 4 4) = some k ∧ n.eddy.imports.any (fun x => x.tenant == t) = false) ∧
  (∃ (c : HwCmd) (l : List HwCmd) (x : ImportSt) (s : State), s.runs ∧ s.firstCmd 0x0032 c l ∧ 80 ≤ c.cmd.body.length ∧ 
    let n := s.leaving l
    n.eddy.imports.find? (fun x => x.tenant == c.cmd.tenant) = some x) ∧
  (∃ (c : HwCmd) (l : List HwCmd) (x : ImportSt) (plain : List Byte) (s : State), s.runs ∧ s.firstCmd 0x0032 c l ∧ 80 ≤ c.cmd.body.length ∧ 
    let n := s.leaving l
    let b := c.cmd.body
    let t := c.cmd.tenant
    let cls := leAt b 7 1
    let part := leAt b 6 1
    let k := match n.active t with | some i => (i.set.keyClass cls).getD { slot := 0xFF } | none => { slot := 0xFF }
    let count := leAt b 0x1E 1
    let size := 72 + 8 * slotBytes k.slot
    n.eddy.imports.find? (fun x => x.tenant == t) = some x ∧ leAt b 0 4 = 0x58454445 ∧ leAt b 4 1 = 1 ∧ part < 12 ∧ leAt b 8 4 = x.exportId ∧
    leAt b 0x18 4 = keyCheck (n.domKey t) ∧ leAt b 0x16 2 = n.rd .eddyHomeGen t 0 % 65536 ∧ leAt b 0x1C 1 = k.slot ∧ leAt b 0x1D 1 = k.bucketsLog2 ∧
    plain.length = count * size ∧ (∀ i < count, leAt plain (i * size) 4 < 2 ^ k.bucketsLog2) ∧
    x.taken.contains (12 * cls + part, leAt b 0xC 4) = false) :=
  ⟨⟨{ cmd := { cmd := 0x30, body := List.replicate 8 0 } }, [], {}, { tCmd { cmd := { cmd := 0x30, body := List.replicate 8 0 } } with sec := { exportKeys := [{}] } }, ⟨rfl, rfl⟩,
    by unfold State.firstCmd; decide +kernel,
    by and_intros <;> decide +kernel⟩,
  ⟨0, {}, { eddy := { exports := [{}] } }, ⟨rfl, rfl⟩,
    by decide +kernel⟩,
  ⟨{ cmd := { cmd := 0x31, body := List.replicate 8 0 } }, [], {}, { tCmd { cmd := { cmd := 0x31, body := List.replicate 8 0 } } with sec := { exportKeys := [{}] } }, ⟨rfl, rfl⟩,
    by unfold State.firstCmd; decide +kernel,
    by and_intros <;> decide +kernel⟩,
  ⟨{ cmd := { cmd := 0x32, body := List.replicate 80 0 } }, [], {}, { tCmd { cmd := { cmd := 0x32, body := List.replicate 80 0 } } with eddy := { imports := [{}] } }, ⟨rfl, rfl⟩,
    by unfold State.firstCmd; decide +kernel,
    by and_intros <;> decide +kernel⟩,
  ⟨{ cmd := { cmd := 0x32, body := tChunk } }, [], {}, [], { tCmd { cmd := { cmd := 0x32, body := tChunk } } with eddy := { imports := [{}] } }, ⟨rfl, rfl⟩,
    by unfold State.firstCmd; decide +kernel,
    by and_intros <;> decide +kernel⟩⟩

/-- `Obligations.VeRunsGo`: states and operands that meet each clause's hypotheses. -/
theorem wit_veRunsGo :
  (∃ (hub batch : Nat) (b : VeBatch) (s : State), s.runs ∧ (s.veHub hub).batches[batch]? = some b ∧ b.opened + s.fld .veCfg hub 0 7 0 ≤ s.hubCycles hub) ∧
  (∃ (hub engine batch i : Nat) (b : VeBatch) (e : RecEnt) (es : List (Nat × RecEnt)) (s : State), s.runs ∧ (s.veHub hub).batches[batch]? = some b ∧
    (s.engine hub engine).state = 0 ∧ (s.veHub hub).runs.find? engine = none ∧ s.nextBatch hub b = true ∧ s.avoided hub engine b = false ∧
    (b.recs.take 32).filterMap (fun i => (s.ent? hub i).map (fun e => (i, e))) = (i, e) :: es) ∧
  (∃ (hub engine : Nat) (r : VeRun) (s : State), s.runs ∧ (s.veHub hub).runs.find? engine = some r ∧ r.prog.code.length ≤ r.pc) ∧
  (∃ (hub engine v : Nat) (s : State), s.runs ∧ (s.engine hub engine).loading = some v) ∧
  (∃ (hub engine : Nat) (r : VeRun) (s : State), s.runs ∧ s.runAt hub engine 0x02 r) ∧
  (∃ (hub engine : Nat) (r : VeRun) (fr : LoopFrame) (rest : List LoopFrame) (s : State), s.runs ∧ s.runAt hub engine 0x03 r ∧ r.loops = fr :: rest) ∧
  (∃ (e : RecEnt) (p : VProg) (finish : Bool) (s : State), ∃ i : Nat, 
    let l := s.startLane e p finish
    let ft := (s.recSet e).ftable
    1 ≤ i ∧ i ≤ 31) ∧
  (∃ (e : RecEnt) (p : VProg) (finish : Bool) (s : State), ∃ i : Nat, 
    let l := s.startLane e p finish
    let ft := (s.recSet e).ftable
    1 ≤ i ∧ i ≤ 7) ∧
  (∃ (e : RecEnt) (p : VProg) (finish : Bool) (s : State), ∃ i : Nat, 
    let l := s.startLane e p finish
    let ft := (s.recSet e).ftable
    finish = false ∧ i < 16) ∧
  (∃ (e : RecEnt) (p : VProg) (finish : Bool) (s : State), 
    let l := s.startLane e p finish
    let ft := (s.recSet e).ftable
    finish = false ∧ (bit p.flags 0 = false ∨ e.keys ≠ [])) ∧
  (∃ (e : RecEnt) (p : VProg) (finish : Bool) (s : State), ∃ f : Nat, 
    let l := s.startLane e p finish
    let ft := (s.recSet e).ftable
    finish = false ∧ bit p.flags 0 = true ∧ e.keys = [] ∧ f < ft.length) :=
  ⟨⟨0, 0, {}, { ve := [{ batches := [{}] }, {}], power := { dies := List.replicate 10 { run := 256 } } }, ⟨rfl, rfl⟩,
    by and_intros <;> decide +kernel⟩,
  ⟨0, 0, 0, 0, { recs := [0], due := true }, { r := tRec }, [], { (tHub { recs := [(0, { r := tRec })] }) with ve := [{ batches := [{ recs := [0], due := true }] }, {}] }, ⟨rfl, rfl⟩,
    by and_intros <;> decide +kernel⟩,
  ⟨0, 33, {}, { ve := [{ runs := [(33, {})] }, {}] }, ⟨rfl, rfl⟩,
    by and_intros <;> decide +kernel⟩,
  ⟨0, 33, 0, { rel := { engines := [(33, { loading := some 0 })] } }, ⟨rfl, rfl⟩,
    by decide +kernel⟩,
  ⟨0, 0, tRun 0x02, tVe 0x02, ⟨rfl, rfl⟩,
    by unfold State.runAt; decide +kernel⟩,
  ⟨0, 0, { tRun 0x03 with loops := [{}] }, {}, [], { ve := [{ runs := [(0, { tRun 0x03 with loops := [{}] })] }, {}] }, ⟨rfl, rfl⟩,
    by unfold State.runAt; decide +kernel,
    by decide +kernel⟩,
  ⟨{ r := tRec }, {}, true, {}, 31, by and_intros <;> decide +kernel⟩,
  ⟨{ r := tRec }, {}, true, {}, 7, by and_intros <;> decide +kernel⟩,
  ⟨{ r := tRec }, {}, false, {}, 15, by and_intros <;> decide +kernel⟩,
  ⟨{ r := tRec }, {}, false, {}, by decide +kernel,
    .inl rfl⟩,
  ⟨{ r := tRec }, { flags := 1 }, false, tSet { ftable := [default] }, 0, by and_intros <;> decide +kernel⟩⟩

/-- `Obligations.EvalRuns`: states and operands that meet each clause's hypotheses. -/
theorem wit_evalRuns :
  (∃ (die unit hub ent phys acc : Nat) (opt : Option Nat) (order : List Nat) (ups : List (Nat × Nat × MuEntry)) (x y : DieRec) (e : RecEnt) (run : StageRun) (s w : State), s.runs ∧ s.dieRec? die hub ent opt = some x ∧ s.ent? hub ent = some e ∧ e.runOf opt = some run ∧ 
    let c := s.evalCtx e x.ens
    s.physOf c.m die unit = some phys ∧ unit ∈ x.todo ∧ s.replicaOk c.m x.ens run.replica = true ∧ s.takeBank x = some y ∧
    s.accFit die phys (x.sums.length * accWidth x.path) = some acc ∧ s.vectorIn x c e run.replica unit phys = some w ∧ 
    let r := c.runIn die unit y.ens
    let sp := fun (i : Nat) => decide (unit < 66) && (dirAt (c.m.slotImg (66 * die + unit)) i).spill
    let chip := r.indices.filter (fun i => !sp i)
    let ready := laneOrder c.lock (if unit < 66 then w.pairsAhead die phys (fun _ => false) else []) r.first chip order
    let set := (w.recInst e).getD {}
    let hosted := if unit < 66 then (w.tile die phys).hosted == some unit else (w.mu die (phys - 66)).hosted == some (unit - 66)
    let t : TileIns := { die := die, unit := unit, phys := phys, hub := hub, ent := ent, stream := y.stream, gen := y.gen, opt := opt, ens := y.ens,
                         path := y.path, half := if set.full then 0 else if hosted then 1 - set.half else set.half,
                         rbuf := (w.bufFit die phys hub ent 0).getD 0, accBase := acc, acc := List.replicate y.sums.length 0, dirFirst := r.first,
                         dirCount := r.count, todo := chip.filter (fun i => !ready.contains i), spills := r.indices.filter sp }
    let a := w.setDieRec { y with todo := y.todo.filter (· ≠ unit), expected := y.expected + 1, taken := true }
    let n := { a with die := { a.die with ins := a.die.ins ++ [t] } }
    let q := n.evalTrees c t ready
    unit < 66 ∧ q.1.windowTree c q.2 = none) ∧
  (∃ (die unit hub ent phys acc : Nat) (opt : Option Nat) (order : List Nat) (ups : List (Nat × Nat × MuEntry)) (x y : DieRec) (e : RecEnt) (run : StageRun) (s w : State), ∃ i : Nat, s.runs ∧ s.dieRec? die hub ent opt = some x ∧ s.ent? hub ent = some e ∧ e.runOf opt = some run ∧ 
    let c := s.evalCtx e x.ens
    s.physOf c.m die unit = some phys ∧ unit ∈ x.todo ∧ s.replicaOk c.m x.ens run.replica = true ∧ s.takeBank x = some y ∧
    s.accFit die phys (x.sums.length * accWidth x.path) = some acc ∧ s.vectorIn x c e run.replica unit phys = some w ∧ 
    let r := c.runIn die unit y.ens
    let sp := fun (i : Nat) => decide (unit < 66) && (dirAt (c.m.slotImg (66 * die + unit)) i).spill
    let chip := r.indices.filter (fun i => !sp i)
    let ready := laneOrder c.lock (if unit < 66 then w.pairsAhead die phys (fun _ => false) else []) r.first chip order
    let set := (w.recInst e).getD {}
    let hosted := if unit < 66 then (w.tile die phys).hosted == some unit else (w.mu die (phys - 66)).hosted == some (unit - 66)
    let t : TileIns := { die := die, unit := unit, phys := phys, hub := hub, ent := ent, stream := y.stream, gen := y.gen, opt := opt, ens := y.ens,
                         path := y.path, half := if set.full then 0 else if hosted then 1 - set.half else set.half,
                         rbuf := (w.bufFit die phys hub ent 0).getD 0, accBase := acc, acc := List.replicate y.sums.length 0, dirFirst := r.first,
                         dirCount := r.count, todo := chip.filter (fun i => !ready.contains i), spills := r.indices.filter sp }
    let a := w.setDieRec { y with todo := y.todo.filter (· ≠ unit), expected := y.expected + 1, taken := true }
    let n := { a with die := { a.die with ins := a.die.ins ++ [t] } }
    let q := n.evalTrees c t ready
    unit < 66 ∧ q.1.windowTree c q.2 = some i) ∧
  (∃ (die unit hub ent phys acc : Nat) (opt : Option Nat) (order : List Nat) (ups : List (Nat × Nat × MuEntry)) (x y : DieRec) (e : RecEnt) (run : StageRun) (s w : State), ∃ (m : State) (u : TileIns), s.runs ∧ s.dieRec? die hub ent opt = some x ∧ s.ent? hub ent = some e ∧ e.runOf opt = some run ∧ 
    let c := s.evalCtx e x.ens
    s.physOf c.m die unit = some phys ∧ unit ∈ x.todo ∧ s.replicaOk c.m x.ens run.replica = true ∧ s.takeBank x = some y ∧
    s.accFit die phys (x.sums.length * accWidth x.path) = some acc ∧ s.vectorIn x c e run.replica unit phys = some w ∧ 
    let r := c.runIn die unit y.ens
    let sp := fun (i : Nat) => decide (unit < 66) && (dirAt (c.m.slotImg (66 * die + unit)) i).spill
    let chip := r.indices.filter (fun i => !sp i)
    let ready := laneOrder c.lock (if unit < 66 then w.pairsAhead die phys (fun _ => false) else []) r.first chip order
    let set := (w.recInst e).getD {}
    let hosted := if unit < 66 then (w.tile die phys).hosted == some unit else (w.mu die (phys - 66)).hosted == some (unit - 66)
    let t : TileIns := { die := die, unit := unit, phys := phys, hub := hub, ent := ent, stream := y.stream, gen := y.gen, opt := opt, ens := y.ens,
                         path := y.path, half := if set.full then 0 else if hosted then 1 - set.half else set.half,
                         rbuf := (w.bufFit die phys hub ent 0).getD 0, accBase := acc, acc := List.replicate y.sums.length 0, dirFirst := r.first,
                         dirCount := r.count, todo := chip.filter (fun i => !ready.contains i), spills := r.indices.filter sp }
    let a := w.setDieRec { y with todo := y.todo.filter (· ≠ unit), expected := y.expected + 1, taken := true }
    let n := { a with die := { a.die with ins := a.die.ins ++ [t] } }
    let q := n.evalTrees c t ready
    66 ≤ unit ∧ n.evalSels c ups t ready = (m, some u)) ∧
  (∃ (die unit hub ent phys acc : Nat) (opt : Option Nat) (order : List Nat) (ups : List (Nat × Nat × MuEntry)) (x y : DieRec) (e : RecEnt) (run : StageRun) (s w : State), ∃ m : State, s.runs ∧ s.dieRec? die hub ent opt = some x ∧ s.ent? hub ent = some e ∧ e.runOf opt = some run ∧ 
    let c := s.evalCtx e x.ens
    s.physOf c.m die unit = some phys ∧ unit ∈ x.todo ∧ s.replicaOk c.m x.ens run.replica = true ∧ s.takeBank x = some y ∧
    s.accFit die phys (x.sums.length * accWidth x.path) = some acc ∧ s.vectorIn x c e run.replica unit phys = some w ∧ 
    let r := c.runIn die unit y.ens
    let sp := fun (i : Nat) => decide (unit < 66) && (dirAt (c.m.slotImg (66 * die + unit)) i).spill
    let chip := r.indices.filter (fun i => !sp i)
    let ready := laneOrder c.lock (if unit < 66 then w.pairsAhead die phys (fun _ => false) else []) r.first chip order
    let set := (w.recInst e).getD {}
    let hosted := if unit < 66 then (w.tile die phys).hosted == some unit else (w.mu die (phys - 66)).hosted == some (unit - 66)
    let t : TileIns := { die := die, unit := unit, phys := phys, hub := hub, ent := ent, stream := y.stream, gen := y.gen, opt := opt, ens := y.ens,
                         path := y.path, half := if set.full then 0 else if hosted then 1 - set.half else set.half,
                         rbuf := (w.bufFit die phys hub ent 0).getD 0, accBase := acc, acc := List.replicate y.sums.length 0, dirFirst := r.first,
                         dirCount := r.count, todo := chip.filter (fun i => !ready.contains i), spills := r.indices.filter sp }
    let a := w.setDieRec { y with todo := y.todo.filter (· ≠ unit), expected := y.expected + 1, taken := true }
    let n := { a with die := { a.die with ins := a.die.ins ++ [t] } }
    let q := n.evalTrees c t ready
    66 ≤ unit ∧ n.evalSels c ups t ready = (m, none)) ∧
  (∃ (die unit hub ent phys : Nat) (opt : Option Nat) (order : List Nat) (ups : List (Nat × Nat × MuEntry)) (x : DieRec) (e : RecEnt) (run : StageRun) (s : State), s.runs ∧ s.dieRec? die hub ent opt = some x ∧ s.ent? hub ent = some e ∧ e.runOf opt = some run ∧ s.physOf (s.evalCtx e x.ens).m die unit = some phys ∧ (s.takeBank x = none ∨ s.accFit die phys (x.sums.length * accWidth x.path) = none ∨ s.vectorIn x (s.evalCtx e x.ens) e run.replica unit phys = none)) :=
  ⟨⟨0, 0, 0, 0, 0, 0, none, [], [], { todo := [0] }, { todo := [0], held := true }, { r := tRec }, {}, tDie { todo := [0] } [], _, ⟨rfl, rfl⟩,
    by decide +kernel,
    by decide +kernel,
    by decide +kernel,
    by decide +kernel,
    (by decide +kernel),
    by decide +kernel,
    by decide +kernel,
    by decide +kernel,
    rfl,
    by and_intros <;> decide +kernel⟩,
  ⟨0, 0, 0, 0, 0, 0, none, [], [], { todo := [0] }, { todo := [0], held := true }, { r := tRec }, {}, { tSet { slots := [(0, [1, 0, 0x8000000000000000])], runs := [(0, [{ count := 1 }])] } with die := (tDie { todo := [0] } []).die, weir := (tHub { recs := [(0, { r := tRec })], streams := [(0, { desc := { kind := 3 }, win := { cur := some 0 } })] }).weir }, _, 0, ⟨rfl, rfl⟩,
    by decide +kernel,
    by decide +kernel,
    by decide +kernel,
    by decide +kernel,
    (by decide +kernel),
    by decide +kernel,
    by decide +kernel,
    by decide +kernel,
    rfl,
    by and_intros <;> decide +kernel⟩,
  ⟨7, 73, 0, 0, 73, 0, none, [], [], { die := 7, todo := [73] }, { die := 7, todo := [73], held := true }, { r := tRec }, {}, tDie { die := 7, todo := [73] } [], _, _, _, ⟨rfl, rfl⟩,
    by decide +kernel,
    by decide +kernel,
    by decide +kernel,
    by decide +kernel,
    (by decide +kernel),
    by decide +kernel,
    by decide +kernel,
    by decide +kernel,
    rfl,
    by decide +kernel,
    rfl⟩,
  ⟨7, 73, 0, 0, 73, 0, none, [], [(70, 0, { pres := 3 }), (70, 1, { pres := 3 })], { die := 7, todo := [73] }, { die := 7, todo := [73], held := true }, { r := tRec }, {}, { (tDie { die := 7, todo := [73] } []) with head := { tenants := [{ active := some { units := [(70, { selectors := [{}] })] } }, {}, {}, {}] } }, _, _, ⟨rfl, rfl⟩,
    by decide +kernel,
    by decide +kernel,
    by decide +kernel,
    by decide +kernel,
    (by decide +kernel),
    by decide +kernel,
    by decide +kernel,
    by decide +kernel,
    rfl,
    by decide +kernel,
    rfl⟩,
  ⟨0, 65, 0, 0, 64, none, [], [], { todo := [65], sums := List.replicate 4097 0 }, { r := tRec }, {}, { (tDie { todo := [65], sums := List.replicate 4097 0 } []) with rel := { tiles := [(64, { held := some 65 })] } }, ⟨rfl, rfl⟩,
    by and_intros <;> decide +kernel⟩⟩

/-- `Obligations.DieSumsPass`: states and operands that meet each clause's hypotheses. -/
theorem wit_dieSumsPass :
  (∃ (die unit hub ent : Nat) (opt : Option Nat) (t : TileIns) (e : RecEnt) (s : State), s.runs ∧ unit < 66 ∧
    s.die.ins.find? (fun t => t.is die unit hub ent opt && !t.pool && !t.done) = some t ∧ s.ent? hub ent = some e ∧ s.genNow t = true ∧
    t.spills = [] ∧ t.pooled = 0 ∧ contextFree (s.evalCtx e t.ens).lock (s.pairsAhead die t.phys (fun x => x == t)) (t.todo.map (· - t.dirFirst)) = true) ∧
  (∃ (die unit hub ent : Nat) (opt : Option Nat) (t : TileIns) (e : RecEnt) (s : State), s.runs ∧
    s.die.ins.find? (fun t => t.is die unit hub ent opt && !t.pool && !t.done) = some t ∧ s.ent? hub ent = some e ∧ s.genNow t = false) ∧
  (∃ (die unit hub ent : Nat) (opt : Option Nat) (t u : TileIns) (e : RecEnt) (s m : State), s.runs ∧ 66 ≤ unit ∧
    s.die.ins.find? (fun t => t.is die unit hub ent opt && !t.pool && !t.done) = some t ∧ s.ent? hub ent = some e ∧ s.genNow t = true ∧
    t.spills = [] ∧ t.pooled = 0 ∧ s.evalSels (s.evalCtx e t.ens) [] t t.todo = (m, some u)) ∧
  (∃ (die hub ent : Nat) (opt : Option Nat) (x y : DieRec) (e : RecEnt) (run : StageRun) (s : State), s.runs ∧ s.dieRec? die hub ent opt = some x ∧
    s.ent? hub ent = some e ∧ e.runOf opt = some run ∧ x.needPre = true ∧ s.takeBank x = some y) ∧
  (∃ (die unit hub ent : Nat) (opt : Option Nat) (t : TileIns) (x : DieRec) (s : State), s.runs ∧
    s.die.ins.find? (fun t => t.is die unit hub ent opt && t.done) = some t ∧ s.dieRec? die hub ent opt = some x ∧ x.gen = t.gen ∧ x.needPre = false) ∧
  (∃ (die unit hub ent : Nat) (opt : Option Nat) (t : TileIns) (x : DieRec) (s : State), s.runs ∧
    s.die.ins.find? (fun t => t.is die unit hub ent opt && t.done) = some t ∧ s.dieRec? die hub ent opt = some x ∧ x.gen ≠ t.gen) ∧
  (∃ (die unit hub ent : Nat) (opt : Option Nat) (s : State), s.runs) :=
  ⟨⟨0, 65, 0, 0, none, { unit := 65 }, { r := tRec }, tDie {} [{ unit := 65 }], ⟨rfl, rfl⟩,
    by and_intros <;> decide +kernel⟩,
  ⟨0, 0, 0, 0, none, { gen := 1 }, { r := tRec }, tDie {} [{ gen := 1 }], ⟨rfl, rfl⟩,
    by and_intros <;> decide +kernel⟩,
  ⟨0, 66, 0, 0, none, { unit := 66 }, _, { r := tRec }, tDie {} [{ unit := 66 }], _, ⟨rfl, rfl⟩,
    by decide +kernel,
    by decide +kernel,
    by decide +kernel,
    by decide +kernel,
    (by decide +kernel),
    by decide +kernel,
    rfl⟩,
  ⟨0, 0, 0, none, { needPre := true }, { needPre := true, held := true }, { r := tRec }, {}, tDie { needPre := true } [], ⟨rfl, rfl⟩,
    by and_intros <;> decide +kernel⟩,
  ⟨0, 0, 0, 0, none, { done := true }, {}, tDie {} [{ done := true }], ⟨rfl, rfl⟩,
    by and_intros <;> decide +kernel⟩,
  ⟨0, 0, 0, 0, none, { done := true }, { gen := 1 }, tDie { gen := 1 } [{ done := true }], ⟨rfl, rfl⟩,
    by and_intros <;> decide +kernel⟩,
  ⟨7, 73, 1, 0, some 3, {}, ⟨rfl, rfl⟩⟩⟩

/-- `Obligations.DiesReturn`: states and operands that meet each clause's hypotheses. -/
theorem wit_diesReturn :
  (∃ (die tile owner hub ent first count acc : Nat) (opt : Option Nat) (t : TileIns) (x : DieRec) (e : RecEnt) (sl : Nat) (s : State), s.runs ∧
    s.die.ins.find? (fun t => t.die == die && t.phys == owner && t.hub == hub && t.ent == ent && t.opt == opt && !t.pool && !t.todo.isEmpty) = some t ∧ s.ent? hub ent = some e ∧ s.dieRec? die hub ent opt = some x ∧ x.gen = t.gen ∧ s.genNow t = true ∧ e.lock = false ∧ s.fld .tileDieCfg die 0 0 0 ≠ 0 ∧ (s.tile die tile).state = 0 ∧ (s.tile die tile).resetting = false ∧ (s.tile die tile).held = some sl ∧ ((s.evalCtx e t.ens).m.slots.find? (66 * die + sl)).isSome = true ∧ s.die.ins.any (fun x => x.die == die && x.phys == tile && !(x.todo.isEmpty && x.spills.isEmpty)) = false ∧ ((∀ p < 66, s.pendingPairs die p t < s.pendingPairs die owner t ∨ (s.pendingPairs die p t = s.pendingPairs die owner t ∧ owner ≤ p))) ∧ (t.todo.drop first).take (min count 32) ≠ [] ∧ tile ≠ owner ∧ t.unit < 66 ∧ s.accFit die tile (t.acc.length * accWidth t.path) = some acc) ∧
  (∃ (die unit idx h st : Nat) (x : StreamSt) (s : State), s.runs ∧ s.filledWindow die unit idx = some (h, st, x)) ∧
  (∃ (die hub : Nat) (p : DiePart) (e : RecEnt) (x : StreamSt) (s : State), s.runs ∧
    s.die.parts.find? (fun p => p.die == die && p.hub == hub) = some p ∧ 
    let n := { s with die := { s.die with parts := s.die.parts.erase p } }
    n.ent? hub p.ent = some e ∧ n.stream? hub p.stream = some x ∧ p.opt = none ∧ x.gen = p.gen ∧ e.run.gen = p.gen ∧ e.run.stream = p.stream ∧
    e.run.issued = true ∧ die ∈ e.run.left) :=
  ⟨⟨0, 1, 0, 0, 0, 0, 1, 0, none, { todo := [0, 1] }, {}, { r := tRec }, 1, { (tDie {} [{ todo := [0, 1] }]) with head := (tSet { slots := [(1, [])] }).head }, ⟨rfl, rfl⟩,
    by and_intros <;> decide +kernel⟩,
  ⟨0, 0, 0, 0, 0, { desc := { kind := 3 }, state := 1, win := { got := [0] } }, { tSpill with weir := (tHub { streams := [(0, { desc := { kind := 3 }, state := 1, win := { got := [0] } })] }).weir }, ⟨rfl, rfl⟩,
    by decide +kernel⟩,
  ⟨0, 0, {}, { r := tRec, run := { issued := true, left := [0] } }, {}, { (tHub { recs := [(0, { r := tRec, run := { issued := true, left := [0] } })], streams := [(0, {})] }) with die := { parts := [{}] } }, ⟨rfl, rfl⟩,
    by and_intros <;> decide +kernel⟩⟩

/-- `Obligations.RulesSearched`: states and operands that meet each clause's hypotheses. -/
theorem wit_rulesSearched :
  (∃ (hub ent slot r : Nat) (ups : List (Nat × Nat × MuEntry)) (x : SearchSt) (e f : RecEnt) (parts : List (Nat × Nat × MuEntry)) (s n : State), s.runs ∧ s.ent? hub ent = some e ∧ e.searches.find? (fun x => x.slot == slot && x.issued && !x.done) = some x ∧ 
    let m := s.recSet e
    let inst := (s.recInst e).getD {}
    (∃ k < m.tableReplicas x.table, s.tableLost m x.table k = false) ∧ s.searchReplica e m x = some r ∧
    s.ruleRoom m hub ent (ceilDiv e.vec.length 256) (m.tableUnits x.table r) = true ∧ 
    let w := s.setEnt hub ent { e with searches := e.searches.map (fun q => if q.slot = slot then { x with replica := r } else q) }
    w.searchParts e m inst.units x.table (inst.editCountAt x.table (s.epochOf e.r.key.stamp) % 2) ups (m.tableUnits x.table r) [] = (n, some parts) ∧
    n.ent? hub ent = some f) ∧
  (∃ (hub ent slot : Nat) (ups : List (Nat × Nat × MuEntry)) (x : SearchSt) (e : RecEnt) (s : State), s.runs ∧ s.ent? hub ent = some e ∧
    e.searches.find? (fun x => x.slot == slot && x.issued && !x.done) = some x ∧
    (∀ k < (s.recSet e).tableReplicas x.table, s.tableLost (s.recSet e) x.table k = true)) ∧
  (∃ (die unit : Nat) (upset : Option MuEntry) (s : State), s.runs ∧ unit < 9 ∧ (s.mu die unit).state ≠ 3 ∧ (s.mu die unit).resetting = false) :=
  ⟨⟨0, 0, 0, 0, [], { issued := true }, { r := tRec, phase := .issued, searches := [{ issued := true }] }, { r := tRec, phase := .issued, searches := [{ issued := true }] }, _, { (tHub { recs := [(0, { r := tRec, phase := .issued, searches := [{ issued := true }] })] }) with head := (tSet { rows := [{ engine := 1, isTable := true }] }).head }, _, ⟨rfl, rfl⟩,
    by decide +kernel,
    by decide +kernel,
    by decide +kernel,
    by decide +kernel,
    (by decide +kernel),
    rfl,
    rfl⟩,
  ⟨0, 0, 0, [], { issued := true }, { r := tRec, phase := .issued, searches := [{ issued := true }] }, { (tHub { recs := [(0, { r := tRec, phase := .issued, searches := [{ issued := true }] })] }) with head := (tSet { rows := [{ engine := 1, isTable := true }] }).head, rel := { mus := [(0, { state := 3 })] } }, ⟨rfl, rfl⟩,
    by and_intros <;> decide +kernel⟩,
  ⟨7, 8, none, { rel := { mus := [(71, { state := 0 })] } }, ⟨rfl, rfl⟩,
    by and_intros <;> decide +kernel⟩⟩

/-- `Obligations.SparesServe`: states and operands that meet each clause's hypotheses. -/
theorem wit_sparesServe :
  (∃ (die tile sl : Nat) (s : State), s.runs ∧ (s.tile die tile).loading = some sl ∧ (s.tile die tile).state = 2 ∧ s.bundleBad (s.dieOwner die) = false) ∧
  (∃ (die tile sl : Nat) (s : State), s.runs ∧ (s.tile die tile).loading = some sl ∧ (s.tile die tile).state = 0 ∧ s.tileCanHost die tile = true) ∧
  (∃ (die unit l : Nat) (s : State), s.runs ∧ (s.mu die unit).loading = some l ∧ (s.mu die unit).state = 2 ∧ s.bundleBad (s.dieOwner die) = false) ∧
  (∃ (die unit l : Nat) (s : State), s.runs ∧ (s.mu die unit).loading = some l ∧ (s.mu die unit).state = 0 ∧ s.muCanHost die unit = true) :=
  ⟨⟨7, 65, 0, { rel := { tiles := [(527, { state := 2, loading := some 0 })] } }, ⟨rfl, rfl⟩,
    by and_intros <;> decide +kernel⟩,
  ⟨0, 0, 1, { rel := { tiles := [(0, { held := some 0, loading := some 1 })] } }, ⟨rfl, rfl⟩,
    by and_intros <;> decide +kernel⟩,
  ⟨7, 8, 0, { rel := { mus := [(71, { state := 2, loading := some 0 })] } }, ⟨rfl, rfl⟩,
    by and_intros <;> decide +kernel⟩,
  ⟨0, 0, 1, { rel := { mus := [(0, { held := some 0, loading := some 1 })] } }, ⟨rfl, rfl⟩,
    by and_intros <;> decide +kernel⟩⟩

/-- `Obligations.SetsChange`: states and operands that meet each clause's hypotheses. -/
theorem wit_setsChange :
  (∃ (c : HwCmd) (l : List HwCmd) (i j : SetInst) (w v : State) (s : State), s.runs ∧ s.firstCmd 0x0014 c l ∧ 
    let n := s.leaving l
    let b := c.cmd.body
    let table := leAt b 8 1
    let a := n.launchOf c.cmd 5
    let count := i.editCount table + 1
    80 ≤ b.length ∧ (b.length - 16) % 64 = 0 ∧ (b.length - 16) / 64 ≤ 112 ∧ leAt b 9 3 = 0 ∧ n.launchRefused c 5 = none ∧ changeBars n c.cmd = none ∧
    n.active c.cmd.tenant = some i ∧ i.openEdit table = none ∧ (i.set.ruleTable table).isSome = true ∧ leAt b 12 4 = i.editCount table ∧
    n.editWrites i table (count % 2) (editEntries b) 0 = .ok (w, j) ∧ n.journalAppend a = some v) ∧
  (∃ (tenant table : Nat) (i : SetInst) (c : SetChange) (s : State), s.runs ∧ s.active tenant = some i ∧ i.openEdit table = some c ∧
    s.passed c.due = true) ∧
  (∃ (c : HwCmd) (l : List HwCmd) (i : SetInst) (w : State) (s : State), s.runs ∧ s.firstCmd 0x0015 c l ∧ 
    let n := s.leaving l
    let b := c.cmd.body
    let a := n.launchOf c.cmd 6
    24 ≤ b.length ∧ b.length % 8 = 0 ∧ (b.length - 16) / 8 ≤ 1016 ∧ leAt b 12 4 = 0 ∧ n.launchRefused c 6 = none ∧ changeBars n c.cmd = none ∧
    n.active c.cmd.tenant = some i ∧ leAt b 8 4 = i.commits ∧ (∀ e ∈ commitEntries b, commitOk i.set e = true) ∧ n.journalAppend a = some w) :=
  ⟨⟨{ cmd := { cmd := 0x14, targetEn := 64, body := tEdit } }, [], { set := { tables := [{}], rows := [{ engine := 1, isTable := true }] } }, _, _, _, { tSet { tables := [{}], rows := [{ engine := 1, isTable := true }] } with head := { cmds := [{ cmd := { cmd := 0x14, targetEn := 64, body := tEdit } }], tenants := [{ active := some { set := { tables := [{}], rows := [{ engine := 1, isTable := true }] } } }, {}, {}, {}] } }, ⟨rfl, rfl⟩,
    by unfold State.firstCmd; decide +kernel,
    by decide +kernel,
    by decide +kernel,
    by decide +kernel,
    by decide +kernel,
    (by decide +kernel),
    by decide +kernel,
    by decide +kernel,
    by decide +kernel,
    by decide +kernel,
    (by decide +kernel),
    rfl,
    rfl⟩,
  ⟨0, 0, { changes := [{}] }, {}, { head := { tenants := [{ active := some { changes := [{}] } }] } }, ⟨rfl, rfl⟩,
    by and_intros <;> decide +kernel⟩,
  ⟨{ cmd := { cmd := 0x15, targetEn := 64, body := List.replicate 24 0 } }, [], { set := { dests := [(0, { valid := true })] } }, _, { tSet {} with head := { cmds := [{ cmd := { cmd := 0x15, targetEn := 64, body := List.replicate 24 0 } }], tenants := [{ active := some { set := { dests := [(0, { valid := true })] } } }, {}, {}, {}] } }, ⟨rfl, rfl⟩,
    by unfold State.firstCmd; decide +kernel,
    by decide +kernel,
    by decide +kernel,
    by decide +kernel,
    by decide +kernel,
    (by decide +kernel),
    by decide +kernel,
    by decide +kernel,
    by decide +kernel,
    by decide +kernel,
    rfl⟩⟩

/-- `Obligations.EpochsSettle`: states and operands that meet each clause's hypotheses. -/
theorem wit_epochsSettle :
  (∃ (tenant epoch : Nat) (s : State), s.runs ∧ s.settleOpenAt epoch ≤ s.now ∧ s.now < s.settleCloseAt epoch ∧ s.settlement? tenant epoch = none ∧
    tenant < 4) ∧
  (∃ (tenant epoch : Nat) (x : Settlement) (s : State), s.runs ∧ s.settlement? tenant epoch = some x ∧ x.ended = false ∧ s.settleOpenAt epoch < s.now ∧
    (∀ h < 2, nth x.endAt h 0 ≤ s.hubCycles h)) ∧
  (∃ (tenant epoch : Nat) (x : Settlement) (y : SetlRec) (l : List SetlRec) (s : State), s.runs ∧ s.settlement? tenant epoch = some x ∧ x.ended = true ∧
    x.late = y :: l) ∧
  (∃ (tenant dest : Nat) (p : CmdPart) (s : State), s.runs ∧ s.dist.lateParts.find? (fun p => p.tenant == tenant && p.dest == dest) = some p ∧
    (∀ t, s.dist.lateSent.find? (tenant * 65536 + dest) = some t → 256 ≤ s.hubCycles (dest % 2) - t)) ∧
  (∃ (tenant epoch : Nat) (x : Settlement) (s : State), s.runs ∧ s.settlement? tenant epoch = some x ∧ s.settleCloseAt epoch ≤ s.now) :=
  ⟨⟨3, 0, { time := { bt := 5952 } }, ⟨rfl, rfl⟩,
    by and_intros <;> decide +kernel⟩,
  ⟨0, 0, {}, { dist := { open_ := [{}] }, time := { bt := 5953 } }, ⟨rfl, rfl⟩,
    by and_intros <;> decide +kernel⟩,
  ⟨0, 0, { ended := true, late := [{}] }, {}, [], { dist := { open_ := [{ ended := true, late := [{}] }] } }, ⟨rfl, rfl⟩,
    by and_intros <;> decide +kernel⟩,
  ⟨0, 0, {}, { dist := { lateParts := [{}] } }, ⟨rfl, rfl⟩,
    by and_intros <;> decide +kernel⟩,
  ⟨0, 0, {}, { dist := { open_ := [{}] }, time := { bt := 9792 } }, ⟨rfl, rfl⟩,
    by and_intros <;> decide +kernel⟩⟩

/-- `Obligations.CaptureAndReplay`: states and operands that meet each clause's hypotheses. -/
theorem wit_captureAndReplay :
  (∃ (tenant : Nat) (s : State), s.runs ∧ (s.capOf tenant).loss.isSome = true ∧ (s.gapEntry tenant).2 = true) ∧
  (∃ (c : HwCmd) (l : List HwCmd) (s : State), s.runs ∧ s.firstCmd 0x0040 c l ∧ c.cmd.body.length = 16 ∧ leAt c.cmd.body 12 4 = 0 ∧ 
    let n := s.leaving l
    let ring := (n.capOf c.cmd.tenant).ring.flatMap (fun x => x.2)
    leAt c.cmd.body 8 4 ≤ 8160 ∧ leAt c.cmd.body 0 8 + leAt c.cmd.body 8 4 ≤ ring.length) ∧
  (∃ (c : HwCmd) (l : List HwCmd) (s : State), s.runs ∧ s.firstCmd 0x0016 c l ∧ c.cmd.body.length = 56 ∧ leAt c.cmd.body 4 4 = 0 ∧ 
    let n := s.leaving l
    n.launchRefused c 7 = none ∧ replayBars n c.cmd = none) ∧
  (∃ (c : HwCmd) (l : List HwCmd) (s : State), s.runs ∧ s.firstCmd 0x0017 c l ∧ c.cmd.body = [] ∧ 
    let n := s.leaving l
    n.launchRefused c 8 = none ∧ (n.session c.cmd.tenant).isSome = true) ∧
  (∃ (tenant e : Nat) (z : Session12) (s : State), s.runs ∧ s.session tenant = some z ∧ z.e = some e ∧ e ≤ s.epoch ∧
    s.weir.hubs.any (fun w => w.recs.any (fun r => r.2.phase != .tail && r.2.r.tenant == tenant)) = false ∧
    s.weir.queues.any (fun q => q.2.any (fun x => x.r.tenant == tenant && !x.ghost)) = false) :=
  ⟨⟨0, { cap := [{ loss := some { count := 1 } }, {}, {}, {}], regs := [(regKey .capSize 0 0, 1)] }, ⟨rfl, rfl⟩,
    by and_intros <;> decide +kernel⟩,
  ⟨{ cmd := { cmd := 0x40, body := List.replicate 16 0 } }, [], tCmd { cmd := { cmd := 0x40, body := List.replicate 16 0 } }, ⟨rfl, rfl⟩,
    by unfold State.firstCmd; decide +kernel,
    by and_intros <;> decide +kernel⟩,
  ⟨{ cmd := { cmd := 0x16, targetEn := 64, body := List.replicate 56 0 } }, [], { head := { cmds := [{ cmd := { cmd := 0x16, targetEn := 64, body := List.replicate 56 0 } }], tenants := [{ active := some {} }, {}, {}, {}] } }, ⟨rfl, rfl⟩,
    by unfold State.firstCmd; decide +kernel,
    by and_intros <;> decide +kernel⟩,
  ⟨{ cmd := { cmd := 0x17, targetEn := 64 } }, [], { tCmd { cmd := { cmd := 0x17, targetEn := 64 } } with cap := [{ session := some {} }, {}, {}, {}] }, ⟨rfl, rfl⟩,
    by unfold State.firstCmd; decide +kernel,
    by and_intros <;> decide +kernel⟩,
  ⟨0, 0, { e := some 0 }, { cap := [{ session := some { e := some 0 } }, {}, {}, {}] }, ⟨rfl, rfl⟩,
    by and_intros <;> decide +kernel⟩⟩

/-- `Obligations.QueueCommandsRun`: states and operands that meet each clause's hypotheses. -/
theorem wit_queueCommandsRun :
  (∃ c : QCmd, c.op < 2 ^ 8 ∧ c.flags < 2 ^ 8 ∧ c.id < 2 ^ 16 ∧ c.amount < 2 ^ 32 ∧ c.arg < 2 ^ 64) ∧
  (∃ (q id amount flags arg : Nat) (s : State), s.runs) ∧
  (∃ (q id amount arg : Nat) (s : State), s.runs ∧ s.queueFree q ∧ 
    let n := fun (op : Nat) => s.queued q { op := op, flags := 0, id := id, amount := amount, arg := arg }
    let ok := fun (op : Nat) => qcmdOk q { op := op, flags := 0, id := id, amount := amount, arg := arg } = true
    ok 1) ∧
  (∃ (q id amount arg : Nat) (s : State), s.runs ∧ s.queueFree q ∧ 
    let n := fun (op : Nat) => s.queued q { op := op, flags := 0, id := id, amount := amount, arg := arg }
    let ok := fun (op : Nat) => qcmdOk q { op := op, flags := 0, id := id, amount := amount, arg := arg } = true
    ok 2 ∧ (s.sem id).waiters = [] ∧ amount ≤ (s.sem id).count) ∧
  (∃ (q id amount arg : Nat) (s : State), s.runs ∧ s.queueFree q ∧ 
    let n := fun (op : Nat) => s.queued q { op := op, flags := 0, id := id, amount := amount, arg := arg }
    let ok := fun (op : Nat) => qcmdOk q { op := op, flags := 0, id := id, amount := amount, arg := arg } = true
    ok 2 ∧ (s.sem id).count < amount) ∧
  (∃ (q id amount arg : Nat) (s : State), s.runs ∧ s.queueFree q ∧ 
    let n := fun (op : Nat) => s.queued q { op := op, flags := 0, id := id, amount := amount, arg := arg }
    let ok := fun (op : Nat) => qcmdOk q { op := op, flags := 0, id := id, amount := amount, arg := arg } = true
    ok 3 ∧ amount ≤ (s.sem id).count) ∧
  (∃ (q id amount arg : Nat) (s : State), s.runs ∧ s.queueFree q ∧ 
    let n := fun (op : Nat) => s.queued q { op := op, flags := 0, id := id, amount := amount, arg := arg }
    let ok := fun (op : Nat) => qcmdOk q { op := op, flags := 0, id := id, amount := amount, arg := arg } = true
    ok 4) ∧
  (∃ (q id amount arg : Nat) (s : State), s.runs ∧ s.queueFree q ∧ 
    let n := fun (op : Nat) => s.queued q { op := op, flags := 0, id := id, amount := amount, arg := arg }
    let ok := fun (op : Nat) => qcmdOk q { op := op, flags := 0, id := id, amount := amount, arg := arg } = true
    ok 7 ∧ arg < 2 ^ 64 ∧ arg ≤ s.now) ∧
  (∃ (q id amount arg : Nat) (s : State), s.runs ∧ s.queueFree q ∧ 
    let n := fun (op : Nat) => s.queued q { op := op, flags := 0, id := id, amount := amount, arg := arg }
    let ok := fun (op : Nat) => qcmdOk q { op := op, flags := 0, id := id, amount := amount, arg := arg } = true
    ok 7 ∧ arg < 2 ^ 64 ∧ s.now < arg) :=
  ⟨⟨{ op := 255, flags := 255, id := 65535, amount := 2 ^ 32 - 1, arg := 2 ^ 64 - 1 }, by and_intros <;> decide +kernel⟩,
  ⟨0, 0, 0, 0, 0, {}, ⟨rfl, rfl⟩⟩,
  ⟨127, 2400, 65535, 0, tQue 127, ⟨rfl, rfl⟩,
    by unfold State.queueFree; decide +kernel,
    by decide +kernel⟩,
  ⟨0, 0, 1, 0, { tQue 0 with slu := { sems := [(0, { count := 1 })] } }, ⟨rfl, rfl⟩,
    by unfold State.queueFree; decide +kernel,
    by and_intros <;> decide +kernel⟩,
  ⟨0, 0, 1, 0, tQue 0, ⟨rfl, rfl⟩,
    by unfold State.queueFree; decide +kernel,
    by and_intros <;> decide +kernel⟩,
  ⟨0, 3071, 1, 0, { tQue 0 with slu := { sems := [(3071, { count := 1 })] } }, ⟨rfl, rfl⟩,
    by unfold State.queueFree; decide +kernel,
    by and_intros <;> decide +kernel⟩,
  ⟨0, 0, 65535, 0, tQue 0, ⟨rfl, rfl⟩,
    by unfold State.queueFree; decide +kernel,
    by decide +kernel⟩,
  ⟨0, 0, 0, 0, tQue 0, ⟨rfl, rfl⟩,
    by unfold State.queueFree; decide +kernel,
    by and_intros <;> decide +kernel⟩,
  ⟨0, 0, 0, 1, tQue 0, ⟨rfl, rfl⟩,
    by unfold State.queueFree; decide +kernel,
    by and_intros <;> decide +kernel⟩⟩

/-- `Obligations.QueueCommandsReach`: states and operands that meet each clause's hypotheses. -/
theorem wit_queueCommandsReach :
  (∃ (q id amount flags arg : Nat) (s : State), s.runs ∧ s.queueFree q ∧ 
    let c := fun (op : Nat) => ({ op := op, flags := flags, id := id, amount := amount, arg := arg } : QCmd)
    let n := fun (op : Nat) => s.queued q (c op)
    let b := barKey q id
    qcmdOk q (c 5) = true ∧ bit (s.barMask b) (barPort q b) = true ∧ (s.bar b).counted.contains (barPort q b) = false) ∧
  (∃ (q id amount flags arg : Nat) (s : State), s.runs ∧ s.queueFree q ∧ 
    let c := fun (op : Nat) => ({ op := op, flags := flags, id := id, amount := amount, arg := arg } : QCmd)
    let n := fun (op : Nat) => s.queued q (c op)
    let b := barKey q id
    qcmdOk q (c 6) = true ∧ bit (s.barMask b) (barPort q b) = true ∧ (s.bar b).counted.contains (barPort q b) = false) ∧
  (∃ (q id amount flags arg : Nat) (s : State), ∃ x : StreamSt, s.runs ∧ s.queueFree q ∧ 
    let c := fun (op : Nat) => ({ op := op, flags := flags, id := id, amount := amount, arg := arg } : QCmd)
    let n := fun (op : Nat) => s.queued q (c op)
    let b := barKey q id
    qcmdOk q (c 8) = true ∧ amount < 2 ^ 32 ∧ s.stream? (q / 32) id = some x ∧ x.rearm = none) ∧
  (∃ (q id amount flags arg : Nat) (s : State), s.runs ∧ s.queueFree q ∧ 
    let c := fun (op : Nat) => ({ op := op, flags := flags, id := id, amount := amount, arg := arg } : QCmd)
    let n := fun (op : Nat) => s.queued q (c op)
    let b := barKey q id
    qcmdOk q (c 9) = true ∧ (n 9).noCredit q (arg % 2 ^ 32) = false) ∧
  (∃ (q id amount flags arg : Nat) (s : State), s.runs ∧ s.queueFree q ∧ 
    let c := fun (op : Nat) => ({ op := op, flags := flags, id := id, amount := amount, arg := arg } : QCmd)
    let n := fun (op : Nat) => s.queued q (c op)
    let b := barKey q id
    qcmdOk q (c 9) = true ∧ (n 9).noCredit q (arg % 2 ^ 32) = true) :=
  ⟨⟨0, 23, 0, 0, 0, { tQue 0 with slu := { masks := [(167, 1)] } }, ⟨rfl, rfl⟩,
    by unfold State.queueFree; decide +kernel,
    by and_intros <;> decide +kernel⟩,
  ⟨0, 0, 0, 0, 0, { tQue 0 with slu := { masks := [(0, 1)] } }, ⟨rfl, rfl⟩,
    by unfold State.queueFree; decide +kernel,
    by and_intros <;> decide +kernel⟩,
  ⟨63, 511, 1, 0, 0, { tQue 63 with weir := { hubs := [{}, { streams := [(511, {})] }] } }, {}, ⟨rfl, rfl⟩,
    by unfold State.queueFree; decide +kernel,
    by and_intros <;> decide +kernel⟩,
  ⟨0, 1023, 1, 1, 0, tQue 0, ⟨rfl, rfl⟩,
    by unfold State.queueFree; decide +kernel,
    by and_intros <;> decide +kernel⟩,
  ⟨0, 0, 1, 0, 0x2000, { tQue 0 with braid := { ports := [(0, { step := 6, egress := List.replicate 512 {} })] } }, ⟨rfl, rfl⟩,
    by unfold State.queueFree; decide +kernel,
    by and_intros <;> decide +kernel⟩⟩

/-- `Obligations.WaitsEnd`: states and operands that meet each clause's hypotheses. -/
theorem wit_waitsEnd :
  (∃ (sem q : Nat) (ws : List Nat) (s : State), s.runs ∧ (s.sem sem).waiters = q :: ws ∧ ((s.que q).cmds.headD {}).amount ≤ (s.sem sem).count) ∧
  (∃ (b : Nat) (s : State), s.runs ∧ s.allCounted b = true ∧ (s.bar b).releasing = false ∧ s.barDomain b = false) ∧
  (∃ (b : Nat) (s : State), s.runs ∧ (s.bar b).releasing = true ∧ (s.bar b).waiting = []) ∧
  (∃ (q : Nat) (s : State), s.runs ∧ (s.que q).wait = .bt ∧ ((s.que q).cmds.headD {}).arg ≤ s.now) ∧
  (∃ (port dev flags id value : Nat) (s : State), s.runs ∧ (s.brPort port).step = 6) ∧
  (∃ (dev k gen a : Nat) (s : State), s.runs ∧ k < 8 ∧ s.barDomain (160 + k) = true ∧ 
    let x := s.bar (160 + k)
    (gen = x.gen ∨ gen = (x.gen + 1) % 4) ∧ x.msgs.any (fun m => m.1 == gen && m.2.1 == dev) = false) ∧
  (∃ (k : Nat) (s : State), s.runs ∧ s.barDomain (160 + k) = true ∧ (s.bar (160 + k)).releasing = false ∧ 
    let ms := (s.bar (160 + k)).msgs.filter (fun m => m.1 == (s.bar (160 + k)).gen)
    s.fld .sluDbarcfg k 0 14 1 ≤ ms.length ∧ (ms.map (fun m => m.2.2)).foldl max 0 + s.fence ≤ s.now) ∧
  (∃ (k t : Nat) (s : State), s.runs ∧ (s.bar (160 + k)).sentAt = some t ∧ (s.bar (160 + k)).releasing = false ∧ (s.bar (160 + k)).stalled = false ∧
    t + s.rd .sluDbarwarn k 0 ≤ s.now) :=
  ⟨⟨0, 0, [], { slu := { sems := [(0, { waiters := [0] })] } }, ⟨rfl, rfl⟩,
    by and_intros <;> decide +kernel⟩,
  ⟨159, { slu := { masks := [(159, 1)], bars := [(159, { counted := [0] })] } }, ⟨rfl, rfl⟩,
    by and_intros <;> decide +kernel⟩,
  ⟨0, { slu := { bars := [(0, { releasing := true })] } }, ⟨rfl, rfl⟩,
    by and_intros <;> decide +kernel⟩,
  ⟨0, { slu := { queues := [(0, { wait := .bt })] } }, ⟨rfl, rfl⟩,
    by and_intros <;> decide +kernel⟩,
  ⟨11, 0, 0, 0, 1, { braid := { ports := [(11, { step := 6 })] } }, ⟨rfl, rfl⟩,
    by decide +kernel⟩,
  ⟨0, 7, 1, 0, { regs := [(regKey .sluDbarcfg 7 0, 1)] }, ⟨rfl, rfl⟩,
    by and_intros <;> decide +kernel⟩,
  ⟨0, { regs := [(regKey .sluDbarcfg 0 0, 1)], slu := { masks := [(160, 1)], bars := [(160, { counted := [0] })] }, time := { bt := 1856 } }, ⟨rfl, rfl⟩,
    by and_intros <;> decide +kernel⟩,
  ⟨0, 0, { slu := { bars := [(160, { sentAt := some 0 })] }, time := { bt := 2 ^ 32 } }, ⟨rfl, rfl⟩,
    by and_intros <;> decide +kernel⟩⟩

/-- `Obligations.SluiceWrites`: states and operands that meet each clause's hypotheses. -/
theorem wit_sluiceWrites :
  (∃ (sem value : Nat) (s : State), s.runs ∧ sem < 3072) ∧
  (∃ (b value : Nat) (s : State), s.runs ∧ b < 32 ∧ (∀ p < 128, bit value p = true → bit (s.barMask b) p = true)) ∧
  (∃ (k word value : Nat) (s : State), s.runs ∧ k < 8 ∧ word < 3) ∧
  (∃ (k value : Nat) (s : State), s.runs ∧ k < 8 ∧ (s.bar (160 + k)).counted = [] ∧ (s.bar (160 + k)).releasing = false ∧
    (∀ m ∈ (s.bar (160 + k)).msgs, m.1 ≠ (s.bar (160 + k)).gen) ∧ (bit value 0 = true → 1 ≤ bits value 14 1) ∧ bits value 14 1 ≤ 8192 ∧
    bits value 30 15 < 64) ∧
  (∃ (q : Nat) (s : State), s.runs ∧ q < 128) ∧
  (∃ (q : Nat) (s : State), s.runs ∧ q < 128 ∧ (s.que q).halted = true) ∧
  (∃ (q : Nat) (s : State), s.runs ∧ q < 128) :=
  ⟨⟨3071, 65536, {}, ⟨rfl, rfl⟩,
    by decide +kernel⟩,
  ⟨31, 1, { slu := { masks := [(31, 1)] } }, ⟨rfl, rfl⟩,
    by and_intros <;> decide +kernel⟩,
  ⟨7, 2, 0, {}, ⟨rfl, rfl⟩,
    by and_intros <;> decide +kernel⟩,
  ⟨7, 0x4001, {}, ⟨rfl, rfl⟩,
    by and_intros <;> decide +kernel⟩,
  ⟨127, {}, ⟨rfl, rfl⟩,
    by decide +kernel⟩,
  ⟨127, { slu := { queues := [(127, { halted := true })] } }, ⟨rfl, rfl⟩,
    by and_intros <;> decide +kernel⟩,
  ⟨127, {}, ⟨rfl, rfl⟩,
    by decide +kernel⟩⟩

/-- `Obligations.BraidPortsChange`: states and operands that meet each clause's hypotheses. -/
theorem wit_braidPortsChange :
  (∃ (port : Nat) (s : State), s.runs ∧ port < 12 ∧ (s.brPort port).step ≠ 0 ∧ (s.brPort port).step ≠ 4 ∧ (s.brPort port).step < 5 ∧ s.sec.error = false) ∧
  (∃ (port : Nat) (s : State), s.runs ∧ port < 12 ∧ (s.brPort port).step = 5 ∧ s.sec.error = false) ∧
  (∃ (port : Nat) (s : State), s.runs ∧ port < 12 ∧ (s.brPort port).step ≠ 0 ∧ (s.brPort port).step < 6 ∧
    (s.brPort port).stepAt + nth [0, 2 ^ 20, 2 ^ 24, 2 ^ 20, 2 ^ 20, 2 ^ 16] (s.brPort port).step 0 ≤ s.now) ∧
  (∃ (port : Nat) (w : IdentWord) (s : State), s.runs ∧ port < 12 ∧ (s.brPort port).step = 4) ∧
  (∃ (port corr uncorr : Nat) (s : State), s.runs ∧ port < 12 ∧ (s.brPort port).step = 6) ∧
  (∃ (port cause : Nat) (s : State), s.runs ∧ port < 12 ∧ (s.brPort port).step ≠ 0 ∧ (s.brPort port).step < 7) :=
  ⟨⟨11, { braid := { ports := [(11, { step := 1 })] } }, ⟨rfl, rfl⟩,
    by and_intros <;> decide +kernel⟩,
  ⟨11, { braid := { ports := [(11, { step := 5 })] } }, ⟨rfl, rfl⟩,
    by and_intros <;> decide +kernel⟩,
  ⟨0, { braid := { ports := [(0, { step := 5 })] }, time := { bt := 2 ^ 16 } }, ⟨rfl, rfl⟩,
    by and_intros <;> decide +kernel⟩,
  ⟨0, {}, { braid := { ports := [(0, { step := 4 })] } }, ⟨rfl, rfl⟩,
    by and_intros <;> decide +kernel⟩,
  ⟨0, 1, 2, { braid := { ports := [(0, { step := 6 })] } }, ⟨rfl, rfl⟩,
    by and_intros <;> decide +kernel⟩,
  ⟨0, 1, { braid := { ports := [(0, { step := 6 })] } }, ⟨rfl, rfl⟩,
    by and_intros <;> decide +kernel⟩⟩

/-- `Obligations.BraidMessagesArrive`: states and operands that meet each clause's hypotheses. -/
theorem wit_braidMessagesArrive :
  (∃ (port : Nat) (m : BrMsg) (s : State), ∃ ago : Nat, s.runs ∧ port < 12 ∧ (s.brPort port).step = 6 ∧ 
    let n := s.linkTake port m
    let old := s.setBrPort port { s.brPort port with replays := 0 }
    s.linkHeld port m = true ∧ (m.type = 1 ∨ m.type = 3 ∨ m.type = 5) ∧
    (m.type = 1 → m.dst = s.device → qLen (s.queue (32 + port)) < s.queueCap (32 + port))) ∧
  (∃ (port : Nat) (m : BrMsg) (s : State), s.runs ∧ port < 12 ∧ (s.brPort port).step = 6 ∧ 
    let n := s.linkTake port m
    let old := s.setBrPort port { s.brPort port with replays := 0 }
    s.linkHeld port m = true ∧ (m.type = 2 ∨ m.type = 4)) ∧
  (∃ (port : Nat) (m : BrMsg) (s : State), s.runs ∧ port < 12 ∧ (s.brPort port).step = 6 ∧ 
    let n := s.linkTake port m
    let old := s.setBrPort port { s.brPort port with replays := 0 }
    s.linkHeld port m = true ∧ m.type = 6) ∧
  (∃ (port : Nat) (m : BrMsg) (s : State), s.runs ∧ port < 12 ∧ (s.brPort port).step = 6 ∧ 
    let n := s.linkTake port m
    let old := s.setBrPort port { s.brPort port with replays := 0 }
    s.linkHeld port m = true ∧ m.type = 7) ∧
  (∃ (port : Nat) (m : BrMsg) (s : State), s.runs ∧ port < 12 ∧ (s.brPort port).step = 6 ∧ 
    let n := s.linkTake port m
    let old := s.setBrPort port { s.brPort port with replays := 0 }
    s.linkHeld port m = true ∧ m.type = 8) ∧
  (∃ (port : Nat) (m : BrMsg) (s : State), s.runs ∧ port < 12 ∧ (s.brPort port).step = 6 ∧ 
    let n := s.linkTake port m
    let old := s.setBrPort port { s.brPort port with replays := 0 }
    s.linkHeld port m = true ∧ m.type = 9) ∧
  (∃ (port : Nat) (m : BrMsg) (s : State), ∃ ago : Nat, s.runs ∧ port < 12 ∧ (s.brPort port).step = 6 ∧ 
    let n := s.linkTake port m
    let old := s.setBrPort port { s.brPort port with replays := 0 }
    s.linkHeld port m = false ∧ m.ok = true ∧ m.type = 1 ∧ (m.dst = s.device → qLen (s.queue (32 + port)) < s.queueCap (32 + port))) ∧
  (∃ (port : Nat) (m : BrMsg) (s : State), ∃ ago : Nat, s.runs ∧ port < 12 ∧ (s.brPort port).step = 6 ∧ 
    let n := s.linkTake port m
    let old := s.setBrPort port { s.brPort port with replays := 0 }
    s.linkHeld port m = false ∧ m.ok = true ∧ (m.type = 3 ∨ m.type = 5)) ∧
  (∃ (port : Nat) (m : BrMsg) (s : State), s.runs ∧ port < 12 ∧ (s.brPort port).step = 6 ∧ 
    let n := s.linkTake port m
    let old := s.setBrPort port { s.brPort port with replays := 0 }
    s.linkHeld port m = false ∧ m.ok = true ∧ (m.type = 2 ∨ m.type = 4)) ∧
  (∃ (port : Nat) (m : BrMsg) (s : State), s.runs ∧ port < 12 ∧ (s.brPort port).step = 6 ∧ 
    let n := s.linkTake port m
    let old := s.setBrPort port { s.brPort port with replays := 0 }
    s.linkHeld port m = false ∧ m.ok = true ∧ m.type = 6) ∧
  (∃ (port : Nat) (m : BrMsg) (s : State), ∃ (x : McXfer) (k c : Nat), s.runs ∧ port < 12 ∧ (s.brPort port).step = 6 ∧ 
    let n := s.linkTake port m
    let old := s.setBrPort port { s.brPort port with replays := 0 }
    s.linkHeld port m = false ∧ m.ok = true ∧ m.type = 7 ∧ s.xfer? (m.dst % 8192) (leAt m.body 4 4) = some x ∧
    List.find? (fun (y : Nat × Option Nat) => decide (y.1 % 6 = port % 6)) x.hops = some (k, some c) ∧ c < leAt m.body 8 4 + 1) ∧
  (∃ (port : Nat) (m : BrMsg) (s : State), s.runs ∧ port < 12 ∧ (s.brPort port).step = 6 ∧ 
    let n := s.linkTake port m
    let old := s.setBrPort port { s.brPort port with replays := 0 }
    s.linkHeld port m = false ∧ m.ok = true ∧ m.type = 8) ∧
  (∃ (port : Nat) (m : BrMsg) (s : State), s.runs ∧ port < 12 ∧ (s.brPort port).step = 6 ∧ 
    let n := s.linkTake port m
    let old := s.setBrPort port { s.brPort port with replays := 0 }
    s.linkHeld port m = false ∧ m.ok = true ∧ m.type = 9) ∧
  (∃ (port : Nat) (m : BrMsg) (s : State), ∃ ago : Nat, s.runs ∧ port < 12 ∧ (s.brPort port).step = 6 ∧ 
    let n := s.linkTake port m
    let old := s.setBrPort port { s.brPort port with replays := 0 }
    s.linkHeld port m = false ∧ m.ok = false) :=
  ⟨⟨0, { type := 1 }, { braid := { ports := [(0, { step := 6 })], rxSeq := [(6, (1, []))] } }, 0, ⟨rfl, rfl⟩,
    by decide +kernel,
    by decide +kernel,
    by decide +kernel,
    .inl rfl,
    by decide +kernel⟩,
  ⟨0, { type := 4 }, { braid := { ports := [(0, { step := 6 })], rxSeq := [(6, (1, []))] } }, ⟨rfl, rfl⟩,
    by decide +kernel,
    by decide +kernel,
    by decide +kernel,
    .inr rfl⟩,
  ⟨0, { type := 6 }, { braid := { ports := [(0, { step := 6 })], rxSeq := [(6, (1, []))] } }, ⟨rfl, rfl⟩,
    by and_intros <;> decide +kernel⟩,
  ⟨0, { type := 7 }, { braid := { ports := [(0, { step := 6 })], rxSeq := [(6, (1, []))] } }, ⟨rfl, rfl⟩,
    by and_intros <;> decide +kernel⟩,
  ⟨0, { type := 8 }, { braid := { ports := [(0, { step := 6 })], rxSeq := [(6, (1, []))] } }, ⟨rfl, rfl⟩,
    by and_intros <;> decide +kernel⟩,
  ⟨0, { type := 9 }, { braid := { ports := [(0, { step := 6 })], rxSeq := [(6, (1, []))] } }, ⟨rfl, rfl⟩,
    by and_intros <;> decide +kernel⟩,
  ⟨0, { type := 1 }, { braid := { ports := [(0, { step := 6 })] } }, 0, ⟨rfl, rfl⟩,
    by and_intros <;> decide +kernel⟩,
  ⟨0, { type := 5 }, { braid := { ports := [(0, { step := 6 })] } }, 0, ⟨rfl, rfl⟩,
    by decide +kernel,
    by decide +kernel,
    by decide +kernel,
    by decide +kernel,
    .inr rfl⟩,
  ⟨0, { type := 2, flags := 1 }, { braid := { ports := [(0, { step := 6 })] } }, ⟨rfl, rfl⟩,
    by decide +kernel,
    by decide +kernel,
    by decide +kernel,
    by decide +kernel,
    .inl rfl⟩,
  ⟨0, { type := 6, flags := 3 }, { braid := { ports := [(0, { step := 6 })] } }, ⟨rfl, rfl⟩,
    by and_intros <;> decide +kernel⟩,
  ⟨0, { type := 7, flags := 2, body := List.replicate 16 0 }, { braid := { ports := [(0, { step := 6 })], xfers := [{ hops := [(0, some 0)] }] } }, { hops := [(0, some 0)] }, 0, 0, ⟨rfl, rfl⟩,
    by and_intros <;> decide +kernel⟩,
  ⟨0, { type := 8, flags := 3 }, { braid := { ports := [(0, { step := 6 })] } }, ⟨rfl, rfl⟩,
    by and_intros <;> decide +kernel⟩,
  ⟨0, { type := 9, flags := 3 }, { braid := { ports := [(0, { step := 6 })] } }, ⟨rfl, rfl⟩,
    by and_intros <;> decide +kernel⟩,
  ⟨0, { type := 1, reserved := 1 }, { braid := { ports := [(0, { step := 6 })] } }, 0, ⟨rfl, rfl⟩,
    by and_intros <;> decide +kernel⟩⟩

/-- `Obligations.TransfersRun`: states and operands that meet each clause's hypotheses. -/
theorem wit_transfersRun :
  (∃ (i : Nat) (x : McXfer) (bytes : List Byte) (s : State), s.runs ∧ s.xfer? s.device i = some x ∧ x.held.find? x.sent = some bytes ∧
    x.sent < x.credit ((s.groupFor x.group x.tenant).contains s.device) + s.fld .braidMcast 0 0 31 24) ∧
  (∃ (i : Nat) (x : McXfer) (s : State), s.runs ∧ s.braid.xfers[i]? = some x ∧ x.pruned = false ∧ x.sender ≠ s.device ∧ x.done.length < x.held.length ∧
    x.progress + s.fld .braidMcast 0 0 23 0 ≤ s.now) ∧
  (∃ (i hop c : Nat) (x : McXfer) (s : State), s.runs ∧ hop ≠ 12 ∧ s.braid.xfers[i]? = some x ∧ x.hops.find? hop = some (some c) ∧ c < x.sent ∧
    SMap.getD (fun _ => 0) x.hopAt hop + 2 * s.fld .braidMcast 0 0 23 0 ≤ s.now) ∧
  (∃ (i : Nat) (x : McXfer) (s : State), s.runs ∧ s.braid.xfers[i]? = some x ∧ (s.groupFor x.group x.tenant).contains s.device = true ∧
    x.sender ≠ s.device ∧ x.outOfSet = false ∧ ((x.chunks = 0 ∨ x.sent ≠ x.chunks)) ∧ x.sent ≠ 0 ∧ x.lastRx + 2 * s.fld .braidMcast 0 0 23 0 ≤ s.now) ∧
  (∃ (i : Nat) (x : McXfer) (s : State), s.runs ∧ s.braid.xfers[i]? = some x ∧ x.outOfSet = true ∧ x.repairing = false ∧
    s.head.records.any (fun r => r.queue == 64) = false) ∧
  (∃ (i : Nat) (x : McXfer) (s : State), s.runs ∧ s.xfer? s.device i = some x ∧ 0 < x.chunks ∧ x.sent = x.chunks ∧ x.lastSent + 2 ^ 32 ≤ s.now) ∧
  (∃ (port : Nat) (m : BrMsg) (s : State), s.runs ∧ s.fld .braidPortCfg port 0 2 1 = 1 ∧
    (foundFull 0 (s.brPort port).egress).find? (fun m => (m.type == 5 || m.type == 8 || m.type == 9) && decide (m.since + s.rd .braidAtt 0 0 ≤ s.now)) = some m) :=
  ⟨⟨0, { held := [(0, [])] }, [], { braid := { xfers := [{ held := [(0, [])] }] } }, ⟨rfl, rfl⟩,
    by and_intros <;> decide +kernel⟩,
  ⟨0, { sender := 1, held := [(0, [])] }, { braid := { xfers := [{ sender := 1, held := [(0, [])] }] }, time := { bt := 2 ^ 24 } }, ⟨rfl, rfl⟩,
    by and_intros <;> decide +kernel⟩,
  ⟨0, 0, 0, { hops := [(0, some 0)], sent := 1 }, { braid := { xfers := [{ hops := [(0, some 0)], sent := 1 }] }, time := { bt := 2 ^ 25 } }, ⟨rfl, rfl⟩,
    by and_intros <;> decide +kernel⟩,
  ⟨0, { sender := 1, chunks := 2, sent := 1 }, { regs := [(regKey .braidCfg 0 0, 0)], braid := { xfers := [{ sender := 1, chunks := 2, sent := 1 }] }, time := { bt := 2 ^ 25 } }, ⟨rfl, rfl⟩,
    by and_intros <;> decide +kernel⟩,
  ⟨0, { outOfSet := true }, { braid := { xfers := [{ outOfSet := true }] } }, ⟨rfl, rfl⟩,
    by and_intros <;> decide +kernel⟩,
  ⟨0, { chunks := 1, sent := 1 }, { braid := { xfers := [{ chunks := 1, sent := 1 }] }, time := { bt := 2 ^ 32 } }, ⟨rfl, rfl⟩,
    by and_intros <;> decide +kernel⟩,
  ⟨0, tLong (2 ^ 21), tFull (2 ^ 21), ⟨rfl, rfl⟩,
    by decide +kernel,
    full_alone _ _ (Nat.le_of_eq (List.length_replicate ..).symm) (by decide +kernel)⟩⟩

/-- `Obligations.BootStepsLead`: states and operands that meet each clause's hypotheses. -/
theorem wit_bootStepsLead :
  (∃ (b : BootIn) (s : State), s.runs ∧ s.head.dead = false ∧ s.head.step = 1 ∧ b.ok = true ∧ b.refs % 4 ≠ 0) ∧
  (∃ (b : BootIn) (s : State), ∃ k : Nat, s.runs ∧ s.head.dead = false ∧ s.head.step = 2 ∧
    (if s.sec.error = true then some s.sec.failTest else b.testFail) = some k) ∧
  (∃ (b : BootIn) (s : State), s.runs ∧ s.head.dead = false ∧ s.head.step = 2 ∧ s.sec.error = false ∧ b.testFail = none) ∧
  (∃ (b : BootIn) (s : State), s.runs ∧ s.head.dead = false ∧ s.head.step = 3) ∧
  (∃ (b : BootIn) (s : State), s.runs ∧ s.head.dead = false ∧ s.head.step = 4 ∧ s.warmBoot = false) ∧
  (∃ (b : BootIn) (s : State), s.runs ∧ s.head.dead = false ∧ s.head.step = 4 ∧ s.warmBoot = true) ∧
  (∃ (b : BootIn) (s : State), s.runs ∧ s.head.dead = false ∧ s.head.step = 5 ∧ b.ok = true) ∧
  (∃ (b : BootIn) (s : State), s.runs ∧ s.head.dead = false ∧ s.head.step = 6) ∧
  (∃ (b : BootIn) (s : State), s.runs ∧ s.head.dead = false ∧ s.head.step = 7 ∧ s.time.state = 1) ∧
  (∃ (b : BootIn) (s : State), s.runs ∧ s.head.dead = false ∧ s.head.step = 8 ∧ s.mem.erased = true) :=
  ⟨⟨{}, {}, ⟨rfl, rfl⟩,
    by and_intros <;> decide +kernel⟩,
  ⟨{ testFail := some 1 }, { head := { step := 2 } }, 1, ⟨rfl, rfl⟩,
    by and_intros <;> decide +kernel⟩,
  ⟨{}, { head := { step := 2 } }, ⟨rfl, rfl⟩,
    by and_intros <;> decide +kernel⟩,
  ⟨{}, { head := { step := 3 } }, ⟨rfl, rfl⟩,
    by and_intros <;> decide +kernel⟩,
  ⟨{}, { head := { step := 4 } }, ⟨rfl, rfl⟩,
    by and_intros <;> decide +kernel⟩,
  ⟨{}, { head := { step := 4 }, power := { resetCause := 8 } }, ⟨rfl, rfl⟩,
    by and_intros <;> decide +kernel⟩,
  ⟨{}, { head := { step := 5 } }, ⟨rfl, rfl⟩,
    by and_intros <;> decide +kernel⟩,
  ⟨{}, { head := { step := 6 } }, ⟨rfl, rfl⟩,
    by and_intros <;> decide +kernel⟩,
  ⟨{}, { head := { step := 7 }, time := { state := 1 } }, ⟨rfl, rfl⟩,
    by and_intros <;> decide +kernel⟩,
  ⟨{}, { head := { step := 8 }, mem := { erased := true } }, ⟨rfl, rfl⟩,
    by and_intros <;> decide +kernel⟩⟩

/-- `Obligations.HeadwaterTakes`: states and operands that meet each clause's hypotheses. -/
theorem wit_headwaterTakes :
  (∃ (r : Rec) (s n : State), s.runs ∧ s.takeHead clsControl = some (r, n)) ∧
  (∃ (r : Rec) (s n : State), s.runs ∧ s.takeHead clsModel = some (r, n)) ∧
  (∃ (tenant port tag : Nat) (s : State), s.runs) ∧
  (∃ (tenant : Nat) (x : Transfer) (s : State), s.runs ∧ (s.hwT tenant).xfer = some x ∧ x.last + s.fld .hwCfg 0 0 31 16 * 65536 ≤ s.now) ∧
  (∃ (c : HwCmd) (l : List HwCmd) (w : List Byte) (m : State) (s : State), s.runs ∧ s.firstCmd 0x0001 c l ∧ c.cmd.body.length = 8 ∧ 
    let k := leAt c.cmd.body 4 4
    1 ≤ k ∧ k ≤ 1024 ∧ leAt c.cmd.body 0 4 % 4 = 0 ∧ (s.leaving l).readWords c.path c.cmd.tenant (leAt c.cmd.body 0 4) k 0 [] = .ok (w, m)) ∧
  (∃ (c : HwCmd) (l : List HwCmd) (m : State) (s : State), s.runs ∧ s.firstCmd 0x0002 c l ∧ c.cmd.body.length = 16 ∧ leAt c.cmd.body 12 4 = 0 ∧
    (s.leaving l).tenancy = false ∧ (s.leaving l).writeWord c.path c.cmd.tenant (leAt c.cmd.body 0 4) (leAt c.cmd.body 8 4) (leAt c.cmd.body 4 4) = .ok m) ∧
  (∃ (c : HwCmd) (l : List HwCmd) (i : Nat) (f : Nat) (d : RegDesc) (s : State), s.runs ∧ s.firstCmd 0x0002 c l ∧ c.cmd.body.length = 16 ∧
    leAt c.cmd.body 12 4 = 0 ∧ 
    let n := s.leaving l
    n.tenancy = true ∧ c.cmd.keyId ≠ 0 ∧ locate (leAt c.cmd.body 0 4) = some (d, i, f) ∧ n.tenantMay c.cmd.tenant d i = false) :=
  ⟨⟨{ dest := .braid 0 0 0, cls := clsControl }, { head := { records := [{ dest := .braid 0 0 0, cls := clsControl }] } }, _, ⟨rfl, rfl⟩,
    rfl⟩,
  ⟨{ dest := .braid 0 0 0, cls := clsModel }, { head := { records := [{ dest := .braid 0 0 0, cls := clsModel }] } }, _, ⟨rfl, rfl⟩,
    rfl⟩,
  ⟨3, 0, 0, {}, ⟨rfl, rfl⟩⟩,
  ⟨3, {}, { head := { tenants := [{}, {}, {}, { xfer := some {} }] }, time := { bt := 2 ^ 32 } }, ⟨rfl, rfl⟩,
    by and_intros <;> decide +kernel⟩,
  ⟨{ cmd := { cmd := 1, body := leBytes 8 (2 ^ 32) } }, [], _, _, tCmd { cmd := { cmd := 1, body := leBytes 8 (2 ^ 32) } }, ⟨rfl, rfl⟩,
    by unfold State.firstCmd; decide +kernel,
    by decide +kernel,
    by decide +kernel,
    by decide +kernel,
    by decide +kernel,
    rfl⟩,
  ⟨{ cmd := { cmd := 2, body := List.replicate 16 0 } }, [], _, tCmd { cmd := { cmd := 2, body := List.replicate 16 0 } }, ⟨rfl, rfl⟩,
    by unfold State.firstCmd; decide +kernel,
    by decide +kernel,
    by decide +kernel,
    by decide +kernel,
    rfl⟩,
  ⟨{ cmd := { cmd := 2, keyId := 1, body := leBytes 16 0x01000000 } }, [], _, _, _, { tCmd { cmd := { cmd := 2, keyId := 1, body := leBytes 16 0x01000000 } } with sec := { tenancy := true } }, ⟨rfl, rfl⟩,
    by unfold State.firstCmd; decide +kernel,
    by decide +kernel,
    by decide +kernel,
    by decide +kernel,
    by decide +kernel,
    rfl,
    by decide +kernel⟩⟩

/-- `Obligations.LaunchesAccepted`: states and operands that meet each clause's hypotheses. -/
theorem wit_launchesAccepted :
  (∃ (c : HwCmd) (l : List HwCmd) (s : State), s.runs ∧ 
    let n := s.leaving l
    let b := c.cmd.body
    s.firstCmd 0x0010 c l ∧ b.length = 56 ∧ n.launchRefused c 1 = none ∧ swapBars n c.cmd = none) ∧
  (∃ (c : HwCmd) (l : List HwCmd) (s : State), s.runs ∧ 
    let n := s.leaving l
    let b := c.cmd.body
    s.firstCmd 0x0011 c l ∧ b.length = 64 ∧ leAt b 60 4 = 0 ∧ n.launchRefused c 2 = none ∧ drainBars n c.cmd = none) ∧
  (∃ (c : HwCmd) (l : List HwCmd) (s : State), s.runs ∧ 
    let n := s.leaving l
    let b := c.cmd.body
    s.firstCmd 0x0012 c l ∧ b = [] ∧ n.launchRefused c 3 = none) ∧
  (∃ (c : HwCmd) (l : List HwCmd) (s : State), s.runs ∧ 
    let n := s.leaving l
    let b := c.cmd.body
    s.firstCmd 0x0013 c l ∧ (b = [] ∨ b.length = 128) ∧ n.launchRefused c 4 = none ∧ resumeBars n c.cmd = none) ∧
  (∃ (c : HwCmd) (l : List HwCmd) (s : State), s.runs ∧ 
    let n := s.leaving l
    let b := c.cmd.body
    s.firstCmd 0x0020 c l ∧ b = [] ∧ n.slotBars c.cmd.tenant = none) :=
  ⟨⟨{ cmd := { cmd := 0x10, targetEn := 64, body := List.replicate 56 0 } }, [], tCmd { cmd := { cmd := 0x10, targetEn := 64, body := List.replicate 56 0 } }, ⟨rfl, rfl⟩,
    by unfold State.firstCmd; decide +kernel,
    by and_intros <;> decide +kernel⟩,
  ⟨{ cmd := { cmd := 0x11, targetEn := 64, body := List.replicate 56 0 ++ [65, 0, 0, 0, 0, 0, 0, 0] } }, [], { tCmd { cmd := { cmd := 0x11, targetEn := 64, body := List.replicate 56 0 ++ [65, 0, 0, 0, 0, 0, 0, 0] } } with head := { cmds := [{ cmd := { cmd := 0x11, targetEn := 64, body := List.replicate 56 0 ++ [65, 0, 0, 0, 0, 0, 0, 0] } }], tenants := [{ slots := [{}, { checked := true }] }] } }, ⟨rfl, rfl⟩,
    by unfold State.firstCmd; decide +kernel,
    by and_intros <;> decide +kernel⟩,
  ⟨{ cmd := { cmd := 0x12, targetEn := 64 } }, [], tCmd { cmd := { cmd := 0x12, targetEn := 64 } }, ⟨rfl, rfl⟩,
    by unfold State.firstCmd; decide +kernel,
    by and_intros <;> decide +kernel⟩,
  ⟨{ cmd := { cmd := 0x13, targetEn := 64 } }, [], tCmd { cmd := { cmd := 0x13, targetEn := 64 } }, ⟨rfl, rfl⟩,
    by unfold State.firstCmd; decide +kernel,
    .inl rfl,
    by and_intros <;> decide +kernel⟩,
  ⟨{ cmd := { cmd := 0x20 } }, [], tCmd { cmd := { cmd := 0x20 } }, ⟨rfl, rfl⟩,
    by unfold State.firstCmd; decide +kernel,
    by and_intros <;> decide +kernel⟩⟩

/-- `Obligations.BundlesPlace`: states and operands that meet each clause's hypotheses (but what only a free value decides). -/
theorem wit_bundlesPlace :
  (∃ (tenant : Nat) (s : State), s.runs ∧ (s.hwT tenant).loadState = 2 ∧ 
    let h := s.hwT tenant
    let k := 1 - h.activeSlot
    let x := nth h.slots k {}
    s.bundleFault tenant x ≠ 0) ∧
  (∃ (tenant : Nat) (s : State), s.runs ∧ (s.hwT tenant).loadState = 2) ∧
  (∃ (tenant : Nat) (s : State), s.runs ∧ (s.hwT tenant).loadState = 3 ∧ (s.hwT tenant).placing = false) ∧
  (∃ (tenant : Nat) (o : SetInst) (s : State), s.runs ∧ (s.hwT tenant).old = some o ∧ s.passed (s.hwT tenant).switchDue = true ∧
    s.die.recs.any (fun r => r.bank == o.half && (s.tenantDies tenant).contains r.die) = false) ∧
  (∃ (tenant : Nat) (l : Launch) (s : State), s.runs ∧ (s.hwT tenant).drainSwap = some l ∧ (s.hwT tenant).placing = true) ∧
  (∃ (tenant : Nat) (l : Launch) (s : State), s.runs ∧ (s.hwT tenant).drainSwap = some l ∧ (s.hwT tenant).placing = true) :=
  ⟨⟨0, { head := { tenants := [{ loadState := 2 }] } }, ⟨rfl, rfl⟩,
    by and_intros <;> decide +kernel⟩,
  ⟨0, { head := { tenants := [{ loadState := 2 }] } }, ⟨rfl, rfl⟩,
    by decide +kernel⟩,
  ⟨3, { head := { tenants := [{}, {}, {}, { loadState := 3 }] } }, ⟨rfl, rfl⟩,
    by and_intros <;> decide +kernel⟩,
  ⟨0, {}, { head := { tenants := [{ old := some {} }] } }, ⟨rfl, rfl⟩,
    by and_intros <;> decide +kernel⟩,
  ⟨0, {}, { head := { tenants := [{ drainSwap := some {}, placing := true }] } }, ⟨rfl, rfl⟩,
    by and_intros <;> decide +kernel⟩,
  ⟨0, {}, { head := { tenants := [{ drainSwap := some {}, placing := true }] } }, ⟨rfl, rfl⟩,
    by and_intros <;> decide +kernel⟩⟩

/-- `Obligations.MemoryServes`: states and operands that meet each clause's hypotheses. -/
theorem wit_memoryServes :
  (∃ (reader hub addr who : Nat) (a b : Bool) (s : State), s.runs ∧ s.mem.erased = true ∧
    ((s.copies hub addr).head?.any (fun c => s.memHeld (c.1 / 6))) = false ∧ s.ownerOf addr = none) ∧
  (∃ (reader hub addr who : Nat) (a b : Bool) (s : State), ∃ (bytes : List Byte) (n : State), s.runs ∧ s.mem.erased = true ∧
    ((s.copies hub addr).head?.any (fun c => s.memHeld (c.1 / 6))) = false ∧ (s.ownerOf addr).isSome = true ∧
    s.readSector reader hub addr who ((placeOf addr).filterMap (fun c => if (if c.1 / 6 = hub then a else b) then some c.1 else none)) none = (some bytes, n)) ∧
  (∃ (reader hub addr who : Nat) (a b : Bool) (s : State), ∃ n : State, s.runs ∧ s.mem.erased = true ∧
    ((s.copies hub addr).head?.any (fun c => s.memHeld (c.1 / 6))) = false ∧ (s.ownerOf addr).isSome = true ∧
    s.readSector reader hub addr who ((placeOf addr).filterMap (fun c => if (if c.1 / 6 = hub then a else b) then some c.1 else none)) none = (none, n)) ∧
  (∃ (writer hub addr who o : Nat) (data : List Byte) (s : State), s.runs ∧ s.mem.erased = true ∧ s.ownerOf addr = some o ∧ data.length = 512 ∧
    (s.copies hub addr).any (fun c => s.memHeld (c.1 / 6)) = false) ∧
  (∃ (writer hub addr who o : Nat) (data : List (Option Byte)) (old : List Byte) (s n : State), s.runs ∧ s.mem.erased = true ∧ s.ownerOf addr = some o ∧
    data.length = 512 ∧ (s.copies hub addr).any (fun c => s.memHeld (c.1 / 6)) = false ∧ none ∈ data ∧
    s.readSector writer hub addr who [] none = (some old, n)) ∧
  (∃ (writer hub addr who : Nat) (data : List (Option Byte)) (s : State), s.runs ∧ s.mem.erased = true ∧ s.ownerOf addr = none) ∧
  (∃ (stack : Nat) (rows : List RowReport) (s : State), s.runs ∧ stack < 12 ∧ s.mem.erased = true ∧ (nth s.mem.stk stack {}).state ≠ 2) ∧
  (∃ (stack pc : Nat) (s : State), s.runs) ∧
  (∃ (stack : Nat) (perBank rfm : Bool) (s : State), s.runs ∧ stack < 12 ∧ (nth s.mem.stk stack {}).state ≠ 2) ∧
  (∃ (stack row : Nat) (spare : Bool) (s : State), s.runs ∧ stack < 12 ∧ (stack, row) ∈ s.mem.due ∧ s.fld .memPprCfg 0 0 4 4 ≠ 0 ∧
    (nth s.mem.stk stack {}).state ≠ 2) ∧
  (∃ (stack page : Nat) (r : Rotation) (s : State), s.runs ∧ s.mem.rotation = some r ∧ r.paused = false ∧ stack < 12 ∧
    (nth s.mem.stk stack {}).state ≠ 2 ∧ nextPage (s.ownerSpans r.owner stack) (nth r.next stack 0) = some page) ∧
  (∃ s : State, s.runs ∧ 6 ≤ s.head.step ∧ s.mem.erased = false) ∧
  (∃ (tenant x : Nat) (l : List Nat) (s : State), s.runs ∧ s.mem.scrubs = tenant :: x :: l ∧ s.sec.error = false) ∧
  (∃ (tenant : Nat) (s : State), s.runs ∧ s.mem.scrubs = [tenant] ∧ s.sec.error = false) :=
  ⟨⟨0, 0, 0x3000000000, 0, true, true, { mem := { erased := true } }, ⟨rfl, rfl⟩,
    by and_intros <;> decide +kernel⟩,
  ⟨0, 0, 0, 0, false, false, tMem, _, _, ⟨rfl, rfl⟩,
    by decide +kernel,
    by decide +kernel,
    by decide +kernel,
    rfl⟩,
  ⟨0, 0, 0, 0, true, true, { mem := { erased := true } }, _, ⟨rfl, rfl⟩,
    by decide +kernel,
    by decide +kernel,
    by decide +kernel,
    rfl⟩,
  ⟨0, 0, 0, 0, 4, List.replicate 512 0, { mem := { erased := true } }, ⟨rfl, rfl⟩,
    by and_intros <;> decide +kernel⟩,
  ⟨0, 0, 0, 0, 4, none :: List.replicate 511 (some 0), _, tMem, _, ⟨rfl, rfl⟩,
    by decide +kernel,
    by decide +kernel,
    by decide +kernel,
    by decide +kernel,
    (by decide +kernel),
    rfl⟩,
  ⟨0, 0, 0x3000000000, 0, [], { mem := { erased := true } }, ⟨rfl, rfl⟩,
    by and_intros <;> decide +kernel⟩,
  ⟨11, [], { mem := { erased := true } }, ⟨rfl, rfl⟩,
    by and_intros <;> decide +kernel⟩,
  ⟨0, 0, {}, ⟨rfl, rfl⟩⟩,
  ⟨11, false, true, {}, ⟨rfl, rfl⟩,
    by and_intros <;> decide +kernel⟩,
  ⟨11, 0, true, { mem := { due := [(11, 0)] }, regs := [(regKey .memPprCfg 0 0, 16)] }, ⟨rfl, rfl⟩,
    by and_intros <;> decide +kernel⟩,
  ⟨11, _, {}, { mem := { rotation := some {} } }, ⟨rfl, rfl⟩,
    by decide +kernel,
    by decide +kernel,
    by decide +kernel,
    by decide +kernel,
    rfl⟩,
  ⟨{ head := { step := 6 } }, ⟨rfl, rfl⟩,
    by and_intros <;> decide +kernel⟩,
  ⟨3, 0, [], { mem := { scrubs := [3, 0] } }, ⟨rfl, rfl⟩,
    by and_intros <;> decide +kernel⟩,
  ⟨3, { mem := { scrubs := [3] } }, ⟨rfl, rfl⟩,
    by and_intros <;> decide +kernel⟩⟩

/-- `Obligations.ServicesShow`: states and operands that meet each clause's hypotheses. -/
theorem wit_servicesShow :
  (∃ (b : Nat) (c : SignedCmd) (k : KeyEnt) (s : State), s.serves b 0x0001 c ∧ oneArg c = true ∧ s.keyEnt? (leAt c.body 0 4) = some k) ∧
  (∃ (b : Nat) (c : SignedCmd) (failed : Option Nat) (s : State), s.serves b 0x0002 c ∧ c.body = []) ∧
  (∃ (b : Nat) (m : List Byte) (s : State), s.asked b (0x7F, 1, 0x0002) m ∧ s.sec.testing = some b) ∧
  (∃ (b k : Nat) (m : List Byte) (s : State), s.asked b (0x7F, 1, 0x0002) m ∧ s.sec.testing = some b) ∧
  (∃ (b : Nat) (c : SignedCmd) (s : State), s.serves b 0x0003 c ∧ c.body = []) ∧
  (∃ (b : Nat) (c : SignedCmd) (s : State), s.serves b 0x0010 c ∧ c.body.length = 2688 ∧ 
    let h := (hash384 (c.body.take 96), hash384 (c.body.drop 96))
    (s.sec.owner = none ∨ (s.sec.owner = some h ∧ s.sec.lost = true))) :=
  ⟨⟨0, tSigned 1 (leBytes 8 1), { keyId := 1, tenants := 15 }, tSvc 1 (leBytes 8 1), ⟨_, ⟨rfl, by decide +kernel⟩, rfl, rfl, rfl, by decide +kernel⟩,
    by and_intros <;> decide +kernel⟩,
  ⟨0, tSigned 2 [], none, tSvc 2 [], ⟨_, ⟨rfl, by decide +kernel⟩, rfl, rfl, rfl, by decide +kernel⟩,
    by decide +kernel⟩,
  ⟨0, tMsg 2 [], { tSvc 2 [] with sec := { testing := some 0 } }, ⟨rfl, by decide +kernel⟩,
    by decide +kernel⟩,
  ⟨0, 1, tMsg 2 [], { tSvc 2 [] with sec := { testing := some 0 } }, ⟨rfl, by decide +kernel⟩,
    by decide +kernel⟩,
  ⟨0, tSigned 3 [], tSvc 3 [], ⟨_, ⟨rfl, by decide +kernel⟩, rfl, rfl, rfl, by decide +kernel⟩,
    by decide +kernel⟩,
  ⟨0, tSigned 0x10 (List.replicate 2688 0), tSvc 0x10 (List.replicate 2688 0), ⟨_, ⟨rfl, by decide +kernel⟩, rfl, rfl, rfl, by decide +kernel⟩,
    by decide +kernel,
    .inl rfl⟩⟩

/-- `Obligations.OfficerManages`: states and operands that meet each clause's hypotheses (but what only a free value decides). -/
theorem wit_officerManages :
  (∃ (b : Nat) (c : SignedCmd) (s n : State), s.serves b 0x0011 c ∧ c.body.length = 2736 ∧ n.entryFault c.body = none ∧ n.sec.keys.length < 128) ∧
  (∃ (b : Nat) (c : SignedCmd) (s n : State), s.serves b 0x0012 c ∧ oneArg c = true ∧ leAt c.body 0 4 ≠ 0 ∧ (n.keyEnt? (leAt c.body 0 4)).isSome = true) ∧
  (∃ (b : Nat) (c : SignedCmd) (s n : State), s.serves b 0x0013 c ∧ oneArg c = true ∧ n.sec.minVer < leAt c.body 0 4 ∧ n.sec.minSlots < 64) ∧
  (∃ (b : Nat) (c : SignedCmd) (s n : State), s.serves b 0x0014 c ∧ oneArg c = true ∧ leAt c.body 0 4 ≤ 2) ∧
  (∃ (b : Nat) (c : SignedCmd) (s n : State), s.serves b 0x0015 c ∧ oneArg c = true ∧ leAt c.body 0 4 ≤ 1 ∧ n.allDrained = true ∧ n.sec.pending = none ∧
    n.sec.tenancy ≠ (leAt c.body 0 4 == 1)) ∧
  (∃ (b : Nat) (c : SignedCmd) (s n : State), s.serves b 0x00F0 c ∧ c.body = []) :=
  ⟨⟨0, tSigned 0x11 tEntry, tSvc 0x11 tEntry, tSvc 0x11 tEntry, ⟨_, ⟨rfl, by decide +kernel⟩, rfl, rfl, rfl, by decide +kernel⟩,
    by and_intros <;> decide +kernel⟩,
  ⟨0, tSigned 0x12 (leBytes 8 1), tSvc 0x12 (leBytes 8 1), tSvc 0x12 (leBytes 8 1), ⟨_, ⟨rfl, by decide +kernel⟩, rfl, rfl, rfl, by decide +kernel⟩,
    by and_intros <;> decide +kernel⟩,
  ⟨0, tSigned 0x13 (leBytes 8 1), tSvc 0x13 (leBytes 8 1), tSvc 0x13 (leBytes 8 1), ⟨_, ⟨rfl, by decide +kernel⟩, rfl, rfl, rfl, by decide +kernel⟩,
    by and_intros <;> decide +kernel⟩,
  ⟨0, tSigned 0x14 (leBytes 8 2), tSvc 0x14 (leBytes 8 2), tSvc 0x14 (leBytes 8 2), ⟨_, ⟨rfl, by decide +kernel⟩, rfl, rfl, rfl, by decide +kernel⟩,
    by and_intros <;> decide +kernel⟩,
  ⟨0, tSigned 0x15 (leBytes 8 1), tSvc 0x15 (leBytes 8 1), tSvc 0x15 (leBytes 8 1), ⟨_, ⟨rfl, by decide +kernel⟩, rfl, rfl, rfl, by decide +kernel⟩,
    by and_intros <;> decide +kernel⟩,
  ⟨0, tSigned 0xF0 [], tSvc 0xF0 [], tSvc 0xF0 [], ⟨_, ⟨rfl, by decide +kernel⟩, rfl, rfl, rfl, by decide +kernel⟩,
    by decide +kernel⟩⟩

/-- `Obligations.KeysMove`: states and operands that meet each clause's hypotheses (but what only a free value decides). -/
theorem wit_keysMove :
  (∃ (b : Nat) (c : SignedCmd) (key : List Byte) (s n : State), s.serves b 0x0020 c ∧ 
    let p := leAt c.body 0 4
    let t := if p < 32 then s.fld .tribPortCfg p 0 5 4 else s.fld .braidPortCfg (p - 64) 0 5 4
    leAt c.body 4 4 = 0 ∧ (p < 32 ∨ (64 ≤ p ∧ p < 76))) ∧
  (∃ (b : Nat) (c : SignedCmd) (key : List Byte) (s n : State), s.serves b 0x0021 c ∧ 
    let id := leAt c.body 0 4
    let t := leAt c.body 4 4
    let rest := n.sec.exportKeys.filter (fun k => !(k.tenant == t && k.id == id))
    t < 4 ∧ (rest.filter (fun k => k.tenant == t)).length < 4) ∧
  (∃ (b : Nat) (c : SignedCmd) (s n : State), s.serves b 0x0022 c ∧ 
    let id := leAt c.body 0 4
    let t := leAt c.body 4 4
    t < 4 ∧ c.body.length = 8 ∧ (n.exportKey? t id).isSome = true ∧ n.eddy.exports.any (fun x => x.tenant == t && x.keyId == id) = false ∧
    n.eddy.imports.any (fun x => x.tenant == t && x.keyId == id) = false) ∧
  (∃ (b : Nat) (c : SignedCmd) (s n : State), s.serves b 0x0030 c ∧ oneArg c = true ∧ leAt c.body 0 4 ≤ 4 ∧ n.rotateRefused (leAt c.body 0 4) = none) ∧
  (∃ (b : Nat) (c : SignedCmd) (s n : State), s.serves b 0x0031 c ∧ oneArg c = true ∧ 
    let t := leAt c.body 0 4
    t ≤ 3 ∧ n.showDrained t = true) :=
  ⟨⟨0, tSigned 0x20 (leBytes 8 75), [], tSvc 0x20 (leBytes 8 75), tSvc 0x20 (leBytes 8 75), ⟨_, ⟨rfl, by decide +kernel⟩, rfl, rfl, rfl, by decide +kernel⟩,
    by decide +kernel,
    .inr (by decide +kernel)⟩,
  ⟨0, tSigned 0x21 (leBytes 8 0), [], tSvc 0x21 (leBytes 8 0), tSvc 0x21 (leBytes 8 0), ⟨_, ⟨rfl, by decide +kernel⟩, rfl, rfl, rfl, by decide +kernel⟩,
    by and_intros <;> decide +kernel⟩,
  ⟨0, tSigned 0x22 (leBytes 8 0), tSvc 0x22 (leBytes 8 0), { sec := { exportKeys := [{}] } }, ⟨_, ⟨rfl, by decide +kernel⟩, rfl, rfl, rfl, by decide +kernel⟩,
    by and_intros <;> decide +kernel⟩,
  ⟨0, tSigned 0x30 (leBytes 8 4), tSvc 0x30 (leBytes 8 4), { mem := { erased := true } }, ⟨_, ⟨rfl, by decide +kernel⟩, rfl, rfl, rfl, by decide +kernel⟩,
    by and_intros <;> decide +kernel⟩,
  ⟨0, tSigned 0x31 (leBytes 8 3), tSvc 0x31 (leBytes 8 3), tSvc 0x31 (leBytes 8 3), ⟨_, ⟨rfl, by decide +kernel⟩, rfl, rfl, rfl, by decide +kernel⟩,
    by and_intros <;> decide +kernel⟩⟩

/-- `Obligations.SpdmAnswers`: states and operands that meet each clause's hypotheses. -/
theorem wit_spdmAnswers :
  (∃ (b : Nat) (m : List Byte) (s : State), s.sec.approved = true ∧ s.asked b (5, 0, 0x84) m) ∧
  (∃ (b : Nat) (m : List Byte) (s : State), s.sec.approved = true ∧ s.asked b (5, 0, 0xE1) m) ∧
  (∃ (b : Nat) (m : List Byte) (s : State), s.sec.approved = true ∧ s.asked b (5, 0, 0xE3) m) ∧
  (∃ (b : Nat) (m : List Byte) (s : State), s.sec.approved = true ∧ s.asked b (5, 0, 0x81) m) ∧
  (∃ (b : Nat) (m : List Byte) (s : State), s.sec.approved = true ∧ s.asked b (5, 0, 0x82) m) ∧
  (∃ (b : Nat) (m : List Byte) (s : State), s.sec.approved = true ∧ s.asked b (5, 0, 0x83) m ∧ leAt m 3 1 = 0) ∧
  (∃ (b : Nat) (m : List Byte) (s : State), s.sec.approved = true ∧ s.asked b (5, 0, 0xE0) m ∧ (leAt m 4 1 ≤ 11 ∨ leAt m 4 1 = 0xFF)) :=
  ⟨⟨1, [5, 0x10, 0x84, 0, 0], tAsk [5, 0x10, 0x84, 0, 0], by decide +kernel,
    ⟨rfl, by decide +kernel⟩⟩,
  ⟨1, [5, 0x13, 0xE1, 0, 0], tAsk [5, 0x13, 0xE1, 0, 0], by decide +kernel,
    ⟨rfl, by decide +kernel⟩⟩,
  ⟨1, [5, 0x13, 0xE3, 0, 0], tAsk [5, 0x13, 0xE3, 0, 0], by decide +kernel,
    ⟨rfl, by decide +kernel⟩⟩,
  ⟨1, [5, 0x13, 0x81, 0, 0], tAsk [5, 0x13, 0x81, 0, 0], by decide +kernel,
    ⟨rfl, by decide +kernel⟩⟩,
  ⟨1, [5, 0x13, 0x82, 0, 0], tAsk [5, 0x13, 0x82, 0, 0], by decide +kernel,
    ⟨rfl, by decide +kernel⟩⟩,
  ⟨1, [5, 0x13, 0x83, 0, 0], tAsk [5, 0x13, 0x83, 0, 0], by decide +kernel,
    ⟨rfl, by decide +kernel⟩,
    by decide +kernel⟩,
  ⟨1, [5, 0x13, 0xE0, 0, 11], tAsk [5, 0x13, 0xE0, 0, 11], by decide +kernel,
    ⟨rfl, by decide +kernel⟩,
    .inl (by decide +kernel)⟩⟩

/-- `Obligations.UnitsFail`: states and operands that meet each clause's hypotheses. -/
theorem wit_unitsFail :
  (∃ (unit : Nat) (s : State), s.runs ∧ s.unitThere unit = true) ∧
  (∃ (link : Nat) (s : State), s.runs ∧ link < 17) ∧
  (∃ (unit detail : Nat) (s : State), s.runs ∧ s.unitThere unit = true) ∧
  (∃ (die tile : Nat) (pass : Bool) (s : State), s.runs ∧ die < 8 ∧ tile < 66 ∧ (s.tile die tile).resetting = true) ∧
  (∃ (die mu : Nat) (pass : Bool) (s : State), s.runs ∧ die < 8 ∧ mu < 9 ∧ (s.mu die mu).resetting = true) ∧
  (∃ (unit : Nat) (s : State), s.runs ∧ s.canRetire unit = true) ∧
  (∃ (unit : Nat) (s : State), s.runs ∧ s.canReset unit = true) ∧
  (∃ (unit : Nat) (s : State), s.runs ∧ s.canReinstate unit = true ∧ 
    let n := unit % 4096
    unit / 4096 = 1) ∧
  (∃ (unit : Nat) (s : State), s.runs ∧ s.canReinstate unit = true ∧ 
    let n := unit % 4096
    unit / 4096 = 2) ∧
  (∃ (unit : Nat) (s : State), s.runs ∧ s.canReinstate unit = true ∧ 
    let n := unit % 4096
    unit / 4096 = 5) ∧
  (∃ (unit : Nat) (s : State), s.runs ∧ s.canReinstate unit = true ∧ 
    let n := unit % 4096
    (unit / 4096 = 1 ∨ unit / 4096 = 2 ∨ unit / 4096 = 5)) ∧
  (∃ (core : Nat) (s : State), s.runs ∧ (SMap.getD (fun _ => {}) s.rel.cores core).resetting = true) ∧
  (∃ s : State, s.runs) ∧
  (∃ (link : Nat) (s : State), s.runs ∧ 0x4000 + link ∈ s.rel.testing ∧ link < 17) :=
  ⟨⟨0x120F, {}, ⟨rfl, rfl⟩,
    by decide +kernel⟩,
  ⟨16, {}, ⟨rfl, rfl⟩,
    by decide +kernel⟩,
  ⟨0xD009, 0, {}, ⟨rfl, rfl⟩,
    by decide +kernel⟩,
  ⟨7, 65, true, { rel := { tiles := [(527, { resetting := true })] } }, ⟨rfl, rfl⟩,
    by and_intros <;> decide +kernel⟩,
  ⟨7, 8, false, { rel := { mus := [(71, { resetting := true })] } }, ⟨rfl, rfl⟩,
    by and_intros <;> decide +kernel⟩,
  ⟨0x120F, {}, ⟨rfl, rfl⟩,
    by decide +kernel⟩,
  ⟨0x120F, {}, ⟨rfl, rfl⟩,
    by decide +kernel⟩,
  ⟨0x120F, { rel := { tiles := [(527, { state := 3 })] } }, ⟨rfl, rfl⟩,
    by and_intros <;> decide +kernel⟩,
  ⟨0x2047, { rel := { mus := [(71, { state := 3 })] } }, ⟨rfl, rfl⟩,
    by and_intros <;> decide +kernel⟩,
  ⟨0x5043, { rel := { engines := [(67, { state := 3 })] } }, ⟨rfl, rfl⟩,
    by and_intros <;> decide +kernel⟩,
  ⟨0x5043, { rel := { engines := [(67, { state := 3 })] } }, ⟨rfl, rfl⟩,
    by decide +kernel,
    .inr (.inr rfl)⟩,
  ⟨7, { rel := { cores := [(7, { resetting := true })] } }, ⟨rfl, rfl⟩,
    by decide +kernel⟩,
  ⟨{}, ⟨rfl, rfl⟩⟩,
  ⟨16, { rel := { testing := [0x4010] } }, ⟨rfl, rfl⟩,
    by and_intros <;> decide +kernel⟩⟩

/-- `Obligations.SuppliesAct`: states and operands that meet each clause's hypotheses. -/
theorem wit_suppliesAct :
  (∃ (d cur : Nat) (s : State), s.runs) ∧
  (∃ (d k : Nat) (s : State), (s.sup d).warn = true) ∧
  (∃ (d k : Nat) (s : State), (s.sup d).warn = false) ∧
  (∃ (d : Nat) (margin : Int) (s : State), s.runs ∧ d < 10 ∧ s.avsOn d = true ∧ (s.sup d).goal = none ∧
    (∀ t, (s.sup d).lastStep = some t → t + 4096 ≤ s.now) ∧ 
    let k := (s.sup d).setpoint
    let go := fun (n : Nat) => (s.askSetpoint d n).setSup d { (s.askSetpoint d n).sup d with lastStep := some (s.askSetpoint d n).now }
    8 ≤ margin ∧ s.vmin d < k) ∧
  (∃ (d : Nat) (margin : Int) (s : State), s.runs ∧ d < 10 ∧ s.avsOn d = true ∧ (s.sup d).goal = none ∧
    (∀ t, (s.sup d).lastStep = some t → t + 4096 ≤ s.now) ∧ 
    let k := (s.sup d).setpoint
    let go := fun (n : Nat) => (s.askSetpoint d n).setSup d { (s.askSetpoint d n).sup d with lastStep := some (s.askSetpoint d n).now }
    margin < 4 ∧ k < s.vmax d) ∧
  (∃ (d : Nat) (margin : Int) (s : State), s.runs ∧ d < 10 ∧ s.avsOn d = true ∧ (s.sup d).goal = none ∧
    (∀ t, (s.sup d).lastStep = some t → t + 4096 ≤ s.now) ∧ 
    let k := (s.sup d).setpoint
    let go := fun (n : Nat) => (s.askSetpoint d n).setSup d { (s.askSetpoint d n).sup d with lastStep := some (s.askSetpoint d n).now }
    4 ≤ margin ∧ margin < 8) ∧
  (∃ (d t : Nat) (reported : Bool) (s : State), s.runs ∧ (s.sup d).raisedAt = some t ∧ (reported = true ∨ t + 20000 ≤ s.now)) ∧
  (∃ (d mv : Nat) (s : State), s.runs ∧ d < 10 ∧ mv < (s.sup d).vwarn) ∧
  (∃ (d mv above ok : Nat) (margin : Int) (s : State), s.runs) ∧
  (∃ (d mv : Nat) (s : State), s.runs ∧ d < 10 ∧ mv < (s.sup d).vrst) ∧
  (∃ (d : Nat) (s : State), s.runs ∧ s.head.step = 1) :=
  ⟨⟨9, 0, {}, ⟨rfl, rfl⟩⟩,
  ⟨9, 70, { power := { supply := List.replicate 10 { warn := true } } }, by decide +kernel⟩,
  ⟨9, 70, {}, by decide +kernel⟩,
  ⟨9, 8, { regs := [(regKey .pwrVcfg 9 0, 0xC61400)] }, ⟨rfl, rfl⟩,
    by and_intros <;> decide +kernel⟩,
  ⟨9, 3, { regs := [(regKey .pwrVcfg 9 0, 0xC61400)], power := { supply := List.replicate 10 { setpoint := 0 } } }, ⟨rfl, rfl⟩,
    by and_intros <;> decide +kernel⟩,
  ⟨9, 4, { regs := [(regKey .pwrVcfg 9 0, 0xC61400)] }, ⟨rfl, rfl⟩,
    by and_intros <;> decide +kernel⟩,
  ⟨9, 0, true, { power := { supply := List.replicate 10 { raisedAt := some 0 } } }, ⟨rfl, rfl⟩,
    by decide +kernel,
    .inl rfl⟩,
  ⟨9, 704, {}, ⟨rfl, rfl⟩,
    by and_intros <;> decide +kernel⟩,
  ⟨9, 0, 0, 0, 0, {}, ⟨rfl, rfl⟩⟩,
  ⟨9, 659, {}, ⟨rfl, rfl⟩,
    by and_intros <;> decide +kernel⟩,
  ⟨9, {}, ⟨rfl, rfl⟩,
    by decide +kernel⟩⟩

/-- `Obligations.ClocksMove`: states and operands that meet each clause's hypotheses. -/
theorem wit_clocksMove :
  (∃ s : State, s.power.ref.mainOk = true) ∧
  (∃ s : State, s.power.ref.redOk = true) ∧
  (∃ (good : Nat) (s : State), 0 < good ∧ s.power.ref.mainLost + good ≤ s.now) ∧
  (∃ (t : Nat) (s : State), s.power.ref.lostAt = some t ∧ t + 2 ^ 20 ≤ s.now) ∧
  (∃ (die limit : Nat) (s : State), s.runs ∧ die < 8 ∧ s.adaptive = true ∧ (∀ t, (s.heat die).lastClk = some t → t + 4096 ≤ s.now)) ∧
  (∃ (d : Nat) (margin : Int) (s : State), s.runs ∧ d < 10 ∧ s.adaptive = false ∧ margin < 2 ∧ (s.sup d).setpoint = s.vmax d ∧ (s.sup d).timing = false) :=
  ⟨⟨{ power := { ref := { mainOk := true } } }, by decide +kernel⟩,
  ⟨{ power := { ref := { red := true, redOk := true } } }, by decide +kernel⟩,
  ⟨2 ^ 24, { power := { ref := { red := true } }, regs := [(regKey .pwrRef 0 0, 8)], time := { bt := 2 ^ 24 } }, by and_intros <;> decide +kernel⟩,
  ⟨0, { power := { ref := { lostAt := some 0 } }, time := { bt := 2 ^ 20 } }, by and_intros <;> decide +kernel⟩,
  ⟨7, 0, { regs := [(regKey .pwrClkCfg 0 0, 0x1000)] }, ⟨rfl, rfl⟩,
    by and_intros <;> decide +kernel⟩,
  ⟨9, 1, { power := { supply := List.replicate 10 { setpoint := 70 } } }, ⟨rfl, rfl⟩,
    by and_intros <;> decide +kernel⟩⟩

/-- `Obligations.HeatActs`: states and operands that meet each clause's hypotheses. -/
theorem wit_heatActs :
  (∃ (die : Nat) (ds : List (Option Int)) (s : State), s.pins.held = false ∧ die < 10 ∧ SMap.getD (fun _ => []) s.mgmt.gauge die = ds ∧
    ds.filterMap id ≠ [] ∧ 
    let ok := ds.filterMap id
    let temp := ok.foldl max (ok.headD 0)
    let x := s.heat die
    115 ≤ temp) ∧
  (∃ (die : Nat) (ds : List (Option Int)) (s : State), s.pins.held = false ∧ die < 10 ∧ SMap.getD (fun _ => []) s.mgmt.gauge die = ds ∧
    ds.filterMap id ≠ [] ∧ 
    let ok := ds.filterMap id
    let temp := ok.foldl max (ok.headD 0)
    let x := s.heat die
    temp < 115) ∧
  (∃ (die : Nat) (ds : List (Option Int)) (s : State), s.pins.held = false ∧ die < 10 ∧ SMap.getD (fun _ => []) s.mgmt.gauge die = ds ∧ ds ≠ [] ∧
    ds.filterMap id = []) ∧
  (∃ (temps : List Int) (sts : List Nat) (u : Nat) (t : Int) (s : State), s.power.trip = some (u, t) ∧ temps.length = 10 ∧ sts.length = 12 ∧
    (∀ x ∈ temps, x < 90) ∧ (∀ x ∈ sts, x < 80)) ∧
  (∃ (stack temp : Nat) (s : State), s.pins.held = false ∧ stack < 12 ∧ 
    let x := nth s.mem.stk stack {}
    105 ≤ temp) ∧
  (∃ (stack temp : Nat) (s : State), s.pins.held = false ∧ stack < 12 ∧ 
    let x := nth s.mem.stk stack {}
    temp < 105) ∧
  (∃ (die : Nat) (temps : List (Option Int)) (s : State), die < 10 ∧ temps.length = (if die < 8 then 12 else 20)) ∧
  (∃ (core : Nat) (share cur : List Nat) (s : State), s.runs ∧ s.head.step = 9) :=
  ⟨⟨9, [some 115], { mgmt := { gauge := [(9, [some 115])] } }, by and_intros <;> decide +kernel⟩,
  ⟨9, [some 114, none], { mgmt := { gauge := [(9, [some 114, none])] } }, by and_intros <;> decide +kernel⟩,
  ⟨9, [none], { mgmt := { gauge := [(9, [none])] } }, by and_intros <;> decide +kernel⟩,
  ⟨List.replicate 10 89, List.replicate 12 79, 0, 115, { power := { trip := some (0, 115) } }, by and_intros <;> decide +kernel⟩,
  ⟨11, 105, {}, by and_intros <;> decide +kernel⟩,
  ⟨11, 104, {}, by and_intros <;> decide +kernel⟩,
  ⟨9, List.replicate 20 none, {}, by and_intros <;> decide +kernel⟩,
  ⟨0, [], [], { head := { step := 9 } }, ⟨rfl, rfl⟩,
    by decide +kernel⟩⟩

/-- `Obligations.MgmtServes`: states and operands that meet each clause's hypotheses. -/
theorem wit_mgmtServes :
  (∃ (b : Nat) (pkt : List Byte) (s : State), b ≤ 1 ∧ (b = 1 → s.fld .mgmtCfg 0 0 0 0 ≠ 0 ∧ s.mgmt.link = true) ∧ 5 ≤ pkt.length ∧
    pkt.length ≤ (if b = 1 then 1028 else 68) ∧ leAt pkt 0 1 % 16 = 1 ∧ (leAt pkt 1 1 = 0 ∨ leAt pkt 1 1 = s.mgmt.eid) ∧
    bit (leAt pkt 3 1) 7 = true ∧ bit (leAt pkt 3 1) 6 = true) ∧
  (∃ (b : Nat) (m : List Byte) (s : State), s.asked b (0, 0, 1) m ∧ leAt m 3 1 % 4 ≤ 1 ∧ 8 ≤ leAt m 4 1 ∧ leAt m 4 1 ≠ 0xFF) ∧
  (∃ (b : Nat) (m : List Byte) (s : State), s.asked b (0, 0, 2) m) ∧
  (∃ (b : Nat) (m : List Byte) (s : State), s.asked b (0, 0, 3) m) ∧
  (∃ (b : Nat) (m : List Byte) (s : State), s.asked b (0, 0, 4) m) ∧
  (∃ (b : Nat) (m : List Byte) (s : State), s.asked b (0, 0, 5) m) ∧
  (∃ (b : Nat) (m : List Byte) (s : State), s.asked b (0, 0, 6) m) ∧
  (∃ (addr : Nat) (s : State), 1 ≤ addr ∧ addr < 0x7E) ∧
  (∃ (b : Nat) (m : List Byte) (s : State), s.asked b (1, 0, 2) m) ∧
  (∃ (b : Nat) (m : List Byte) (s : State), s.asked b (1, 0, 3) m) ∧
  (∃ (b : Nat) (m : List Byte) (s : State), s.asked b (1, 0, 4) m) ∧
  (∃ (b : Nat) (m : List Byte) (s : State), s.asked b (1, 0, 5) m ∧ (leAt m 4 1 = 0 ∨ leAt m 4 1 = 2 ∨ leAt m 4 1 = 5)) ∧
  (∃ (b : Nat) (m : List Byte) (s : State), ∃ v : Option Int, s.asked b (1, 2, 0x11) m ∧ s.numericSensor (leAt m 4 2) = some v) ∧
  (∃ (b : Nat) (m : List Byte) (s : State), ∃ v : Option Nat, s.asked b (1, 2, 0x21) m ∧ s.stateSensor (leAt m 4 2) = some v) ∧
  (∃ (b : Nat) (m : List Byte) (s : State), s.asked b (1, 2, 0x50) m) ∧
  (∃ (b : Nat) (m : List Byte) (s : State), s.asked b (1, 2, 0x51) m) ∧
  (∃ (b : Nat) (m : List Byte) (s : State), s.asked b (1, 2, 0x04) m) :=
  ⟨⟨1, [1, 0, 0, 0xC0, 0], { regs := [(regKey .mgmtCfg 0 0, 1)], mgmt := { link := true } }, by decide +kernel,
    by intro; decide +kernel,
    by and_intros <;> decide +kernel⟩,
  ⟨1, [0, 0, 1, 0, 254], tAsk [0, 0, 1, 0, 254], ⟨rfl, by decide +kernel⟩,
    by and_intros <;> decide +kernel⟩,
  ⟨1, [0, 0, 2], tAsk [0, 0, 2], ⟨rfl, by decide +kernel⟩⟩,
  ⟨1, [0, 0, 3], tAsk [0, 0, 3], ⟨rfl, by decide +kernel⟩⟩,
  ⟨1, [0, 0, 4], tAsk [0, 0, 4], ⟨rfl, by decide +kernel⟩⟩,
  ⟨1, [0, 0, 5], tAsk [0, 0, 5], ⟨rfl, by decide +kernel⟩⟩,
  ⟨1, [0, 0, 6], tAsk [0, 0, 6], ⟨rfl, by decide +kernel⟩⟩,
  ⟨0x7D, {}, by and_intros <;> decide +kernel⟩,
  ⟨1, [1, 0, 0, 2], tAsk [1, 0, 0, 2], ⟨rfl, by decide +kernel⟩⟩,
  ⟨1, [1, 0, 0, 3], tAsk [1, 0, 0, 3], ⟨rfl, by decide +kernel⟩⟩,
  ⟨1, [1, 0, 0, 4], tAsk [1, 0, 0, 4], ⟨rfl, by decide +kernel⟩⟩,
  ⟨1, [1, 0, 0, 5, 5], tAsk [1, 0, 0, 5, 5], ⟨rfl, by decide +kernel⟩,
    .inr (.inr rfl)⟩,
  ⟨1, [1, 0, 2, 0x11, 1, 0], tAsk [1, 0, 2, 0x11, 1, 0], _, ⟨rfl, by decide +kernel⟩,
    rfl⟩,
  ⟨1, [1, 0, 2, 0x21, 0x50, 0], tAsk [1, 0, 2, 0x21, 0x50, 0], _, ⟨rfl, by decide +kernel⟩,
    rfl⟩,
  ⟨1, [1, 0, 2, 0x50], tAsk [1, 0, 2, 0x50], ⟨rfl, by decide +kernel⟩⟩,
  ⟨1, [1, 0, 2, 0x51], tAsk [1, 0, 2, 0x51], ⟨rfl, by decide +kernel⟩⟩,
  ⟨1, [1, 0, 2, 0x04], tAsk [1, 0, 2, 0x04], ⟨rfl, by decide +kernel⟩⟩⟩

/-- `Obligations.UpdateRuns`: states and operands that meet each clause's hypotheses. -/
theorem wit_updateRuns :
  (∃ (b : Nat) (m : List Byte) (s : State), 
    let f := s.mgmt.fwup
    s.asked b (1, 5, 0x01) m) ∧
  (∃ (b : Nat) (m : List Byte) (s : State), 
    let f := s.mgmt.fwup
    s.asked b (1, 5, 0x02) m) ∧
  (∃ (b : Nat) (m : List Byte) (s : State), 
    let f := s.mgmt.fwup
    s.asked b (1, 5, 0x10) m ∧ s.fld .mgmtCfg 0 0 1 1 ≠ 0 ∧ f.state = 0 ∧ s.sec.approved = true) ∧
  (∃ (b : Nat) (m : List Byte) (s : State), 
    let f := s.mgmt.fwup
    s.asked b (1, 5, 0x13) m ∧ f.state = 1) ∧
  (∃ (b : Nat) (m : List Byte) (s : State), 
    let f := s.mgmt.fwup
    s.asked b (1, 5, 0x14) m ∧ f.state = 2 ∧ leAt m 13 4 < 0x0F800000 ∧ leAt m 4 2 = 0x000A ∧ leAt m 6 2 = 1) ∧
  (∃ (b : Nat) (m : List Byte) (s : State), 
    let f := s.mgmt.fwup
    s.asked b (1, 5, 0x1A) m ∧ f.state = 2 ∧ f.applied = true ∧ leAt m 4 1 = 0) ∧
  (∃ (b : Nat) (m : List Byte) (s : State), 
    let f := s.mgmt.fwup
    s.asked b (1, 5, 0x1B) m) ∧
  (∃ (b : Nat) (m : List Byte) (s : State), 
    let f := s.mgmt.fwup
    s.asked b (1, 5, 0x1D) m ∧ f.state ≠ 0) ∧
  (∃ (b : Nat) (s : State), ∃ data : Option (List Byte), s.mgmt.fwup.binding = b ∧ 
    let f := s.mgmt.fwup
    f.state = 3 ∧ f.offset < f.size) ∧
  (∃ (b : Nat) (s : State), s.mgmt.fwup.binding = b ∧ 
    let f := s.mgmt.fwup
    f.state = 3 ∧ f.size ≤ f.offset) ∧
  (∃ (b : Nat) (s : State), s.mgmt.fwup.binding = b ∧ 
    let f := s.mgmt.fwup
    f.state = 4) ∧
  (∃ (b : Nat) (s : State), s.mgmt.fwup.binding = b ∧ 
    let f := s.mgmt.fwup
    f.state = 5) :=
  ⟨⟨1, [1, 0, 5, 0x01], tAsk [1, 0, 5, 0x01], ⟨rfl, by decide +kernel⟩⟩,
  ⟨1, [1, 0, 5, 0x02], tAsk [1, 0, 5, 0x02], ⟨rfl, by decide +kernel⟩⟩,
  ⟨1, [1, 0, 5, 0x10], { tAsk [1, 0, 5, 0x10] with regs := [(regKey .mgmtCfg 0 0, 2)], sec := { approved := true } }, ⟨rfl, by decide +kernel⟩,
    by and_intros <;> decide +kernel⟩,
  ⟨1, [1, 0, 5, 0x13], { mgmt := { queue := [(1, [1, 0, 5, 0x13])], fwup := { state := 1 } } }, ⟨rfl, by decide +kernel⟩,
    by decide +kernel⟩,
  ⟨1, 1 :: 0 :: 5 :: 0x14 :: 0x0A :: 0 :: 1 :: List.replicate 12 0, { mgmt := { queue := [(1, 1 :: 0 :: 5 :: 0x14 :: 0x0A :: 0 :: 1 :: List.replicate 12 0)], fwup := { state := 2 } } }, ⟨rfl, by decide +kernel⟩,
    by and_intros <;> decide +kernel⟩,
  ⟨1, [1, 0, 5, 0x1A, 0], { mgmt := { queue := [(1, [1, 0, 5, 0x1A, 0])], fwup := { state := 2, applied := true } } }, ⟨rfl, by decide +kernel⟩,
    by and_intros <;> decide +kernel⟩,
  ⟨1, [1, 0, 5, 0x1B], tAsk [1, 0, 5, 0x1B], ⟨rfl, by decide +kernel⟩⟩,
  ⟨1, [1, 0, 5, 0x1D], { mgmt := { queue := [(1, [1, 0, 5, 0x1D])], fwup := { state := 1 } } }, ⟨rfl, by decide +kernel⟩,
    by decide +kernel⟩,
  ⟨0, { mgmt := { fwup := { state := 3, size := 1 } } }, none, by and_intros <;> decide +kernel⟩,
  ⟨0, { mgmt := { fwup := { state := 3, size := 1, offset := 1 } } }, by and_intros <;> decide +kernel⟩,
  ⟨0, { mgmt := { fwup := { state := 4 } } }, by and_intros <;> decide +kernel⟩,
  ⟨0, { mgmt := { fwup := { state := 5 } } }, by and_intros <;> decide +kernel⟩⟩

/-- `Obligations.RegistersAnswer`: states and operands that meet each clause's hypotheses. -/
theorem wit_registersAnswer :
  (∃ (path tenant addr mask value : Nat) (s n : State), s.writeWord path tenant addr mask value = .ok n) ∧
  (∃ (path tenant addr mask value rc d : Nat) (s : State), s.writeWord path tenant addr mask value = .error (rc, d)) ∧
  (∃ (path tenant addr v : Nat) (s n : State), s.readWord path tenant addr = .ok (v, n)) ∧
  (∃ value : Nat, ∃ s : State, bit value 1 = true) ∧
  (∃ value : Nat, ∃ s : State, bit value 1 = false ∧ bit value 0 = true) :=
  ⟨⟨1, 0, 0, 0, 0, {}, {}, rfl⟩,
  ⟨1, 0, 0x1B000000, 0, 0, rcOk, 0x17, {}, rfl⟩,
  ⟨1, 0, 0, _, {}, _, rfl⟩,
  ⟨2, {}, by decide +kernel⟩,
  ⟨1, {}, by and_intros <;> decide +kernel⟩⟩

/-- `Obligations.PinsAct`: states and operands that meet each clause's hypotheses. -/
theorem wit_pinsAct :
  (∃ s : State, s.pins.coldN = true) ∧
  (∃ s : State, s.pins.coldN = false ∧ s.pins.auxPg = true ∧ s.power.trip = none) ∧
  (∃ s : State, s.pins.auxPg = true) ∧
  (∃ s : State, s.pins.auxPg = false ∧ s.pins.coldN = true ∧ s.power.trip = none) ∧
  (∃ s : State, s.pins.warmN = true ∧ s.pins.held = false) ∧
  (∃ s : State, s.pins.trstN = true) :=
  ⟨⟨{}, by decide +kernel⟩,
  ⟨{ pins := { coldN := false } }, by and_intros <;> decide +kernel⟩,
  ⟨{}, by decide +kernel⟩,
  ⟨{ pins := { auxPg := false } }, by and_intros <;> decide +kernel⟩,
  ⟨{}, by and_intros <;> decide +kernel⟩,
  ⟨{}, by decide +kernel⟩⟩

/-- `Obligations.TopIdReads`: states and operands that meet each clause's hypotheses. -/
theorem wit_topIdReads :
  (∃ (path tenant : Nat) (s : State), s.fuse.grade = 1) ∧
  (∃ (path tenant : Nat) (s : State), s.fuse.grade = 2) ∧
  (∃ addr : Nat, 0 < addr ∧ addr < 2 ^ 24) :=
  ⟨⟨0, 0, {}, by decide +kernel⟩,
  ⟨1, 0, { fuse := { grade := 2 } }, by decide +kernel⟩,
  ⟨2 ^ 24 - 1, by and_intros <;> decide +kernel⟩⟩

/-- `Obligations.UnlistedAddresses`: states and operands that meet each clause's hypotheses. -/
theorem wit_unlistedAddresses :
  (∃ (path tenant addr : Nat) (s : State), addr / 2 ^ 24 < 0x1A ∧ locate addr = none ∧ s.answers (addr / 2 ^ 24) = true) ∧
  (∃ (path tenant addr : Nat) (s : State), ∃ mask value : Nat, addr / 2 ^ 24 < 0x1A ∧ locate addr = none ∧ s.answers (addr / 2 ^ 24) = true) ∧
  (∃ (path tenant addr : Nat) (s : State), addr / 2 ^ 24 = 0x1A ∧ 2 ^ 21 ≤ addr % 2 ^ 24 ∧ s.answers 0x1A = true) ∧
  (∃ (path tenant addr : Nat) (s : State), ∃ mask value : Nat, addr / 2 ^ 24 = 0x1A ∧ 2 ^ 21 ≤ addr % 2 ^ 24 ∧ s.answers 0x1A = true) ∧
  (∃ (path tenant addr mask value : Nat) (s : State), 0x1A < addr / 2 ^ 24) ∧
  (∃ (path tenant addr mask value : Nat) (s : State), 0x1A < addr / 2 ^ 24) ∧
  (∃ (c : HwCmd) (l : List HwCmd) (i : Nat) (w : List Byte) (m s : State), s.runs ∧ s.firstCmd 0x0001 c l ∧ c.cmd.body.length = 8 ∧ 
    let a := leAt c.cmd.body 0 4
    let k := leAt c.cmd.body 4 4
    a % 4 = 0 ∧ i < k ∧ k ≤ 1024 ∧ (s.leaving l).readWords c.path c.cmd.tenant a i 0 [] = .ok (w, m) ∧ 0x1A < (a + 4 * i) / 2 ^ 24) ∧
  (∃ (c : HwCmd) (l : List HwCmd) (s : State), s.runs ∧ s.firstCmd 0x0002 c l ∧ c.cmd.body.length = 16 ∧ leAt c.cmd.body 12 4 = 0 ∧
    0x1A < leAt c.cmd.body 0 4 / 2 ^ 24) :=
  ⟨⟨1, 0, 1, {}, by and_intros <;> decide +kernel⟩,
  ⟨1, 0, 1, {}, 0, 0, by and_intros <;> decide +kernel⟩,
  ⟨1, 0, 0x1A200000, { head := { step := 9 } }, by and_intros <;> decide +kernel⟩,
  ⟨1, 0, 0x1A200000, { head := { step := 9 } }, 0, 0, by and_intros <;> decide +kernel⟩,
  ⟨1, 0, 0x1B000000, 0, 0, {}, by decide +kernel⟩,
  ⟨1, 0, 0xFF000000, 0, 0, {}, by decide +kernel⟩,
  ⟨{ cmd := { cmd := 1, body := [0, 0, 0, 0x1B, 1, 0, 0, 0] } }, [], 0, [], _, tCmd { cmd := { cmd := 1, body := [0, 0, 0, 0x1B, 1, 0, 0, 0] } }, ⟨rfl, rfl⟩,
    by unfold State.firstCmd; decide +kernel,
    by decide +kernel,
    by decide +kernel,
    by decide +kernel,
    by decide +kernel,
    rfl,
    by decide +kernel⟩,
  ⟨{ cmd := { cmd := 2, body := [0, 0, 0, 0x1B, 0, 0, 0, 0, 0, 0, 0, 0, 0, 0, 0, 0] } }, [], tCmd { cmd := { cmd := 2, body := [0, 0, 0, 0x1B, 0, 0, 0, 0, 0, 0, 0, 0, 0, 0, 0, 0] } }, ⟨rfl, rfl⟩,
    by unfold State.firstCmd; decide +kernel,
    by and_intros <;> decide +kernel⟩⟩

/-- `Obligations.CommandsKeepOutside`: a command that answers a next state. -/
theorem wit_commandsKeepOutside : ∃ (c : Instr) (s t : State), exec c s = .next t := ⟨.epochStart, {}, _, rfl⟩

/-- `Obligations.MemoryKept`: a command that moves no memory and answers a next state. -/
theorem wit_memoryKept : ∃ (c : Instr) (s t : State), c.movesMemory = false ∧ exec c s = .next t := ⟨.epochStart, {}, _, rfl, rfl⟩

/-- `carriesOut`, in `Obligations.VeRunsGo`, `Obligations.VeArithmetic` and `Obligations.VeLaneOps`: an engine stands at each opcode. -/
theorem wit_carriesOut : ∀ op < 256, ∃ (hub engine : Nat) (r : VeRun) (s : State), s.runs ∧ s.runAt hub engine op r :=
  have h : ∀ op < 256, (tRun op).ins.op = op := by decide +kernel
  fun op ho => ⟨0, 0, tRun op, tVe op, ⟨rfl, rfl⟩, rfl, Nat.zero_lt_one, h op ho⟩

/-- `Obligations.CountersClear`: what its clauses about a warm reset and a reset of one tile suppose. -/
theorem wit_countersClear : (∃ (copy : Nat) (s : State), s.canon ∧ copy < 2 ^ 26) ∧
    (∃ (unit : Nat) (s t : State), s.runs ∧ s.canReset unit = true ∧ exec (.unitReset unit) s = .next t) ∧
    (∃ (unit : Nat) (s t : State), s.canReset unit = false ∧ exec (.unitReset unit) s = .next t) ∧
    (∃ (unit copy : Nat) (s t : State), copy < 2 ^ 26 ∧ (RegName.cntMuCnt = .cntMuCnt → copy % 5 ≠ 1) ∧ (s.tile 0 0).resetting = true ∧
      exec (.relUnitReset unit true) s = .next t) :=
  ⟨⟨2 ^ 26 - 1, {}, by unfold State.canon; decide +kernel, by decide⟩, ⟨0x1000, {}, _, ⟨rfl, rfl⟩, by decide +kernel, rfl⟩, ⟨0x3000, {}, _, by decide +kernel, rfl⟩,
    ⟨0x1000, 0, { rel := { tiles := [(0, { resetting := true })] } }, _, by decide, by decide, by decide +kernel, rfl⟩⟩

/-- `Obligations.MissingUnread`: two vectors that differ in the one feature, which is missing. -/
theorem wit_missingUnread : ∃ (ft : FTable) (v w : List Byte),
    let masked := fun (x : List Byte) (f : Nat) => bit (leAt x (featBytes ft + f / 8) 1) (f % 8)
    let value := fun (x : List Byte) (f : Nat) => leAt x (featOffset ft f) (featWidth (nth ft f 0))
    v ≠ w ∧ ∀ f : Nat, masked v f = masked w f ∧ (masked v f = false →
      value v f = value w f ∨ (featDomain (nth ft f 0) = 4 ∧ fNan (value v f) = true ∧ fNan (value w f) = true)) := by
  have h : ∀ k n : Nat, leAt [1, 0, 1] (2 + k) n = leAt [2, 0, 1] (2 + k) n := by
    intro k n
    rw [Nat.add_comm]
    rfl
  refine ⟨[0], [1, 0, 1], [2, 0, 1], by decide, fun f => ⟨?_, fun e => ?_⟩⟩
  · exact congrArg (fun x => bit x (f % 8)) (h _ _)
  · cases f with
    | zero => exact absurd e (by decide)
    | succ n =>
      have o : featOffset [0] (n + 1) = 2 := by simp [featOffset, featWidth, featDomain]
      refine .inl ?_
      show leAt _ (featOffset [0] (n + 1)) _ = leAt _ (featOffset [0] (n + 1)) _
      rw [o]
      exact h 0 _

/-- `Obligations.FalseGuardDoesNothing`: a run with a lane whose guard is false, a LOOP, and a LOOP that names a guard. -/
theorem wit_falseGuardDoesNothing :
    (∃ c ∈ veGuarded, ∃ (hub engine : Nat) (r : VeRun) (l : Lane) (s t : State), s.runs ∧ (s.veHub hub).runs.find? engine = some r ∧
      exec (c hub engine) s = .next t ∧ r.lanes[0]? = some l ∧ l.guard r.ins = false) ∧
    (∃ (hub engine : Nat) (r : VeRun) (s t : State), s.runs ∧ (s.veHub hub).runs.find? engine = some r ∧ exec (.veLoop hub engine) s = .next t) ∧
    (∃ i : VIns, i.op = 0x02 ∧ i.pg ≠ 0) :=
  ⟨⟨.veNop, by simp [veGuarded], 0, 0, { prog := { code := [0x0020000000000000] }, lanes := [{}] }, {},
      { ve := [{ runs := [(0, { prog := { code := [0x0020000000000000] }, lanes := [{}] })] }, {}] }, _, ⟨rfl, rfl⟩, rfl, rfl, rfl,
      by decide +kernel⟩,
    ⟨0, 0, tRun 2, tVe 2, _, ⟨rfl, rfl⟩, rfl, rfl⟩, { op := 2, pg := 1 }, rfl, by decide⟩

/-- `Obligations.VeCommandsFrame`: an instruction that runs. -/
theorem wit_veCommandsFrame : ∃ c ∈ veGuarded ++ [.veLoop, .veEndl], ∃ (hub engine : Nat) (s t : State), exec (c hub engine) s = .next t :=
  ⟨.veNop, by simp [veGuarded], 0, 0, tVe 0, _, rfl⟩

/-- `Obligations.SectorsFrame`: a sector that has an owner, a write and a read of it, and a byte outside its copies. -/
theorem wit_sectorsFrame :
    (∃ (writer hub addr who o : Nat) (data : List Byte) (s : State), s.runs ∧ s.canon ∧ s.mem.erased = true ∧ s.ownerOf addr = some o ∧
      data.length = 512 ∧ (s.copies hub addr).any (fun c => s.memHeld (c.1 / 6)) = false) ∧
    (∃ (s t : State) (a : Nat), s.canon ∧ exec (.sectorWrite 0 0 0 0 (List.replicate 512 (some 1))) s = .next t ∧
      ∀ c ∈ s.copies 0 0, a < copyName c * 512 ∨ copyName c * 512 + 512 ≤ a) ∧
    (∃ (s t : State) (a : Nat), s.canon ∧ exec (.sectorRead 0 0 0 0 true true) s = .next t ∧
      ∀ c ∈ s.copies 0 0, a < copyName c * 512 ∨ copyName c * 512 + 512 ≤ a) :=
  ⟨⟨0, 0, 0, 0, 4, List.replicate 512 0, tMem, ⟨rfl, rfl⟩, by unfold State.canon; decide +kernel, rfl, by decide +kernel, by decide +kernel,
      by decide +kernel⟩,
    ⟨tMem, _, 512, by unfold State.canon; decide +kernel, rfl, by decide +kernel⟩,
    ⟨tMem, _, 512, by unfold State.canon; decide +kernel, rfl, by decide +kernel⟩⟩

/-- `State.proves`, in `Obligations.OfficerManages` and `Obligations.KeysMove`: a state has it of a command wherever its key verifies the
signatures, which is what only a free value decides. -/
theorem wit_proves (h : KeyEnt.verifies { keyId := 0, role := 1, tenants := 15 } 3 (tSigned 0x14 (leBytes 8 1)).signed (tSigned 0x14 (leBytes 8 1)).sigs = true) :
    ∃ n, (tSvc 0x14 (leBytes 8 1)).proves (tSigned 0x14 (leBytes 8 1)) (fun k => k.crypto) n := by
  have hc : (tSigned 0x14 (leBytes 8 1)).sigAlg = 3 ∧ (tSigned 0x14 (leBytes 8 1)).keyId = 0 ∧ (tSigned 0x14 (leBytes 8 1)).tenant = 0 ∧
      (tSigned 0x14 (leBytes 8 1)).counter = 1 := by decide +kernel
  have hk : (tSvc 0x14 (leBytes 8 1)).keyEnt? 0 = some { keyId := 0, role := 1, tenants := 15 } := by decide +kernel
  have hn : ((tSvc 0x14 (leBytes 8 1)).takeCounter 0 0 1).isSome = true := by decide +kernel
  obtain ⟨n, hn⟩ := Option.isSome_iff_exists.mp hn
  refine ⟨n, ?_⟩
  unfold State.proves State.authenticate
  rw [hc.1, hc.2.1, hc.2.2.1, hc.2.2.2, hk]
  have hb : bit 15 0 = true := by decide +kernel
  have ha : (tSvc 0x14 (leBytes 8 1)).sec.approved = true := rfl
  have hp : (tSvc 0x14 (leBytes 8 1)).sec.sigPolicy = 0 := by decide +kernel
  simp [h, ha, hn, hb, hp, KeyEnt.crypto, policyTakes]

/-! What the well-formedness check refuses, and what stands at the edge of what it takes. -/

/-- One ill-formed command for each check of `WellFormed`, the first value beyond the check's range. -/
theorem test_wf_refuses : (
  [.recordPortUp 16 0, .recordPortUp 0 2, .eddyFenceRelease 2, .muRemapped 8 0, .avsCurrentRead 10 0, .drainDone 4, .timeWordSend 12,
   .hbmRetrain 12 0, .admissionHeadAdmit 44, .queueFlush 128, .spillWindowFilled 0 74 0, .tileSpareLoaded 0 66, .muRemapped 0 9, .veNop 0 34,
   .fetchReadComplete 0 16 0 true, .abortComplete 0 512, .bwDeadlock 0 32, .correctableError { unit := 0xE000 }, .relCoreReset 8, .dieLinkTrainingComplete 17,
   .getTid 2, .word0ReadLatch 2 0 0, .mgmtWarmReset (2 ^ 32), .sluDbarStalled 8, .barrierRelease 168, .sluiceArrival 8192 0 0 0,
   .qSig 0 65536 1 0 0, .qWait 0 0 (2 ^ 32) 0 0, .qRsig 0 0 1 256 0, .qWaitbt 0 0 0 0 (2 ^ 64)] : List Instr).all (fun i => !i.wf) = true := by decide

/-- The same commands with the last value of each range. -/
theorem test_wf_takes : (
  [.recordPortUp 15 1, .eddyFenceRelease 1, .muRemapped 7 8, .avsCurrentRead 9 0, .drainDone 3, .timeWordSend 11, .hbmRetrain 11 0,
   .admissionHeadAdmit 43, .queueFlush 127, .spillWindowFilled 7 73 0, .tileSpareLoaded 7 65, .veNop 1 33, .fetchReadComplete 1 15 0 true,
   .abortComplete 1 511, .bwDeadlock 1 31, .correctableError { unit := 0xDFFF, once := true }, .relCoreReset 7, .dieLinkTrainingComplete 16, .getTid 1, .word0ReadLatch 1 3 0,
   .mgmtWarmReset (2 ^ 32 - 1), .sluDbarStalled 7, .barrierRelease 167, .sluiceArrival 8191 0 0 0,
   .qSig 0 65535 1 0 0, .qWait 0 0 (2 ^ 32 - 1) 0 0, .qRsig 0 0 1 255 0, .qWaitbt 0 0 0 0 (2 ^ 64 - 1)] : List Instr).all (fun i => i.wf) = true := by decide

/-- The opcode table gives no row a bit, so no word spells a command. -/
theorem test_no_word_decodes (nbits w : Nat) : decodeTableWord nbits w = none := rfl

/-! The manual's worked examples. -/

/-- "Encoding one axis node" (chapter 2): feature 37 against 1,250, missing right, 255 words on. -/
theorem test_axis_word :
    let w : DWord := 0x10250000_04E200FF
    (nKind w, nMiss w, nFeat w, nVal w, nRight w) = (0, 1, 37, 1250, 255) := by decide +kernel
/-- The vector of that example: 38 U16 features with the amount last, and its missing mask. -/
def amountVec (amount mask : Nat) : List Byte := List.replicate 74 0 ++ leBytes 2 amount ++ List.replicate 4 0 ++ leBytes 1 mask
/-- An amount of 1,249 goes left, 1,250 right, and a missing amount right. -/
theorem test_axis_walk : [(1249, 0), (1250, 0), (0, 32)].map (fun x =>
    goesLeft (List.replicate 38 0) [0x10250000_04E200FF] 0 (amountVec x.1 x.2) 0) = [true, false, false] := by decide +kernel
/-- The scalar leaf word of -3,200 (chapter 2). -/
theorem test_leaf_word : (leafVal [] [0x6000FFFF_F3800000] [] false 0).vals = [-3200] := by decide +kernel
/-- "The headline SCORE record" (chapter 3): 256 U16 features take 512 bytes, and 544 with the mask. -/
theorem test_headline_block : (featBytes (List.replicate 256 0), vecBytes (List.replicate 256 0)) = (512, 544) := by decide +kernel

/-- "Extending a received EN" (chapter 4). -/
theorem test_extend_en :
    (extendEN 0x400000000 0x40, extendEN 0x400000000 0xFFFFFFF0) = (0x400000040, 0x3FFFFFFF0) := by decide +kernel
/-- FENCE with the defaults (chapter 4): 1,856 ticks. -/
theorem test_fence_default : State.reset.fence = 1856 := by decide +kernel

/-- "One card key through its home" (chapter 6): home index, partition, bucket and tag of a hash. -/
theorem test_key_placement :
    let h := 0x9C3E51D7_4A20B6F1
    (homeIndex h, partitionOf h, bucketOf h 24, tagOf h) = (46833, 3, 4084183, 0xD61EE726) := by decide +kernel
/-- The same example: spend 412.25 decays over two half-lives to 103.0625, and 125.5 is added. -/
theorem test_decay_add : applyOp 4 4 36 0x007D8000 4937538953472 (leBytes 8 0x19C40000000 ++ leBytes 8 4800000000000) =
    (leBytes 8 0xE490000000 ++ leBytes 8 4937538953472, false) := by decide +kernel
/-- The same example: the merchant goes to element 3 of a full ring, and HEAD becomes 4. -/
theorem test_ring_push : applyOp 5 2 8 0x00041A2B 0 ([3, 8] ++ List.replicate 38 0) =
    ([4, 8] ++ List.replicate 18 0 ++ [0x2B, 0x1A, 0x04, 0] ++ List.replicate 16 0, false) := by decide +kernel

/-- "Encoding MULHU V5, V4, #4398" (chapter 7), and the guard !P2. -/
theorem test_mulhu_word :
    vIns 0x17029010_0000112E = { op := 0x17, d := 5, a := 4, m := 16, imm := 4398 } ∧
    vIns 0x17529010_0000112E = { op := 0x17, pg := 2, pn := 1, d := 5, a := 4, m := 16, imm := 4398 } := by decide +kernel
/-- Table 7.12: F0, F2, F3 and V12 of the lane. -/
theorem test_lane_integers :
    ((opShr 0x007D8000 16).1, (opMulhu 134315384 4398).1, (opDivu 128512 300).1, (opOr (opShl 6 8).1 (opShr 0x80000000 24).1).1) =
      (125, 137, 428, 1664) := by decide +kernel
/-- Table 7.12: AGE as a float, its half-lives, the decay factor, and F5. -/
theorem test_lane_floats :
    let age := cvtIF 1 134315384
    let halves := (fMul age 0xB2800000).1
    let factor := (fExp2 halves).1
    (age, halves, factor, (cvtFI 5 (fMul (cvtIF 1 1664) factor).1).1) = (0x4D0017D8, 0xC00017D8, 0x3E7FBDED, 415) := by decide +kernel
/-- Table 7.13 as a PWL table. -/
def logistic : List Byte := leBytes 8 (6 + 16 * 256) ++ [((-2147483648 : Int), 1179, 0), (-4096, 1179, 212256), (-2048, 7812, 798592),
  (0, 32768, 798592), (2048, 57724, 212256), (4096, 64357, 0)].flatMap (fun x =>
    leBytes 4 (wrapI 32 x.1) ++ leBytes 4 x.2.1 ++ leBytes 4 x.2.2 ++ leBytes 4 0)
/-- "Card finish with a rule override": a readout of 1,850 gives 55,311. -/
theorem test_pwl : opPwl logistic 0 1850 = (55311, 0) := by decide +kernel

/-- "A four-class ranker with softmax inputs" (chapter 10): the maximum, the terms and their sum. -/
theorem test_softmax :
    let xs := [2048, 1024, 0, wrapI 32 (-1024)]
    (fusedMax .int xs, fusedDist .int 2048 1024, expNeg 0x3F800000, fusedSum .int xs) = (2048, 0x3F800000, 0x3EBC5AB2, 0x3FC6C8C3) := by
  decide +kernel
/-- "A small term between two large ones" (chapter 10): the order of arrival decides in Fast mode. -/
theorem test_small_term :
    ((fAdd (fAdd 0x4B800000 0x3F800000).1 0xCB800000).1, (fAdd (fAdd 0x4B800000 0xCB800000).1 0x3F800000).1) = (0, 0x3F800000) := by
  decide +kernel

/-- A token of "Every token chooses the same expert" (chapter 11), by policy, order and ranked experts. -/
def token (pol i : Nat) (es : List Nat) : SetlRec :=
  { key := { seq := i }, policy := { policy := pol, keep := 4, want := 2, spill := 1087 }, ranked := es.map (fun e => { dest := 1024 + e }) }
/-- Its six tokens, settled with its capacities, as experts, grants and slots of tokens T4 and T5. -/
def tokens (pol : Nat) : List (List (Nat × Nat × Nat)) :=
  let cap := fun (d : Nat) => if d = 1031 then 4 else if d = 1027 then 2 else if d = 1036 then 3 else if d = 1087 then capUnlimited else 4
  let o := settleOrdered cap (· % 2) 100000
    [token pol 0 [7, 3, 12, 5], token pol 1 [7, 12, 3, 9], token pol 2 [7, 3, 9, 12], token pol 3 [7, 12, 5, 3], token pol 4 [7, 3, 12, 9],
     token pol 5 [7, 9, 3, 5]]
  (o.recs.drop 4).map (fun x => x.choices.map (fun c => (c.dest - 1024, c.grant, c.slot)))
/-- Table 11.4: STRICT, CASCADE and OVERFLOW. -/
theorem test_grants :
    tokens 1 = [[(7, 1, noSlot), (3, 1, noSlot)], [(7, 1, noSlot), (9, 0, 0)]] ∧
    tokens 2 = [[(7, 2, noSlot), (3, 2, noSlot), (12, 0, 2), (9, 0, 1)], [(7, 2, noSlot), (9, 0, 0), (3, 2, noSlot), (5, 0, 0)]] ∧
    tokens 3 = [[(63, 3, 0), (63, 3, 2)], [(63, 3, 1), (9, 0, 0)]] := by decide +kernel
/-- T4's dispatched weights 0.2 and 0.1, each divided by their sum and rounded once (R314). -/
theorem test_renorm : ((renormChoices (fun _ => true) [{ weight := 0x3E4CCCCD }, { weight := 0x3DCCCCCD }]).1.map Choice.weight) =
    [0x3F2AAAAA, 0x3EAAAAAA] := by decide +kernel

/-! Single commands. -/

/-- The outcome's state, where it is one. -/
def after (o : Out) : State := match o with | .next t => t | _ => {}

/-- A step takes the front command and leaves the rest (log 1). -/
theorem test_step_takes_front : (after (step { pending := [.jtagClamp, .jtagBypass] })).pending = [.jtagBypass] := by decide +kernel
/-- With no command waiting a step is a tick (log 1). -/
theorem test_step_idle_ticks : (after (step {})).time.bt = 1 := by decide +kernel
/-- TOP_ID at reset: grade AX7-A (R576). -/
theorem test_top_id : (State.reset.readWord 1 0 0).toOption.map Prod.fst = some 0x0A771110 := by decide +kernel
/-- Boot step 1 leads to step 2 (R407). -/
theorem test_boot_leads : (after (exec (.bootStepComplete {}) {})).head.step = 2 := by decide +kernel
/-- A count register takes 16 bits (R359). -/
theorem test_sem_write : ((after (exec (.semCountWrite 3071 0x12345) {})).sem 3071).count = 0x2345 := by decide +kernel
/-- A signal adds to its semaphore, and a wait for more than the count waits (R356, R357). -/
theorem test_sem_signal : ((after (exec (.qSig 0 5 7 0 0) (tQue 0))).sem 5).count = 7 := by decide +kernel
theorem test_sem_wait : ((after (exec (.qWait 0 5 7 0 0) (tQue 0))).que 0).wait = .sem := by decide +kernel
/-- A lane whose guard is true adds; the run goes one instruction on (R200, R206). -/
theorem test_ve_add :
    let r : VeRun := { prog := { code := [0x10008430_00000005] }, lanes := [{ v := [(0, false), (7, false)] }] }
    let t := after (exec (.veAdd 0 0) { ve := [{ runs := [(0, r)] }, {}] })
    ((t.veHub 0).runs.find? 0).map (fun q => (q.pc, q.lanes.map (fun l => (l.reg 1).1))) = some (1, [12]) := by decide +kernel
/-- A warm reset begins the boot again (R461). -/
theorem test_warm_reset : (after (exec (.mgmtWarmReset 1) { head := { step := 9 } })).head.step = 1 := by decide +kernel
/-- A trip turns the core supplies off (R489). -/
theorem test_trip : (after (exec (.thermalReading 0) { mgmt := { gauge := [(0, [some 115])] } })).pins.thermTripN = false := by decide +kernel
end

/-! SUPPORT. Every command, every tick and every step keeps what the primitive changes of state keep (`Closed`, `ClosedMem`). -/

namespace Sys2Proof.Machine

section
variable {P : State → Prop} (hP : Closed P)
include hP

/-- The dispatch over all commands: each hands a predicate to its meaning, and only a command of `Instr.movesMemory` needs of the predicate that it
holds on over changed memory bytes and a cold reset. -/
theorem exec_keeps (c : Instr) (hM : c.movesMemory = true → ClosedMem P) (s : State) (hs : P s) : OutP P (exec c s) := by
  cases c with
  | frameReceived port sub f => exact execFrameReceived_keeps hP port sub f s hs
  | losslessFrameParse port sub classB => exact execLosslessFrameParse_keeps hP port sub classB s hs
  | pfcFrameReceived port sub enable quanta => exact execPfcFrameReceived_keeps hP port sub enable quanta s hs
  | controlProtocolFrame port sub c => exact execControlProtocolFrame_keeps hP port sub c s hs
  | ptpMessage port m => exact execPtpMessage_keeps hP port m s hs
  | recordPortUp port sub => exact execRecordPortUp_keeps hP port sub s hs
  | recordPortDown port sub => exact execRecordPortDown_keeps hP port sub s hs
  | macsecKeyChange port sub => exact execMacsecKeyChange_keeps hP port sub s hs
  | sessionIdleExpiry hub key => exact execSessionIdleExpiry_keeps hP hub key s hs
  | replyCoalesceExpiry port sub dest => exact execReplyCoalesceExpiry_keeps hP port sub dest s hs
  | lockstepReleaseTick => exact execLockstepReleaseTick_keeps hP s hs
  | epochStart => exact execEpochStart_keeps hP s hs
  | epochNoLongerLive epoch => exact execEpochNoLongerLive_keeps hP epoch s hs
  | timeWordSend port => exact execTimeWordSend_keeps hP port s hs
  | timeWordReceived port w => exact execTimeWordReceived_keeps hP port w s hs
  | holdoverEntry => exact execHoldoverEntry_keeps hP s hs
  | holdoverExpiry => exact execHoldoverExpiry_keeps hP s hs
  | rootSwitch => exact execRootSwitch_keeps hP s hs
  | rootBtStart => exact execRootBtStart_keeps hP s hs
  | admissionHeadAdmit queue => exact execAdmissionHeadAdmit_keeps hP queue s hs
  | admissionDeadlineExpiry queue => exact execAdmissionDeadlineExpiry_keeps hP queue s hs
  | streamElementIssue hub stream pick => exact execStreamElementIssue_keeps hP hub stream pick s hs
  | fetchReadComplete hub engine addr ok => exact execFetchReadComplete_keeps hP hub engine addr ok s hs
  | streamCountEnd hub stream => exact execStreamCountEnd_keeps hP hub stream s hs
  | fetchRearm hub stream base count => exact execFetchRearm_keeps hP hub stream base count s hs
  | stageBufferIssue hub rec => exact execStageBufferIssue_keeps hP hub rec s hs
  | abortComplete hub stream => exact execAbortComplete_keeps hP hub stream s hs
  | drainDone tenant => exact execDrainDone_keeps hP tenant s hs
  | drainTimeout tenant => exact execDrainTimeout_keeps hP tenant s hs
  | bwDeadlock hub group => exact execBwDeadlock_keeps hP hub group s hs
  | eddyReq port q => exact execEddyReq_keeps hP port q s hs
  | eddyFenceRelease hub => exact execEddyFenceRelease_keeps hP hub s hs
  | eddySnap port b => exact execEddySnap_keeps hP port b s hs
  | snapshotWaitExpiry hub ent => exact execSnapshotWaitExpiry_keeps hP hub ent s hs
  | exportStore => exact execExportStore_keeps hP s hs
  | eddyExportDone tenant => exact execEddyExportDone_keeps hP tenant s hs
  | importBegin => exact execImportBegin_keeps hP s hs
  | importChunk => exact execImportChunk_keeps hP s hs
  | veBatchWaitExpiry hub batch => exact execVeBatchWaitExpiry_keeps hP hub batch s hs
  | veBatchLaunch hub engine batch => exact execVeBatchLaunch_keeps hP hub engine batch s hs
  | veBatchComplete hub engine => exact execVeBatchComplete_keeps hP hub engine s hs
  | veSpareIn hub engine => exact execVeSpareIn_keeps hP hub engine s hs
  | veNop hub engine => exact execVeNop_keeps hP hub engine s hs
  | veLoop hub engine => exact execVeLoop_keeps hP hub engine s hs
  | veEndl hub engine => exact execVeEndl_keeps hP hub engine s hs
  | veAdd hub engine => exact execVeAdd_keeps hP hub engine s hs
  | veSub hub engine => exact execVeSub_keeps hP hub engine s hs
  | veAdds hub engine => exact execVeAdds_keeps hP hub engine s hs
  | veSubs hub engine => exact execVeSubs_keeps hP hub engine s hs
  | veAddus hub engine => exact execVeAddus_keeps hP hub engine s hs
  | veSubus hub engine => exact execVeSubus_keeps hP hub engine s hs
  | veMul hub engine => exact execVeMul_keeps hP hub engine s hs
  | veMulhu hub engine => exact execVeMulhu_keeps hP hub engine s hs
  | veMulhs hub engine => exact execVeMulhs_keeps hP hub engine s hs
  | veMins hub engine => exact execVeMins_keeps hP hub engine s hs
  | veMaxs hub engine => exact execVeMaxs_keeps hP hub engine s hs
  | veMinu hub engine => exact execVeMinu_keeps hP hub engine s hs
  | veMaxu hub engine => exact execVeMaxu_keeps hP hub engine s hs
  | veAbs hub engine => exact execVeAbs_keeps hP hub engine s hs
  | veDivu hub engine => exact execVeDivu_keeps hP hub engine s hs
  | veDivs hub engine => exact execVeDivs_keeps hP hub engine s hs
  | veAnd hub engine => exact execVeAnd_keeps hP hub engine s hs
  | veOr hub engine => exact execVeOr_keeps hP hub engine s hs
  | veXor hub engine => exact execVeXor_keeps hP hub engine s hs
  | veAndn hub engine => exact execVeAndn_keeps hP hub engine s hs
  | veShl hub engine => exact execVeShl_keeps hP hub engine s hs
  | veShr hub engine => exact execVeShr_keeps hP hub engine s hs
  | veSar hub engine => exact execVeSar_keeps hP hub engine s hs
  | veBfx hub engine => exact execVeBfx_keeps hP hub engine s hs
  | veBfi hub engine => exact execVeBfi_keeps hP hub engine s hs
  | vePopc hub engine => exact execVePopc_keeps hP hub engine s hs
  | veClz hub engine => exact execVeClz_keeps hP hub engine s hs
  | veMovi hub engine => exact execVeMovi_keeps hP hub engine s hs
  | veMov hub engine => exact execVeMov_keeps hP hub engine s hs
  | veClrm hub engine => exact execVeClrm_keeps hP hub engine s hs
  | veSetm hub engine => exact execVeSetm_keeps hP hub engine s hs
  | veSel hub engine => exact execVeSel_keeps hP hub engine s hs
  | veFadd hub engine => exact execVeFadd_keeps hP hub engine s hs
  | veFsub hub engine => exact execVeFsub_keeps hP hub engine s hs
  | veFmul hub engine => exact execVeFmul_keeps hP hub engine s hs
  | veFmin hub engine => exact execVeFmin_keeps hP hub engine s hs
  | veFmax hub engine => exact execVeFmax_keeps hP hub engine s hs
  | veFabs hub engine => exact execVeFabs_keeps hP hub engine s hs
  | veFneg hub engine => exact execVeFneg_keeps hP hub engine s hs
  | veFdiv hub engine => exact execVeFdiv_keeps hP hub engine s hs
  | veFsqrt hub engine => exact execVeFsqrt_keeps hP hub engine s hs
  | veFrcp hub engine => exact execVeFrcp_keeps hP hub engine s hs
  | veFexp2 hub engine => exact execVeFexp2_keeps hP hub engine s hs
  | veFlog2 hub engine => exact execVeFlog2_keeps hP hub engine s hs
  | veCvtif hub engine => exact execVeCvtif_keeps hP hub engine s hs
  | veCvtfi hub engine => exact execVeCvtfi_keeps hP hub engine s hs
  | veCmp hub engine => exact execVeCmp_keeps hP hub engine s hs
  | vePlog hub engine => exact execVePlog_keeps hP hub engine s hs
  | vePwl hub engine => exact execVePwl_keeps hP hub engine s hs
  | veBkt hub engine => exact execVeBkt_keeps hP hub engine s hs
  | veLd hub engine => exact execVeLd_keeps hP hub engine s hs
  | veStf hub engine => exact execVeStf_keeps hP hub engine s hs
  | veStf2 hub engine => exact execVeStf2_keeps hP hub engine s hs
  | veMissf hub engine => exact execVeMissf_keeps hP hub engine s hs
  | veStc hub engine => exact execVeStc_keeps hP hub engine s hs
  | veStr hub engine => exact execVeStr_keeps hP hub engine s hs
  | veRdf hub engine => exact execVeRdf_keeps hP hub engine s hs
  | eval die unit hub ent opt order upsets => exact execEval_keeps hP die unit hub ent opt order upsets s hs
  | evalComplete die unit hub ent opt => exact execEvalComplete_keeps hP die unit hub ent opt s hs
  | preload die hub ent opt => exact execPreload_keeps hP die hub ent opt s hs
  | drain die unit hub ent opt => exact execDrain_keeps hP die unit hub ent opt s hs
  | clear die unit hub ent opt => exact execClear_keeps hP die unit hub ent opt s hs
  | poolUnitTake die tile owner hub ent opt first count => exact execPoolUnitTake_keeps hP die tile owner hub ent opt first count s hs
  | spillWindowFilled die unit idx => exact execSpillWindowFilled_keeps hP die unit idx s hs
  | diePartialReturn die hub => exact execDiePartialReturn_keeps hP die hub s hs
  | ruleSearch hub ent slot upsets => exact execRuleSearch_keeps hP hub ent slot upsets s hs
  | muScrubCompare die unit upset => exact execMuScrubCompare_keeps hP die unit upset s hs
  | tileSpareLoaded die tile => exact execTileSpareLoaded_keeps hP die tile s hs
  | tileSlotRemapped die tile => exact execTileSlotRemapped_keeps hP die tile s hs
  | muSpareLoaded die unit => exact execMuSpareLoaded_keeps hP die unit s hs
  | muRemapped die unit => exact execMuRemapped_keeps hP die unit s hs
  | ruleEdit => exact execRuleEdit_keeps hP s hs
  | ruleEditSettle tenant table => exact execRuleEditSettle_keeps hP tenant table s hs
  | settlementOpen tenant epoch => exact execSettlementOpen_keeps hP tenant epoch s hs
  | orderedProcedureEnd tenant epoch => exact execOrderedProcedureEnd_keeps hP tenant epoch s hs
  | lateRecordSettle tenant epoch => exact execLateRecordSettle_keeps hP tenant epoch s hs
  | lateCmdlistPart tenant dest => exact execLateCmdlistPart_keeps hP tenant dest s hs
  | settlementClose tenant epoch => exact execSettlementClose_keeps hP tenant epoch s hs
  | capCommit => exact execCapCommit_keeps hP s hs
  | captureGapEntry tenant => exact execCaptureGapEntry_keeps hP tenant s hs
  | captureRead => exact execCaptureRead_keeps hP s hs
  | replayStart => exact execReplayStart_keeps hP s hs
  | replayHeadRelease queue => exact execReplayHeadRelease_keeps hP queue s hs
  | replayEnd => exact execReplayEnd_keeps hP s hs
  | replayDone tenant => exact execReplayDone_keeps hP tenant s hs
  | qSig q id amount flags arg => exact execQSig_keeps hP q id amount flags arg s hs
  | qWait q id amount flags arg => exact execQWait_keeps hP q id amount flags arg s hs
  | waitGrant sem => exact execWaitGrant_keeps hP sem s hs
  | qDec q id amount flags arg => exact execQDec_keeps hP q id amount flags arg s hs
  | qSset q id amount flags arg => exact execQSset_keeps hP q id amount flags arg s hs
  | qBar q id amount flags arg => exact execQBar_keeps hP q id amount flags arg s hs
  | qBarnw q id amount flags arg => exact execQBarnw_keeps hP q id amount flags arg s hs
  | barrierRelease bar => exact execBarrierRelease_keeps hP bar s hs
  | barrierFullRelease bar => exact execBarrierFullRelease_keeps hP bar s hs
  | qWaitbt q id amount flags arg => exact execQWaitbt_keeps hP q id amount flags arg s hs
  | waitbtReached q => exact execWaitbtReached_keeps hP q s hs
  | qRearm q id amount flags arg => exact execQRearm_keeps hP q id amount flags arg s hs
  | qRsig q id amount flags arg => exact execQRsig_keeps hP q id amount flags arg s hs
  | sluiceSignal port dev flags id value => exact execSluiceSignal_keeps hP port dev flags id value s hs
  | sluiceArrival dev bar gen a => exact execSluiceArrival_keeps hP dev bar gen a s hs
  | domainBarrierRelease k => exact execDomainBarrierRelease_keeps hP k s hs
  | sluDbarStalled k => exact execSluDbarStalled_keeps hP k s hs
  | semCountWrite sem value => exact execSemCountWrite_keeps hP sem value s hs
  | barrierMaskWrite bar word value => exact execBarrierMaskWrite_keeps hP bar word value s hs
  | dbarcfgWrite k value => exact execDbarcfgWrite_keeps hP k value s hs
  | queueHold q on => exact execQueueHold_keeps hP q on s hs
  | queueResume q => exact execQueueResume_keeps hP q s hs
  | queueFlush q => exact execQueueFlush_keeps hP q s hs
  | braidBringupStepDone port => exact execBraidBringupStepDone_keeps hP port s hs
  | braidBringupTimeout port => exact execBraidBringupTimeout_keeps hP port s hs
  | identityWord port w => exact execIdentityWord_keeps hP port w s hs
  | flitReplay e => exact execFlitReplay_keeps hP e s hs
  | braidPortDown port cause => exact execBraidPortDown_keeps hP port cause s hs
  | braidRecord port m ago => exact execBraidRecord_keeps hP port m ago s hs
  | braidReply port m => exact execBraidReply_keeps hP port m s hs
  | mcast port m => exact execMcast_keeps hP port m s hs
  | mcastCredit port m => exact execMcastCredit_keeps hP port m s hs
  | mcastChunkSend xfer => exact execMcastChunkSend_keeps hP xfer s hs
  | mcastPrune xfer hop => exact execMcastPrune_keeps hP xfer hop s hs
  | mcastOutOfSet xfer => exact execMcastOutOfSet_keeps hP xfer s hs
  | repairReq port m => exact execRepairReq_keeps hP port m s hs
  | mcastRepairSend xfer => exact execMcastRepairSend_keeps hP xfer s hs
  | mcastRetentionExpiry xfer => exact execMcastRetentionExpiry_keeps hP xfer s hs
  | cmdlist port m => exact execCmdlist_keeps hP port m s hs
  | attEgressTimeout port => exact execAttEgressTimeout_keeps hP port s hs
  | bootStepComplete b => exact execBootStepComplete_keeps hP (hM rfl) b s hs
  | controlSegment => exact execControlSegment_keeps hP s hs
  | segmentTimeout tenant port tag => exact execSegmentTimeout_keeps hP tenant port tag s hs
  | readReg => exact execReadReg_keeps hP s hs
  | writeReg => exact execWriteReg_keeps hP (hM rfl) s hs
  | swap => exact execSwap_keeps hP s hs
  | drainSwap => exact execDrainSwap_keeps hP s hs
  | freeze => exact execFreeze_keeps hP s hs
  | resume => exact execResume_keeps hP s hs
  | discardShadow => exact execDiscardShadow_keeps hP s hs
  | modelChunk => exact execModelChunk_keeps hP s hs
  | bundleIdleExpiry tenant => exact execBundleIdleExpiry_keeps hP tenant s hs
  | bundleCheckComplete tenant => exact execBundleCheckComplete_keeps hP tenant s hs
  | loadPlacementComplete tenant => exact execLoadPlacementComplete_keeps hP tenant s hs
  | oldHalfRelease tenant => exact execOldHalfRelease_keeps hP tenant s hs
  | drainSwapPlacementComplete tenant => exact execDrainSwapPlacementComplete_keeps hP tenant s hs
  | sectorRead reader hub addr who badOwn badOther => exact execSectorRead_keeps hP (hM rfl) reader hub addr who badOwn badOther s hs
  | sectorWrite writer hub addr who data => exact execSectorWrite_keeps hP (hM rfl) writer hub addr who data s hs
  | hbmErrorPoll stack rows => exact execHbmErrorPoll_keeps hP (hM rfl) stack rows s hs
  | hbmRetrain stack pc => exact execHbmRetrain_keeps hP stack pc s hs
  | rowRepair stack row spare => exact execRowRepair_keeps hP stack row spare s hs
  | sweepPageDone stack page => exact execSweepPageDone_keeps hP stack page s hs
  | memEraseDone => exact execMemEraseDone_keeps hP (hM rfl) s hs
  | memScrubDone tenant => exact execMemScrubDone_keeps hP (hM rfl) tenant s hs
  | showStatus binding => exact execShowStatus_keeps hP binding s hs
  | selfTest binding failed => exact execSelfTest_keeps hP binding failed s hs
  | kemPublic binding => exact execKemPublic_keeps hP binding s hs
  | setOwner binding => exact execSetOwner_keeps hP binding s hs
  | enrolKey binding => exact execEnrolKey_keeps hP binding s hs
  | revokeKey binding => exact execRevokeKey_keeps hP binding s hs
  | raiseMinVersion binding => exact execRaiseMinVersion_keeps hP binding s hs
  | setSigPolicy binding => exact execSetSigPolicy_keeps hP binding s hs
  | setTenancy binding => exact execSetTenancy_keeps hP binding s hs
  | loadMacsecCak binding => exact execLoadMacsecCak_keeps hP binding s hs
  | loadExportKey binding => exact execLoadExportKey_keeps hP binding s hs
  | deleteExportKey binding => exact execDeleteExportKey_keeps hP binding s hs
  | rotateMemKey binding => exact execRotateMemKey_keeps hP binding s hs
  | releaseTenant binding => exact execReleaseTenant_keeps hP binding s hs
  | zeroise binding => exact execZeroise_keeps hP (hM rfl) binding s hs
  | getVersion binding => exact execGetVersion_keeps hP binding s hs
  | getCapabilities binding => exact execGetCapabilities_keeps hP binding s hs
  | negotiateAlgorithms binding => exact execNegotiateAlgorithms_keeps hP binding s hs
  | getDigests binding => exact execGetDigests_keeps hP binding s hs
  | getCertificate binding => exact execGetCertificate_keeps hP binding s hs
  | challenge binding => exact execChallenge_keeps hP binding s hs
  | getMeasurements binding => exact execGetMeasurements_keeps hP binding s hs
  | correctableError e => exact execCorrectableError_keeps hP e s hs
  | uncorrectableError unit detail => exact execUncorrectableError_keeps hP unit detail s hs
  | relUnitReset unit pass => exact execRelUnitReset_keeps hP unit pass s hs
  | unitRetire unit => exact execUnitRetire_keeps hP unit s hs
  | unitReinstate unit pass => exact execUnitReinstate_keeps hP unit pass s hs
  | unitReset unit => exact execUnitReset_keeps hP unit s hs
  | relCoreReset core => exact execRelCoreReset_keeps hP core s hs
  | watchdogExpiry => exact execWatchdogExpiry_keeps hP s hs
  | avsCurrentRead domain cur => exact execAvsCurrentRead_keeps hP domain cur s hs
  | adaptiveVoltageStep domain margin => exact execAdaptiveVoltageStep_keeps hP domain margin s hs
  | setpointReached domain reported => exact execSetpointReached_keeps hP domain reported s hs
  | vwarnCrossing domain mv => exact execVwarnCrossing_keeps hP domain mv s hs
  | stretchRelease domain mv above margin ok => exact execStretchRelease_keeps hP domain mv above margin ok s hs
  | vrstCrossing domain mv => exact execVrstCrossing_keeps hP domain mv s hs
  | pwrRegFault domain cause => exact execPwrRegFault_keeps hP domain cause s hs
  | refInputLost red => exact execRefInputLost_keeps hP red s hs
  | refRevert good => exact execRefRevert_keeps hP good s hs
  | refHoldExpiry => exact execRefHoldExpiry_keeps hP s hs
  | adaptiveClockStep die limit => exact execAdaptiveClockStep_keeps hP die limit s hs
  | timingEmergency domain margin => exact execTimingEmergency_keeps hP domain margin s hs
  | thermalReading die => exact execThermalReading_keeps hP (hM rfl) die s hs
  | tripRestore temps stacks_ => exact execTripRestore_keeps hP temps stacks_ s hs
  | capPeriodEnd core share cur => exact execCapPeriodEnd_keeps hP core share cur s hs
  | gaugeSample die temps => exact execGaugeSample_keeps hP die temps s hs
  | mctpPacket binding pkt => exact execMctpPacket_keeps hP binding pkt s hs
  | setEndpointId binding => exact execSetEndpointId_keeps hP binding s hs
  | getEndpointId binding => exact execGetEndpointId_keeps hP binding s hs
  | getEndpointUuid binding => exact execGetEndpointUuid_keeps hP binding s hs
  | getMctpVersionSupport binding => exact execGetMctpVersionSupport_keeps hP binding s hs
  | getMessageTypeSupport binding => exact execGetMessageTypeSupport_keeps hP binding s hs
  | getVendorDefinedMessageSupport binding => exact execGetVendorDefinedMessageSupport_keeps hP binding s hs
  | getTid binding => exact execGetTid_keeps hP binding s hs
  | getPldmVersion binding => exact execGetPldmVersion_keeps hP binding s hs
  | getPldmTypes binding => exact execGetPldmTypes_keeps hP binding s hs
  | getPldmCommands binding => exact execGetPldmCommands_keeps hP binding s hs
  | getSensorReading binding => exact execGetSensorReading_keeps hP binding s hs
  | getStateSensorReadings binding => exact execGetStateSensorReadings_keeps hP binding s hs
  | getPdrRepositoryInfo binding => exact execGetPdrRepositoryInfo_keeps hP binding s hs
  | getPdr binding => exact execGetPdr_keeps hP binding s hs
  | setEventReceiver binding => exact execSetEventReceiver_keeps hP binding s hs
  | queryDeviceIdentifiers binding => exact execQueryDeviceIdentifiers_keeps hP binding s hs
  | getFirmwareParameters binding => exact execGetFirmwareParameters_keeps hP binding s hs
  | requestUpdate binding => exact execRequestUpdate_keeps hP binding s hs
  | passComponentTable binding => exact execPassComponentTable_keeps hP binding s hs
  | updateComponent binding => exact execUpdateComponent_keeps hP binding s hs
  | requestFirmwareData binding data => exact execRequestFirmwareData_keeps hP binding data s hs
  | transferComplete binding => exact execTransferComplete_keeps hP binding s hs
  | verifyComplete binding => exact execVerifyComplete_keeps hP binding s hs
  | applyComplete binding => exact execApplyComplete_keeps hP binding s hs
  | activateFirmware binding => exact execActivateFirmware_keeps hP binding s hs
  | getStatus binding => exact execGetStatus_keeps hP binding s hs
  | cancelUpdate binding => exact execCancelUpdate_keeps hP binding s hs
  | mgmtWarmReset value => exact execMgmtWarmReset_keeps hP (hM rfl) value s hs
  | mgmtColdReset value => exact execMgmtColdReset_keeps hP (hM rfl) value s hs
  | registerWrite path tenant addr mask value => exact execRegisterWrite_keeps hP (hM rfl) path tenant addr mask value s hs
  | word0ReadLatch path tenant addr => exact execWord0ReadLatch_keeps hP path tenant addr s hs
  | coldRstNAssert => exact execColdRstNAssert_keeps hP (hM rfl) s hs
  | coldRstNDeassert => exact execColdRstNDeassert_keeps hP s hs
  | warmRstNAssert => exact execWarmRstNAssert_keeps hP s hs
  | warmRstNDeassert => exact execWarmRstNDeassert_keeps hP s hs
  | auxPgFall => exact execAuxPgFall_keeps hP (hM rfl) s hs
  | auxPgRise => exact execAuxPgRise_keeps hP s hs
  | trstNAssert => exact execTrstNAssert_keeps hP s hs
  | jtagBypass => exact execJtagBypass_keeps hP s hs
  | jtagSamplePreload => exact execJtagSamplePreload_keeps hP s hs
  | jtagExtest => exact execJtagExtest_keeps hP s hs
  | jtagExtestPulse => exact execJtagExtestPulse_keeps hP s hs
  | jtagExtestTrain => exact execJtagExtestTrain_keeps hP s hs
  | jtagClamp => exact execJtagClamp_keeps hP s hs
  | jtagHighz => exact execJtagHighz_keeps hP s hs
  | powerUp straps flash => exact execPowerUp_keeps hP (hM rfl) straps flash s hs
  | trstNDeassert => exact execTrstNDeassert_keeps hP s hs
  | dynamicAddressAssignment addr => exact execDynamicAddressAssignment_keeps hP addr s hs
  | sgmiiLinkChange up => exact execSgmiiLinkChange_keeps hP up s hs
  | stackTemperatureReport stack temp => exact execStackTemperatureReport_keeps hP (hM rfl) stack temp s hs
  | hbmRefresh stack perBank rfm => exact execHbmRefresh_keeps hP stack perBank rfm s hs
  | dieLinkTrainingComplete link => exact execDieLinkTrainingComplete_keeps hP link s hs
  | mkaFrame port sub m => exact execMkaFrame_keeps hP port sub m s hs
  | lldpTransmit port sub => exact execLldpTransmit_keeps hP port sub s hs
  | ptpLockLoss => exact execPtpLockLoss_keeps hP s hs
  | supplyRangeTimeout domain => exact execSupplyRangeTimeout_keeps hP domain s hs
  | replyLeftPort port sub events startedAgo => exact execReplyLeftPort_keeps hP port sub events startedAgo s hs

/-- A step is a command on the queue's rest or a tick (log 1), so a predicate that says nothing of the queue holds on over it. -/
theorem step_keeps (hM : ClosedMem P) (hq : ∀ (x : State) q, P x → P { x with pending := q }) (s : State) (hs : P s) : OutP P (step s) := by
  unfold step
  split
  · exact out_next (tickOne_keeps hP s hs)
  · exact exec_keeps hP _ (fun _ => hM) _ (hq s _ hs)

end

/-! ### The frame of every command: the queue, the fuses and the free values -/

theorem State.Outside.refl (s : State) : s.Outside s := ⟨rfl, rfl, Nat.le_refl _⟩

/-- `Outside` reads nothing of the state it ends in but the queue, the fuses and the free values. -/
theorem State.Outside.of_eq {s x n : State} (h : s.Outside x) (hq : n.pending = x.pending) (hf : n.fuse = x.fuse) (hn : n.free = x.free) :
    s.Outside n := by
  obtain ⟨hxq, hxf, hxn⟩ := h
  exact ⟨hq.trans hxq, hf.trans hxf, hn ▸ hxn⟩

/-- Reading a free value only raises their number; a warm reset carries all three parts over (logs 1, 4 and 7). -/
theorem outside_closed (s : State) : Closed s.Outside where
  upd _ _ _ _ _ _ _ _ _ _ _ _ _ _ _ _ _ _ _ h _ := h.of_eq rfl rfl rfl
  wr _ _ _ _ _ h := h.of_eq rfl rfl rfl
  count _ _ _ _ h := h.of_eq rfl rfl rfl
  cnts _ _ _ h := h.of_eq rfl rfl rfl
  fresh _ _ h := by
    obtain ⟨hq, hf, hn⟩ := h
    exact ⟨hq, hf, Nat.le_add_right_of_le hn⟩
  warm x a b h :=
    warmReset_of (fun _ _ h => h.of_eq rfl rfl rfl) (fun _ _ _ _ _ h => h.of_eq rfl rfl rfl) (fun _ _ _ h => h.of_eq rfl rfl rfl) x a b
      fun _ hq hf hn _ _ _ => h.of_eq hq hf hn

/-- Neither the bytes of memory nor a cold reset touches the three parts (logs 1, 4 and 7). -/
theorem outside_closedMem (s : State) : ClosedMem s.Outside where
  data _ _ h _ := h.of_eq rfl rfl rfl
  cold x a b h :=
    coldReset_of (fun _ _ h => h.of_eq rfl rfl rfl) (fun _ _ _ _ _ h => h.of_eq rfl rfl rfl) (fun _ _ _ h => h.of_eq rfl rfl rfl) x a b
      fun _ hq hf hn _ _ _ => h.of_eq hq hf hn

/-! ### The invariant: canonical stores and a legal grade -/

/-- The invariant reads nothing but the grade and the three stores: a state with the grade of a good one and canonical stores is good. -/
theorem State.Inv.of_stores {x n : State} (h : x.Inv) (hf : n.fuse = x.fuse) (hr : SMap.wfD regDefault n.regs = true)
    (hc : SMap.wfD (fun _ => 0) n.cnts = true) (hm : Memory.wf n.mem.data = true) : n.Inv := by
  obtain ⟨-, hg⟩ := h
  refine ⟨⟨hr, hc, hm⟩, ?_⟩
  unfold State.gradeLegal
  rwa [hf]

theorem State.Inv.regs_wfD {x : State} (h : x.Inv) : SMap.wfD regDefault x.regs = true := by obtain ⟨⟨hr, -, -⟩, -⟩ := h; exact hr
theorem State.Inv.cnts_wfD {x : State} (h : x.Inv) : SMap.wfD (fun _ => 0) x.cnts = true := by obtain ⟨⟨-, hc, -⟩, -⟩ := h; exact hc
theorem State.Inv.data_wf {x : State} (h : x.Inv) : Memory.wf x.mem.data = true := by obtain ⟨⟨-, -, hm⟩, -⟩ := h; exact hm

/-- Parts outside the stores and the fuses do not matter. -/
theorem State.Inv.of_eq {x n : State} (h : x.Inv) (hf : n.fuse = x.fuse) (hr : n.regs = x.regs) (hc : n.cnts = x.cnts)
    (hm : n.mem.data = x.mem.data) : n.Inv :=
  h.of_stores hf (hr ▸ h.regs_wfD) (hc ▸ h.cnts_wfD) (hm ▸ h.data_wf)

theorem State.Inv.wr {x : State} (h : x.Inv) (n : RegName) (c w v : Nat) : (x.wr n c w v).Inv :=
  h.of_stores rfl (SMap.setD_wfD _ _ _ _ h.regs_wfD) h.cnts_wfD h.data_wf

theorem State.Inv.setCnt {x : State} (h : x.Inv) (k v : Nat) : State.Inv { x with cnts := SMap.setD (fun _ => 0) x.cnts k v } :=
  h.of_stores rfl h.regs_wfD (SMap.setD_wfD _ _ _ _ h.cnts_wfD) h.data_wf

/-- Writing keeps the stores canonical, and a warm reset keeps some of the counters and all of memory (R493). -/
theorem inv_closed : Closed State.Inv where
  upd _ _ _ _ _ _ _ _ _ _ _ _ _ _ _ _ _ _ _ h hm := h.of_eq rfl rfl rfl hm
  wr _ _ _ _ _ h := h.wr ..
  count _ _ _ _ h := h.setCnt ..
  cnts _ _ _ h := h.setCnt ..
  fresh _ _ h := h.of_eq rfl rfl rfl rfl
  warm x a b h :=
    warmReset_of (fun _ _ h => h.of_eq rfl rfl rfl rfl) (fun _ _ _ _ _ h => h.wr ..) (fun _ _ _ h => h.of_eq rfl rfl rfl rfl) x a b
      fun _ _ hf _ hr hc hm => h.of_stores hf (hr ▸ SMap.nil_wfD _) (hc ▸ SMap.keep_wfD _ _ _ h.cnts_wfD) (hm ▸ h.data_wf)

/-- A canonical change of memory is one by hypothesis, and a cold reset empties the three stores (R493). -/
theorem inv_closedMem : ClosedMem State.Inv where
  data _ _ h hm := h.of_stores rfl h.regs_wfD h.cnts_wfD (hm h.data_wf)
  cold x a b h :=
    coldReset_of (fun _ _ h => h.of_eq rfl rfl rfl rfl) (fun _ _ _ _ _ h => h.wr ..) (fun _ _ _ h => h.of_eq rfl rfl rfl rfl) x a b
      fun _ _ hf _ hr hc hm => h.of_stores hf (hr ▸ SMap.nil_wfD _) (hc ▸ SMap.nil_wfD _) (hm ▸ SMap.nil_wfD _)

end Sys2Proof.Machine

/-! ### The statements of the scope -/

section
open Sys2Proof Sys2Proof.Machine

/-- Settles O3: `Outside` from the state before holds of that state, and every command keeps it. -/
theorem commandsKeepOutside : Obligations.CommandsKeepOutside :=
  fun c s t h => (exec_keeps (outside_closed s) c (fun _ => outside_closedMem s) s (.refl s)).out t h

/-- Settles O4: the queue is no part of the invariant, and every command and tick keeps it. -/
theorem stepKeepsInv : Obligations.StepKeepsInv :=
  fun s t hs h => (step_keeps inv_closed inv_closedMem (fun _ _ h => h.of_eq rfl rfl rfl rfl) s hs).out t h

/-- Settles O5: every store is empty at reset, and the grade is AX7-A (log 4). -/
theorem resetInv : Obligations.ResetInv :=
  ⟨⟨SMap.nil_wfD _, SMap.nil_wfD _, SMap.nil_wfD _⟩, .inl rfl⟩

end

/-! SUPPORT. A vector is read through `readFeat` alone: nodes, leaves, trees and search keys depend on nothing else of it (R36). -/

namespace Sys2Proof.Machine

/-! ### What a feature reads as -/

section
variable {ft : FTable} {vec : List Byte} {f : Nat}

/-- R36: a set mask bit hides the value. -/
theorem readFeat_masked (hm : bit (leAt vec (featBytes ft + f / 8) 1) (f % 8) = true) : readFeat ft vec f = none :=
  if_pos hm

/-- R35: an F32 NaN is missing, whatever its mask bit. -/
theorem readFeat_nan (hd : featDomain (nth ft f 0) = 4) (hn : fNan (leAt vec (featOffset ft f) (featWidth (nth ft f 0))) = true) :
    readFeat ft vec f = none := by
  simp only [readFeat, hd, hn, if_true, ite_self]

end

section
variable {ft : FTable} {v w : List Byte}

/-- The mask bit and the value are all that decides how a feature reads. -/
theorem readFeat_congr {f : Nat} (hm : bit (leAt v (featBytes ft + f / 8) 1) (f % 8) = bit (leAt w (featBytes ft + f / 8) 1) (f % 8))
    (hv : leAt v (featOffset ft f) (featWidth (nth ft f 0)) = leAt w (featOffset ft f) (featWidth (nth ft f 0))) :
    readFeat ft v f = readFeat ft w f := by
  simp only [readFeat, hm, hv]

/-! ### Nodes, leaves and key fields read the vector through `readFeat` -/

variable (h : readFeat ft v = readFeat ft w)
include h

theorem goesLeft_congr (img : List DWord) (catBase a : Nat) : goesLeft ft img catBase v a = goesLeft ft img catBase w a := by
  simp only [goesLeft, h]

theorem linearInt_congr (img : List DWord) (a k : Nat) : linearInt ft img v a k = linearInt ft img w a k := by
  simp only [linearInt, h]

theorem linearF32_congr (img : List DWord) (a k : Nat) : linearF32 ft img v a k = linearF32 ft img w a k := by
  simp only [linearF32, h]

theorem fieldBits_congr (img : MuImage) (k : KeyField) : fieldBits img ft v k = fieldBits img ft w k := by
  simp only [fieldBits, h]

/-! ### Trees and search keys -/

/-- Only the linear leaves read the vector. -/
theorem leafVal_congr (img : List DWord) (f32 : Bool) (a : Nat) : leafVal ft img v f32 a = leafVal ft img w f32 a := by
  simp only [leafVal, linearInt_congr h, linearF32_congr h]

theorem walkTree_congr (img : List DWord) (leaf : Nat → Bool) (catBase : Nat) (f32 : Bool) (fuel a cyc : Nat) :
    walkTree ft img leaf catBase v f32 fuel a cyc = walkTree ft img leaf catBase w f32 fuel a cyc := by
  induction fuel generalizing a cyc with
  | zero => rfl
  | succ fuel ih => simp only [walkTree, goesLeft_congr h, leafVal_congr h, ih]

theorem evalRoot_congr (img : List DWord) (leaf : Nat → Bool) (catBase : Nat) (f32 : Bool) (root : Nat) :
    evalRoot ft img leaf catBase v f32 root = evalRoot ft img leaf catBase w f32 root := by
  simp only [evalRoot, leafVal_congr h, walkTree_congr h]

theorem evalEntry_congr (img : List DWord) (leaves : List Nat) (spill : List DWord) (f32 : Bool) (e : DirEntry) :
    evalEntry ft img leaves spill v f32 e = evalEntry ft img leaves spill w f32 e := by
  simp only [evalEntry, evalRoot_congr h]

theorem searchKey_congr (img : MuImage) (sel : Nat) : searchKey img ft v sel = searchKey img ft w sel := by
  simp only [searchKey, fieldBits_congr h]

end

end Sys2Proof.Machine

section
open Sys2Proof Sys2Proof.Machine

/-- Settles O56: a feature reads the same from both vectors, being masked in both, of equal value in both, or an F32 NaN in both; and
trees and search keys read features only so. -/
theorem missingUnread : Obligations.MissingUnread := by
  unfold Obligations.MissingUnread
  intro ft v w masked value agree
  have h : readFeat ft v = readFeat ft w := by
    funext f
    obtain ⟨hmask, hpresent⟩ := agree f
    cases hm : masked v f with
    | true => rw [readFeat_masked hm, readFeat_masked (hmask.symm.trans hm)]
    | false =>
      obtain heq | ⟨hd, hv, hw⟩ := hpresent hm
      · exact readFeat_congr hmask heq
      · rw [readFeat_nan hd hv, readFeat_nan hd hw]
  exact ⟨fun img spill leaves f32 e => evalEntry_congr h img leaves spill f32 e, fun img sel => searchKey_congr h img sel⟩

end

/-! SUPPORT. Record ports: what the tests of a port's commands read, which key agreement frames are trusted, and which replies stay held. -/

namespace Sys2Proof.Machine

/-! ### Counting a frame and storing a port leave what the port's tests read -/

section
variable (s : State)

@[simp] theorem State.port_count (n : RegName) (c k q : Nat) : (s.count n c k).port q = s.port q := rfl
@[simp] theorem State.portCfg_count (n : RegName) (c k q hi lo : Nat) : (s.count n c k).portCfg q hi lo = s.portCfg q hi lo := rfl
@[simp] theorem State.classShare_count (n : RegName) (c k q : Nat) (b : Option Bool) : (s.count n c k).classShare q b = s.classShare q b := rfl
@[simp] theorem State.macsecCheck_count (n : RegName) (c k q : Nat) (t : Option SecTag) : (s.count n c k).macsecCheck q t = s.macsecCheck q t := rfl
@[simp] theorem State.now_count (n : RegName) (c k : Nat) : (s.count n c k).now = s.now := rfl

@[simp] theorem State.port_discard (p k q : Nat) : (s.discard p k).port q = s.port q := rfl
@[simp] theorem State.portCfg_discard (p k q hi lo : Nat) : (s.discard p k).portCfg q hi lo = s.portCfg q hi lo := rfl
@[simp] theorem State.fld_discard (p k : Nat) (m : RegName) (c w hi lo : Nat) : (s.discard p k).fld m c w hi lo = s.fld m c w hi lo := rfl
@[simp] theorem State.classShare_discard (p k q : Nat) (b : Option Bool) : (s.discard p k).classShare q b = s.classShare q b := rfl
@[simp] theorem State.macsecCheck_discard (p k q : Nat) (t : Option SecTag) : (s.discard p k).macsecCheck q t = s.macsecCheck q t := rfl
@[simp] theorem State.mkaTrusted_discard (p k q : Nat) (m : MkaMsg) : (s.discard p k).mkaTrusted q m = s.mkaTrusted q m := rfl
@[simp] theorem State.now_discard (p k : Nat) : (s.discard p k).now = s.now := rfl

@[simp] theorem State.portCfg_setPort (p q hi lo : Nat) (x : PortSt) : (s.setPort p x).portCfg q hi lo = s.portCfg q hi lo := rfl
@[simp] theorem State.fld_setPort (p : Nat) (x : PortSt) (m : RegName) (c w hi lo : Nat) : (s.setPort p x).fld m c w hi lo = s.fld m c w hi lo := rfl
@[simp] theorem State.now_setPort (p : Nat) (x : PortSt) : (s.setPort p x).now = s.now := rfl

/-- A frame without 802.1Q tags is of the lossy class (R65). -/
@[simp] theorem State.frameClass_untagged (p : Nat) : s.frameClass p [] = none := rfl

/-- With one lossless class, a PFC frame that enables its priority pauses that class alone (R67). -/
theorem State.paused_classA {p : Nat} {enable : BitVec 8} (quanta : List Nat) (x : PortSt) (hone : s.portCfg p 11 10 = 1)
    (hen : bit enable.toNat (s.portCfg p 14 12) = true) :
    s.paused p enable quanta x = { x with pausedA := s.pauseEnd p (nth quanta (s.portCfg p 14 12) 0) } := by
  simp [State.paused, hone, hen]

end

/-! ### Key agreement frames -/

section
variable {s : State} {p : Nat} {m : MkaMsg}

/-- Authenticated under the key that the port holds, and outside the error state (R461, R468). -/
theorem State.mkaTrusted_of_cak {key : Nat} (hcak : s.sec.caks.find? p = some (key, m.ckn)) (hauth : m.auth = true)
    (herr : s.sec.error = false) : s.mkaTrusted p m = true := by
  simp [State.mkaTrusted, hcak, hauth, herr]

/-- Where one of the conditions fails, in particular where the port holds no key, no frame is trusted. -/
theorem State.mkaTrusted_eq_false (h : ∀ k, s.sec.caks.find? p = some k → m.auth = true → s.sec.error = false → k.2 ≠ m.ckn) :
    s.mkaTrusted p m = false := by
  cases hcak : s.sec.caks.find? p with
  | none => simp [State.mkaTrusted, hcak]
  | some k =>
    cases hauth : m.auth with
    | false => simp [State.mkaTrusted, hauth]
    | true =>
      cases herr : s.sec.error with
      | true => simp [State.mkaTrusted, herr]
      | false => simp [State.mkaTrusted, hcak, h k hcak hauth herr]

end

/-! ### Braid replies and the events of their way out leave the held replies -/

section
variable (s : State)

theorem State.logEvent_held (code unit tenant detail : Nat) (queue : Bool) :
    (s.logEvent code unit tenant detail queue).1.trib.held = s.trib.held := by
  unfold State.logEvent
  extract_lets q e log send
  split
  · rfl
  · split <;> rfl

/-- The copies of a cause are bits of a register. -/
theorem State.setAttnBits_trib (l : List Nat) (c : Nat) : (l.foldl (fun s t => s.setAttnBit t c) s).trib = s.trib := by
  induction l generalizing s with
  | nil => rfl
  | cons t l ih => exact ih (s.setAttnBit t c)

theorem State.latch1_held (who : Option Nat) (c : Nat) (queue : Bool) : (s.latch1 who c queue).1.trib.held = s.trib.held := by
  have hbits := s.setAttnBits_trib (attnCopies who) c
  unfold State.latch1
  extract_lets cs new n
  split
  · rw [State.logEvent_held, hbits]
  · exact congrArg _ hbits

theorem State.latchLost_held (tenant : Nat) : (s.latchLost tenant).trib.held = s.trib.held :=
  foldl_keeps (P := fun n => n.trib.held = s.trib.held) _ rfl fun n _ h => (n.latch1_held ..).trans h

theorem State.event_held (code unit tenant detail : Nat) : (s.event code unit tenant detail).trib.held = s.trib.held := by
  have hlog := s.logEvent_held code unit tenant detail true
  unfold State.event
  extract_lets r
  split
  · exact (State.latchLost_held ..).trans hlog
  · exact hlog

theorem State.attDropDue_held (b : Nat) : (s.attDropDue b).trib.held = s.trib.held := by
  unfold State.attDropDue
  split
  · rfl
  · split
    · rfl
    · exact State.event_held ..

theorem State.attDrop_held (b : Nat) : (s.attDrop b).trib.held = s.trib.held := (s.tick .cntBraidDevCnt 1).attDropDue_held b

@[simp] theorem State.freeEnt_trib (h i : Nat) : (s.freeEnt h i).trib = s.trib := by
  unfold State.freeEnt
  split <;> rfl

@[simp] theorem State.brAccept_trib (b : Nat) (m : BrMsg) : (s.brAccept b m).trib = s.trib := by
  unfold State.brAccept
  extract_lets x k n out s1 s2 s3
  split
  · exact State.freeEnt_trib ..
  · rfl

@[simp] theorem State.brSend_trib (b : Nat) (m : BrMsg) : (s.brSend b m).trib = s.trib := by
  unfold State.brSend
  extract_lets n
  split
  · exact State.brAccept_trib ..
  · rfl

theorem State.replyBraid_held (b dst : Nat) (r : Reply) : (s.replyBraid b dst r).trib.held = s.trib.held := by
  unfold State.replyBraid
  extract_lets none_
  split
  · split
    · rw [State.freeEnt_trib, State.attDrop_held]
    · exact State.attDrop_held ..
  · rw [State.brSend_trib]

end

/-! ### The release tick -/

/-- A reply stays held while its release tick has not come (R123). -/
def Reply.staysHeld (r : Reply) (now : Nat) : Bool :=
  match r.release with
  | some t => !decide (t ≤ now)
  | none => false

/-- The due replies leave the held list first; neither Braid messages nor the transmit queues of the ports put any back. -/
theorem execLockstepReleaseTick_held {s : State} (hr : s.runs) :
    ∃ t, execLockstepReleaseTick s = .next t ∧ t.trib.held = s.trib.held.filter (·.staysHeld s.now) := by
  unfold execLockstepReleaseTick
  rw [gated_runs hr]
  extract_lets due rs trib n m portOf
  have hn : n.trib.held = s.trib.held.filter (·.staysHeld s.now) := by
    refine congrArg (s.trib.held.filter ·) (funext fun r => ?_)
    simp only [due, Reply.staysHeld]
    cases r.release <;> rfl
  have hm : m.trib.held = n.trib.held := by
    refine foldl_keeps (P := fun x => x.trib.held = n.trib.held) rs rfl fun x r hx => ?_
    split
    · exact (x.replyBraid_held ..).trans hx
    · exact hx
  refine ⟨_, rfl, Eq.trans ?_ (hm.trans hn)⟩
  refine foldl_keeps (P := fun x => x.trib.held = m.trib.held) _ rfl fun x p hx => ?_
  extract_lets mine
  split <;> exact hx

end Sys2Proof.Machine

/-! ### The statements of the record ports -/

section
open Sys2Proof Sys2Proof.Machine

/-- Settles O7: each frame passes the tests of its command in their order, and none of them reads the counters that count it. -/
theorem framesAtPorts : Obligations.FramesAtPorts := by
  unfold Obligations.FramesAtPorts
  refine ⟨?accepted, ?short, ?parsed, ?pfc, ?pfcDiscarded, ?arp⟩
  case accepted =>
    intro port sub f h payload sas s hr hused hcfg hup hmin hmax htags hroom hfcs hsec hbody hver hown hplain hudp hsum hdst
    have hsize : ¬ f.len < 64 ∧ ¬ 9216 < f.len := ⟨Nat.not_lt.2 hmin, Nat.not_lt.2 hmax⟩
    have hfits : ¬ s.classShare (2 * port + sub) none < f.len := Nat.not_lt.2 hroom
    have hversion : (if h.v6 then s.portCfg (2 * port + sub) 2 2 == 1 else s.portCfg (2 * port + sub) 1 1 == 1) = true := by
      cases hv6 : h.v6 <;> simpa [hv6] using hver
    show execFrameReceived port sub f s = _
    simp [execFrameReceived, gated_runs hr, hused, hcfg, hup, hsize, htags, hfits, hfcs, hsec, hbody, hversion, hown, hplain, hudp, hsum, hdst]
  case short =>
    intro port sub f s hr hused hcfg hup hshort
    show execFrameReceived port sub f s = _
    simp [execFrameReceived, gated_runs hr, hused, hcfg, hup, hshort]
  case parsed =>
    intro port sub w l s hr hwaits hroom
    show execLosslessFrameParse port sub false s = _
    simp [execLosslessFrameParse, gated_runs hr, hwaits, hroom]
  case pfc =>
    intro port sub enable quanta sas s hr hused hup hsec
    refine ⟨?_, s.paused_classA quanta.quanta _⟩
    show execPfcFrameReceived port sub enable quanta s = _
    simp [execPfcFrameReceived, gated_runs hr, hused, hup, hsec]
  case pfcDiscarded =>
    intro port sub enable quanta s hr hused hup hsec
    show execPfcFrameReceived port sub enable quanta s = _
    simp [execPfcFrameReceived, gated_runs hr, hused, hup, hsec]
  case arp =>
    intro port sub tag sas s hr hused hup hv4 hsec
    show execControlProtocolFrame port sub { kind := .arp, tag := tag } s = _
    simp [execControlProtocolFrame, gated_runs hr, hused, hup, hv4, hsec]

/-- Settles O8: each command's condition is its hypotheses; a key agreement frame acts just where it is trusted. -/
theorem portStates : Obligations.PortStates := by
  unfold Obligations.PortStates
  refine ⟨?up, ?down, ?keyChange, ?keyInstalled, ?untrusted, ?lldp⟩
  case up =>
    intro port sub s hr hused hcfg hstep herr hopen
    show execRecordPortUp port sub s = _
    simp [execRecordPortUp, gated_runs hr, hused, hcfg, hstep, herr, hopen]
  case down => exact fun port sub s hr => gated_runs hr _
  case keyChange =>
    intro port sub a s hr htx hpast hnew
    show execMacsecKeyChange port sub s = _
    simp only [execMacsecKeyChange, gated_runs hr, htx]
    exact if_pos ⟨hpast, hnew⟩
  case keyInstalled =>
    intro port sub an key ckn s hr hcak hused herr
    have htrust := State.mkaTrusted_of_cak (m := { auth := true, ckn := ckn, tx := some an, rx := none }) hcak rfl herr
    show execMkaFrame port sub _ s = _
    simp [execMkaFrame, gated_runs hr, hused, htrust]
  case untrusted =>
    intro port sub m s hr hused hno
    show execMkaFrame port sub m s = _
    simp [execMkaFrame, gated_runs hr, hused, State.mkaTrusted_eq_false hno]
  case lldp =>
    intro port sub s hr hmay
    show execLldpTransmit port sub s = _
    simp [execLldpTransmit, gated_runs hr, hmay]

/-- Settles O9: what waits for its tick leaves once that has come, and what leaves a port is the head of its queue or the next events. -/
theorem repliesLeave : Obligations.RepliesLeave := by
  unfold Obligations.RepliesLeave
  refine ⟨?idle, ?coalesced, ?released, ?left, ?events⟩
  case idle => exact fun hub key s hr => ⟨_, gated_runs hr _, rfl, rfl⟩
  case coalesced =>
    intro port sub dest f s hr hgathers hdue
    show execReplyCoalesceExpiry port sub dest s = _
    simp only [execReplyCoalesceExpiry, gated_runs hr, hgathers]
    exact if_pos hdue
  case released => exact fun s hr => execLockstepReleaseTick_held hr
  case left =>
    intro port sub ago f l s hr hmay hfree hqueue
    show execReplyLeftPort port sub false ago s = _
    simp [execReplyLeftPort, gated_runs hr, hmay, hfree, hqueue]
  case events =>
    intro port sub ago s hr hmay hfree hport hsub
    show execReplyLeftPort port sub true ago s = _
    simp [execReplyLeftPort, gated_runs hr, hmay, hfree, hport, hsub]

end

/-! SUPPORT. Time and order: a tick under a held reset, Braid time at the root and away from it, and how a launch is accepted. -/

namespace Sys2Proof.Machine

/-! ### The gate before a condition -/

section
variable {s : State} {p : Prop} [Decidable p] {x y : Out}

/-- A command whose condition holds acts, while no reset is held. -/
theorem gated_if_pos (hr : s.runs) (hp : p) : s.gated (if p then x else y) = x := (gated_runs hr _).trans (if_pos hp)

/-- A command that nothing keeps from acting acts, while no reset is held. -/
theorem gated_if_neg (hr : s.runs) (hp : ¬ p) : s.gated (if p then x else y) = y := (gated_runs hr _).trans (if_neg hp)

end

/-! ### A tick under a held reset -/

/-- Sampling ATTN and DEGRADED for waiting frames writes the samples alone (R84). -/
theorem State.sampleBits_eq (s : State) : s.sampleBits = { s with trib := { s.trib with sampled := s.sampleBits.trib.sampled } } := by
  unfold State.sampleBits
  split <;> rfl

theorem State.tickOne_held {s : State} (h : ¬ s.runs) :
    s.tickOne = { s with time := { s.time with bt := s.time.bt + 1 }, trib := { s.trib with sampled := s.sampleBits.trib.sampled } } := by
  have hheld : (s.pins.held || s.pins.warmHeld) = true := by
    by_contra hfree
    exact h (by simpa [State.runs] using hfree)
  unfold State.tickOne
  rw [State.sampleBits_eq s]
  exact if_pos hheld

/-! ### The end of an epoch -/

section
variable {s : State} {t epoch : Nat}

/-- Outside a replay session, and before its first epoch, the marker names the epoch itself (R338). -/
theorem State.endEpoch_live (h : ∀ z, s.session t = some z → epoch < z.m) : s.endEpoch t epoch = s.epochMarker t epoch := by
  unfold State.endEpoch
  cases hz : s.session t with
  | none => rfl
  | some z => exact if_pos (h z hz)

/-- In a replay session the marker names the original epoch, alone where the epoch has no digest of its own (R347). -/
theorem State.endEpoch_replay {z : Session12} (hz : s.session t = some z) (hm : z.m ≤ epoch) (hd : (s.capOf t).digests.find? epoch = none) :
    s.endEpoch t epoch = s.epochMarker t (epoch - z.m + z.n) := by
  simp [State.endEpoch, hz, Nat.not_lt.2 hm, hd]

end

/-! ### Time words and the root -/

@[simp] theorem State.time_discard (s : State) (p k : Nat) : (s.discard p k).time = s.time := rfl
@[simp] theorem State.rd_discard (s : State) (p k : Nat) (n : RegName) (c w : Nat) : (s.discard p k).rd n c w = s.rd n c w := rfl
@[simp] theorem State.rd_setPort (s : State) (p : Nat) (x : PortSt) (n : RegName) (c w : Nat) : (s.setPort p x).rd n c w = s.rd n c w := rfl

section
variable (s : State) (port : Nat) (w : TimeWord)

/-- A word's arrival writes when it came, and to the word the delay of its link (R396). -/
theorem State.timed_eq : ∃ delay measured, s.timed port w =
    ({ s with time := { s.time with rx64 := s.time.rx64.put port (s.came64 w) } }, { w with delay := delay, measured := measured }) := by
  unfold State.timed
  extract_lets rx n
  split
  · split
    · exact ⟨_, _, rfl⟩
    · exact ⟨_, _, rfl⟩
  · exact ⟨_, _, rfl⟩

@[simp] theorem State.timed_onAlt : (s.timed port w).2.onAlt = w.onAlt := by
  obtain ⟨_, _, h⟩ := s.timed_eq port w
  rw [h]

@[simp] theorem State.timed_iAmRoot : (s.timed port w).1.iAmRoot = s.iAmRoot := by
  obtain ⟨_, _, h⟩ := s.timed_eq port w
  rw [h]
  rfl

@[simp] theorem State.timed_parentPort : (s.timed port w).1.parentPort = s.parentPort := by
  obtain ⟨_, _, h⟩ := s.timed_eq port w
  rw [h]
  rfl

end

/-- An event leaves who is root: ATTN_CAUSE is another register than BRAID_ID and TIME_CFG. -/
@[simp] theorem State.event_iAmRoot (s : State) (a b c d : Nat) : (s.event a b c d).iAmRoot = s.iAmRoot := by
  have hid := s.rd_event a b c d .braidId 0 0 (by decide)
  have hcfg := s.rd_event a b c d .timeCfg 0 0 (by decide)
  simp only [State.iAmRoot, State.device, State.rootId, State.fld, hid, hcfg, State.event_time]

/-- Reporting DEGRADED raises events and leaves time as it is. -/
@[simp] theorem State.noteDegraded_time (s : State) : s.noteDegraded.time = s.time := by
  refine foldl_keeps (P := fun n => n.time = s.time) _ rfl fun n t h => ?_
  extract_lets b m
  split
  · exact h
  · exact (State.event_time ..).trans h

@[simp] theorem State.enterLocked_time (s : State) :
    s.enterLocked.time = { s.time with state := 1, close := 0, expiring := false, isRoot := s.iAmRoot, valid := true } :=
  State.event_time ..

/-- Taking over as root leaves which root the device follows. -/
theorem State.rootTakesOver_onAlt (s : State) : s.rootTakesOver.time.onAlt = s.time.onAlt := by
  unfold State.rootTakesOver
  split
  · rfl
  · split
    · rfl
    · rw [State.enterLocked_time]
    · rfl

/-- A root that takes over outside ACQUIRE is LOCKED, and is shown as root (Table 4.1). -/
theorem State.rootTakesOver_locked {s : State} (hroot : s.iAmRoot = true) (hstate : s.time.state = 1 ∨ s.time.state = 2) :
    s.rootTakesOver.time.state = 1 ∧ s.rootTakesOver.time.isRoot = true := by
  obtain h | h := hstate
  · simp [State.rootTakesOver, hroot, h]
  · simp [State.rootTakesOver, hroot, h]

/-- A device that follows the alternate root, before it takes over as root if it is that root. -/
def State.toAlt (s : State) : State :=
  let n := { s with time := { s.time with onAlt := true, isRoot := false } }
  n.event 0x0403 n.rootId 0xFF n.now

@[simp] theorem State.toAlt_time (s : State) : s.toAlt.time = { s.time with onAlt := true, isRoot := false } := State.event_time ..

/-- The root is the alternate root of TIME_CFG from now on (R101). -/
theorem State.toAlt_iAmRoot (s : State) : s.toAlt.iAmRoot = (s.device == s.fld .timeCfg 0 0 30 18) := State.event_iAmRoot ..

theorem State.followAlt_eq {s : State} (h : s.time.onAlt = false) : s.followAlt = s.toAlt.rootTakesOver.noteDegraded := by
  unfold State.followAlt
  rw [h]
  rfl

theorem State.followAlt_time {s : State} (h : s.time.onAlt = false) : s.followAlt.time = s.toAlt.rootTakesOver.time := by
  rw [State.followAlt_eq h, State.noteDegraded_time]

theorem State.followAlt_onAlt {s : State} (h : s.time.onAlt = false) : s.followAlt.time.onAlt = true := by
  rw [State.followAlt_time h, State.rootTakesOver_onAlt, State.toAlt_time]

/-- The alternate root takes over at once, unless it is in ACQUIRE (R101, R102). -/
theorem State.followAlt_locked {s : State} (h : s.time.onAlt = false) (hdev : s.device = s.fld .timeCfg 0 0 30 18)
    (hstate : s.time.state = 1 ∨ s.time.state = 2) : s.followAlt.time.state = 1 ∧ s.followAlt.time.isRoot = true := by
  rw [State.followAlt_time h]
  refine State.rootTakesOver_locked ?_ ?_
  · rw [State.toAlt_iAmRoot, hdev, beq_self_eq_true]
  · rwa [State.toAlt_time]

/-- The time word that a port sends next (Table 14.9), its marked symbol leaving at the free part of the tick. -/
def State.wordToSend (s : State) (port : Nat) : TimeWord :=
  let frac := Config.freeWord s.free % 64
  { bt := s.now, btFrac := frac, valid := s.time.valid, state := s.time.state, root := s.rootId, onAlt := s.time.onAlt, wall := s.time.wall
    turn := match s.time.rx64.find? port with | some rx => (64 * s.now + frac - rx) % 2 ^ 32 | none => 0
    heartbeat := if s.iAmRoot then (s.time.beat + 1) % 65536 else s.time.beat
    epochLog2 := s.epochLog2, ingress := s.ingressBound, fabric := s.fabricBound, releaseAdd := s.fld .timeLock 0 0 15 0 }

theorem State.wordToSend_btFrac_lt (s : State) (port : Nat) : (s.wordToSend port).btFrac < 64 := Nat.mod_lt _ (by decide)

/-- A port that is up sends its word once none has left for 1,024 ticks (R396). -/
theorem execTimeWordSend_sends {port : Nat} {s : State} (hr : s.runs) (hup : (s.brPort port).step = 6)
    (hdue : ∀ t, s.time.sentAt.find? port = some t → t + 1024 ≤ s.now) :
    execTimeWordSend port s = .next { s with
      free := s.free + 1
      time := { s.time with
        beat := (s.wordToSend port).heartbeat, sentAt := s.time.sentAt.put port s.now
        tx64 := s.time.tx64.put port (64 * s.now + (s.wordToSend port).btFrac), words := s.time.words ++ [(port, s.wordToSend port)] } } := by
  unfold execTimeWordSend
  rw [gated_runs hr]
  extract_lets due beat f n tx turn w
  have hsends : due = true := by
    simp only [due]
    cases hsent : s.time.sentAt.find? port with
    | none => rfl
    | some t => exact decide_eq_true (hdue t hsent)
  rw [if_neg (by simp [hup, hsends])]
  rfl

/-- A root in ACQUIRE, past boot step 6, starts BT once no port is enabled or the wait since its first port is over with no word heard (R102). -/
theorem execRootBtStart_starts {s : State} (hr : s.runs) (hroot : s.iAmRoot = true) (hstate : s.time.state = 0) (hstep : 6 < s.head.step)
    (hdue : (∀ b < 12, s.fld .braidPortCfg b 0 0 0 = 0) ∨ ∃ t, s.time.firstUp = some t ∧ t + 2 ^ 24 ≤ s.now ∧ s.time.heard = []) :
    execRootBtStart s = .next ((s.setBt 0).enterLocked) := by
  refine gated_if_pos hr ⟨hroot, hstate, hstep, ?_⟩
  obtain hoff | ⟨t, hup, hwait, hheard⟩ := hdue
  · exact Bool.or_eq_true_iff.2 (.inl (by simpa using hoff))
  · exact Bool.or_eq_true_iff.2 (.inr (by simp only [hup, hwait, hheard, decide_true, List.isEmpty_nil, Bool.and_self]))

/-! ### A request arrives at its home -/

section
variable {s : State} {q : EddyReq} {port : Option Nat}

/-- A request that comes before its fence, to its home, for a partition that is not lost is put in order (R173). -/
theorem State.arriveReq_orders (hfence : s.now < s.fenceAt q) (hhome : s.homeMismatch q = false) (hkept : q.part ∉ s.eddy.lost) :
    s.arriveReq q port = s.orderReq q port := by
  simp [State.arriveReq, Nat.not_le.2 hfence, hhome, hkept]

/-- A request that comes after its fence is late, whatever else holds of it (R118). -/
theorem State.arriveReq_late (hfence : s.fenceAt q ≤ s.now) : s.arriveReq q port = s.lateReq q := if_pos hfence

/-- While the order queue has room, a request that a Braid port brings arrives once BT is set. -/
theorem execEddyReq_braid {p : Nat} (hr : s.runs) (hroom : (nth s.eddy.queues (q.part / 6) []).length < 65536) (hup : (s.brPort p).step = 6)
    (hset : s.time.state ≠ 0) : execEddyReq (some p) q s = .next (s.arriveReq q (some p)) := by
  simp [execEddyReq, gated_runs hr, Nat.not_le.2 hroom, hup, hset]

end

/-! ### Accepting a command of Headwater -/

section
variable {s : State} {kind k : Nat} {c : HwCmd} {l : List HwCmd}

/-- The first command of a kind is taken, while no reset is held. -/
theorem cmd_first (hr : s.runs) (hfirst : s.firstCmd kind c l) (f : HwCmd → State → CmdRes) :
    s.gated (s.runCmd kind f) = .next (State.endCmd c (f c (s.leaving l))) := (gated_runs hr _).trans (runCmd_first hfirst f)

/-- A launch with its arguments in form, refused neither by R121 nor by its own conditions, is accepted. -/
theorem launchCmd_accepts {args : List Byte → Option (Nat × Nat)} {own : State → SignedCmd → Option (Nat × Nat)}
    {accept : State → SignedCmd → State} (hargs : args c.cmd.body = none) (href : s.launchRefused c k = none) (hown : own s c.cmd = none) :
    launchCmd k args own accept c s = { st := accept s c.cmd } := by
  simp only [launchCmd, hargs, href, hown]

/-- The first command of a kind, if it is a launch that nothing bars, is taken and accepted. -/
theorem launch_first (hr : s.runs) (hfirst : s.firstCmd kind c l) {args : List Byte → Option (Nat × Nat)}
    {own : State → SignedCmd → Option (Nat × Nat)} {accept : State → SignedCmd → State} (hargs : args c.cmd.body = none)
    (href : (s.leaving l).launchRefused c k = none) (hown : own (s.leaving l) c.cmd = none) :
    s.gated (s.runCmd kind (launchCmd k args own accept)) = .next (State.endCmd c { st := accept (s.leaving l) c.cmd }) := by
  rw [cmd_first hr hfirst, launchCmd_accepts hargs href hown]

end

end Sys2Proof.Machine

/-! ### The statements of time and order -/

section
open Sys2Proof Sys2Proof.Machine

/-- Settles O2: an empty queue lets a tick pass, and a held reset leaves of it the count of BT and the samples. -/
theorem idleStepIsTick : Obligations.IdleStepIsTick := by
  unfold Obligations.IdleStepIsTick
  refine ⟨?idle, fun s h => State.tickOne_held h⟩
  case idle =>
    intro s hnone
    simp only [step, hnone]

/-- Settles O10: each command's condition is its hypotheses, and a word that names no alternate root is the parent's as the device stands. -/
theorem timeFollows : Obligations.TimeFollows := by
  unfold Obligations.TimeFollows
  refine ⟨?start, ?ended, fun t epoch s h => State.endEpoch_live h, fun t epoch z s hz hm hd => State.endEpoch_replay hz hm hd, ?word, ?entry, ?expiry⟩
  case start => exact fun s hr hdue => gated_if_pos hr hdue
  case ended => exact fun epoch s hr hlive hpast hempty => gated_if_pos hr ⟨hlive, hpast, hempty⟩
  case word =>
    intro port w s hr hup htorus hmain hroot hparent
    show execTimeWordReceived port w s = _
    simp [execTimeWordReceived, gated_runs hr, hup, htorus, hmain, hroot, hparent]
  case entry => exact fun s hr hstate hroot hsilent => gated_if_pos hr ⟨hstate, hroot, hsilent⟩
  case expiry => exact fun s hr hstate hlong => gated_if_pos hr ⟨hstate, hlong⟩

/-- Settles O11: the word sent is the one that the command builds at its free value, and the alternate root takes over as it is followed. -/
theorem timeOfRoot : Obligations.TimeOfRoot := by
  unfold Obligations.TimeOfRoot
  refine ⟨?send, ?alone, ?waited, ?switched, ?announce, ?lost⟩
  case send =>
    intro port s hr hup hdue
    exact ⟨s.wordToSend port, rfl, s.wordToSend_btFrac_lt port, rfl, rfl, rfl, rfl, rfl, rfl, execTimeWordSend_sends hr hup hdue⟩
  case alone => exact fun s hr hroot hstate hstep _ hoff => execRootBtStart_starts hr hroot hstate hstep (.inl hoff)
  case waited =>
    exact fun t s hr hroot hstate hstep hup hwait hheard => execRootBtStart_starts hr hroot hstate hstep (.inr ⟨t, hup, hwait, hheard⟩)
  case switched =>
    exact fun s hr hen hmain hroot hsilent =>
      ⟨gated_if_pos hr ⟨hen, hmain, hroot, hsilent⟩, State.followAlt_onAlt hmain, State.followAlt_locked hmain⟩
  case announce =>
    intro port m r sas s hr hused hup hsec hon hroot hport htransport hdomain hkind
    show execPtpMessage port m s = _
    simp [execPtpMessage, gated_runs hr, hused, hup, hsec, hon, hroot, hport, htransport, hdomain, hkind]
  case lost => exact fun s hr hroot => gated_if_pos hr hroot

/-- Settles O15: what comes before its fence is put in order, what comes later is late, and a wait that is over ends the wait for bodies. -/
theorem eddyServes : Obligations.EddyServes := by
  unfold Obligations.EddyServes
  refine ⟨?own, ?braid, ?late, ?released, ?ownBody, ?braidBody, ?expired⟩
  case own =>
    intro q x s hr hroom hhanded n hfence hhome hkept
    show execEddyReq none q s = _
    simp only [execEddyReq, gated_runs hr, Nat.not_le.2 hroom, if_false, hhanded]
    exact congrArg _ (State.arriveReq_orders hfence hhome hkept)
  case braid =>
    intro p q s hr hroom hup hset hfence hhome hkept
    exact (execEddyReq_braid hr hroom hup hset).trans (congrArg _ (State.arriveReq_orders hfence hhome hkept))
  case late =>
    intro p q s hr hroom hup hset hfence
    exact (execEddyReq_braid hr hroom hup hset).trans (congrArg _ (State.arriveReq_late hfence))
  case released =>
    intro hub x s hr hfirst hfence
    show execEddyFenceRelease hub s = _
    simp only [execEddyFenceRelease, gated_runs hr, hfirst]
    exact if_neg (Nat.not_lt.2 hfence)
  case ownBody => exact fun b s hr hback => gated_if_pos hr hback
  case braidBody => exact fun p b s hr hup => gated_if_neg hr (not_not_intro hup)
  case expired =>
    intro hub ent e s hr hent hphase hdue
    show execSnapshotWaitExpiry hub ent s = _
    simp only [execSnapshotWaitExpiry, gated_runs hr, hent]
    have hover : ¬ (e.phase ≠ .snaps ∨ s.now < e.at_ + s.fence + s.fld .eddyCfg 0 0 15 0) :=
      not_or.2 ⟨not_not_intro hphase, Nat.not_lt.2 hdue⟩
    rw [if_neg hover]
    split <;> rfl

/-- Settles O26: an edit and a commit pass the tests of their commands in order, and an edit settles at its target. -/
theorem setsChange : Obligations.SetsChange := by
  unfold Obligations.SetsChange
  refine ⟨?edit, ?settled, ?commit⟩
  case edit =>
    intro c l i j w v s hr hfirst n b table a count hmin hwhole hmax hres href hbars hact hopen htable hcount hwrites hjournal
    have hform : ¬ (b.length < 80 ∨ (b.length - 16) % 64 ≠ 0 ∨ 112 < (b.length - 16) / 64 ∨ leAt b 9 3 ≠ 0) := by omega
    have hrules : i.set.ruleTable table ≠ none := Option.isSome_iff_ne_none.1 htable
    refine (cmd_first hr hfirst _).trans ?_
    subst n b table a count
    simp [hform, href, hbars, hact, hopen, hrules, hcount, hwrites, hjournal]
  case settled =>
    intro tenant table i c s hr hact hopen hpast
    show execRuleEditSettle tenant table s = _
    simp only [execRuleEditSettle, gated_runs hr, hact, hopen, hpast]
    rfl
  case commit =>
    intro c l i w s hr hfirst n b a hmin hwhole hmax hres href hbars hact hcount hok hjournal
    have hform : ¬ (b.length < 24 ∨ b.length % 8 ≠ 0 ∨ 1016 < (b.length - 16) / 8 ∨ leAt b 12 4 ≠ 0) := by omega
    have hall : (commitEntries b).takeWhile (commitOk i.set) = commitEntries b := List.takeWhile_eq_self_iff.2 hok
    refine (cmd_first hr hfirst _).trans ?_
    subst n b a
    simp [hform, href, hbars, hact, hcount, hall, hjournal]

/-- Settles O38: each launch passes its arguments, R121 and its own conditions, and a discard finds nothing that bars the free slot. -/
theorem launchesAccepted : Obligations.LaunchesAccepted := by
  unfold Obligations.LaunchesAccepted
  intro c l s hr n b
  refine ⟨?swap, ?drain, ?freeze, ?resume, ?discard⟩
  case swap => exact fun hfirst hlen href hbars => launch_first hr hfirst (if_pos hlen) href hbars
  case drain => exact fun hfirst hlen hres href hbars => launch_first hr hfirst (if_pos ⟨hlen, hres⟩) href hbars
  case freeze => exact fun hfirst hempty href => launch_first hr hfirst (if_pos hempty) href rfl
  case resume => exact fun hfirst hform href hbars => launch_first hr hfirst (if_pos hform) href hbars
  case discard =>
    intro hfirst hempty hbars
    refine (cmd_first hr hfirst _).trans ?_
    subst n b
    simp [hempty, hbars]

end

/-! SUPPORT. Admission, streams, drains and queues: what the head of a queue comes to, how a stream goes on, and what a free queue makes of a command. -/

namespace Sys2Proof.Machine

/-! ### The head of an admission queue -/

/-- A head that is past its deadline and brings no outcome is refused with ADMIT_TIMEOUT; a REPLAY one is counted (R133, R344). -/
theorem State.timeoutHead_past {s : State} {q : Nat} {x : QEnt} {l : AdmQueue} (hhead : s.queue q = x :: l) (hpast : s.pastDeadline x.at_ = true)
    (hnone : x.outcome = none) (hopen : s.pastReplay x = false) :
    let n := s.capture x.r rcAdmitTimeout 0
    let m := if x.r.replay then n.tick .cntCapCnt (x.r.tenant * 3 + 2) else n
    s.timeoutHead q = some ((m.putQueue q l).refuseRec x.r x.at_ rcAdmitTimeout 0) := by
  simp [State.timeoutHead, hhead, hpast, hnone, hopen]

/-! ### Streams -/

section
variable {s : State} {hub stream : Nat} {x : StreamSt}

/-- A stream that reads external memory reads its next element: from the address of that element, or, where none lies there, as a failed read of
its fetch engine (R141, R436). -/
theorem execStreamElementIssue_block {pick : Nat} (hr : s.runs) (hstream : s.stream? hub stream = some x) (hrunning : x.state = 1)
    (hleft : x.elem < x.desc.count) (hkind : 3 ≤ x.desc.kind) (hroom : s.engineReads hub x.desc.engine < 512)
    (hwindow : x.desc.kind = 3 → s.spillNext hub stream x = true) :
    let n := s.setStream hub stream { x with elem := x.elem + 1, sent := x.sent + 1 }
    execStreamElementIssue hub stream pick s =
      .next (if placeOf (s.elemAddr x) = [] then n.readFault hub (s.elemAddr x) stream (0x6000 + 16 * hub + x.desc.engine)
        else n.fetchLine hub x.desc.engine stream x.elem (s.elemAddr x) (x.desc.kind == 3 || x.desc.kind == 4)) := by
  have hopen : ¬ (x.state ≠ 1 ∨ x.desc.count ≤ x.elem) := by omega
  have hblock : ¬ x.desc.kind = 1 ∧ ¬ x.desc.kind = 2 := by omega
  have hmay : ¬ (x.desc.kind = 0 ∨ 512 ≤ s.engineReads hub x.desc.engine ∨ (x.desc.kind = 3 ∧ s.spillNext hub stream x = false)) := by
    rintro (hidle | hfull | ⟨hspill, hshut⟩)
    · omega
    · omega
    · simp [hwindow hspill] at hshut
  simp only [execStreamElementIssue, gated_runs hr, hstream]
  rw [if_neg hopen, if_neg hblock.1, if_neg hblock.2, if_neg hmay]

/-- A RECORD stream of stage 0 issues the record that is picked, if that waits for it, and for its replica (R145, R148). -/
theorem execStreamElementIssue_record {pick : Nat} {e : RecEnt} (hr : s.runs) (hstream : s.stream? hub stream = some x) (hrunning : x.state = 1)
    (hleft : x.elem < x.desc.count) (hkind : x.desc.kind = 1) (hent : s.ent? hub pick = some e)
    (hwaits : e.phase = .stage ∧ e.stage = 0 ∧ x.desc.stage = 0 ∧ (s.recPipe e).cascade = x.desc.cascade ∧ e.r.tenant = x.tenant)
    (hreplica : s.replicaFor hub e 1 x.desc.cascade 0 (s.recStage e).ensemble = some x.replica) :
    execStreamElementIssue hub stream pick s = .next (s.issueStage hub pick e) := by
  have hopen : ¬ (x.state ≠ 1 ∨ x.desc.count ≤ x.elem) := by omega
  simp only [execStreamElementIssue, gated_runs hr, hstream]
  rw [if_neg hopen, if_pos hkind]
  simp only [hent]
  rw [if_pos hwaits]
  simp only [hreplica, if_true]

end

/-! ### Commands of a free queue -/

/-- An allowed command fits Table 13.2, but for an amount of REARM or a BT of WAITBT that is too long (R355). -/
theorem qcmdOk_fits {q : Nat} {c : QCmd} (hok : qcmdOk q c = true) :
    c.op < 2 ^ 8 ∧ c.flags < 2 ^ 8 ∧ c.id < 2 ^ 16 ∧ (c.op = 8 ∨ c.amount < 2 ^ 32) ∧ (c.op = 7 ∨ c.arg < 2 ^ 64) := by
  obtain ⟨op, flags, id, amount, arg⟩ := c
  simp only [qcmdOk, Bool.and_eq_true] at hok ⊢
  obtain ⟨hflags, hfields⟩ := hok
  have hflags : flags < 2 := by
    split at hflags
    · exact of_decide_eq_true hflags
    · have hzero : flags = 0 := beq_iff_eq.1 hflags
      omega
  have hrow : op < 10 ∧ id < 3072 ∧ (op = 8 ∨ amount < 65536) ∧ (op = 7 ∨ arg < 2 ^ 48) := by
    split at hfields <;> simp only [Bool.and_eq_true, decide_eq_true_eq, beq_iff_eq, Bool.false_eq_true] at hfields <;> omega
  omega

section
variable {s : State} {q : Nat} {c : QCmd}

/-- A free queue that is given an allowed command that its 16 bytes hold executes it, and goes on where the command is done. -/
theorem State.give_bytes {r : State × Bool} (hfree : s.queueFree q) (hok : qcmdOk q c = true) (hamount : c.op = 8 → c.amount < 2 ^ 32)
    (harg : c.op = 7 → c.arg < 2 ^ 64) (hexec : (s.queued q c).execHead q c = r) :
    s.give q c.bytes = if r.2 then r.1.runQueue q 255 else r.1 := by
  obtain ⟨hop, hflags, hid, hamount', harg'⟩ := qcmdOk_fits hok
  have hread : qcmdOfBytes c.bytes = c := qcmdOfBytes_bytes c hop hflags hid (hamount'.elim hamount id) (harg'.elim harg id)
  rw [give_free hfree, hread, hexec]

/-- An arrival that its barrier has not counted is counted, and its command is done unless it waits for the release (R361). -/
theorem State.arriveBar_new {b : Nat} {wait : Bool} (hnew : (s.bar b).counted.contains (barPort q b) = false) : (s.arriveBar q b wait).2 = !wait := by
  simp only [State.arriveBar, hnew]
  rfl

section
variable (hok : qcmdOk q c = true)
include hok

/-- A BAR at a barrier that has not counted its queue waits there (R361). -/
theorem State.execHead_bar (hop : c.op = 5) (hpart : bit (s.barMask (barKey q c.id)) (barPort q (barKey q c.id)) = true)
    (hnew : (s.bar (barKey q c.id)).counted.contains (barPort q (barKey q c.id)) = false) :
    s.execHead q c = ((s.arriveBar q (barKey q c.id) true).1, false) := by
  simp [State.execHead, hok, hop, hpart, State.arriveBar_new hnew]

/-- A BARNW at a barrier that has not counted its queue is done at once (R361). -/
theorem State.execHead_barnw (hop : c.op = 6) (hpart : bit (s.barMask (barKey q c.id)) (barPort q (barKey q c.id)) = true)
    (hnew : (s.bar (barKey q c.id)).counted.contains (barPort q (barKey q c.id)) = false) :
    s.execHead q c = ((s.arriveBar q (barKey q c.id) false).1.popQue q, true) := by
  simp [State.execHead, hok, hop, hpart, State.arriveBar_new hnew]

/-- A REARM of a stream that has none pending is done at once (R144). -/
theorem State.execHead_rearm {x : StreamSt} (hop : c.op = 8) (hstream : s.stream? (q / 32) c.id = some x) (hnone : x.rearm = none) :
    s.execHead q c = (((s.rearm (q / 32) c.id c.arg c.amount).getD s).popQue q, true) := by
  simp [State.execHead, hok, hop, hstream, hnone]

/-- An RSIG that finds credit sends its signal, and waits where a link layer has yet to accept it (R369). -/
theorem State.execHead_rsig (hop : c.op = 9) (hcredit : s.noCredit q (c.arg % 2 ^ 32) = false) :
    let m := s.sendSignal q c
    s.execHead q c = if m.signalWaits q then (m.setQue q { m.que q with wait := .link }, false) else (m.popQue q, true) := by
  simp only [State.execHead, hok, hop, hcredit]
  rfl

/-- An RSIG that finds no credit waits for it (R356). -/
theorem State.execHead_rsig_noCredit (hop : c.op = 9) (hcredit : s.noCredit q (c.arg % 2 ^ 32) = true) :
    s.execHead q c = (s.setQue q { s.que q with wait := .credit }, false) := by
  simp only [State.execHead, hok, hop, hcredit]
  rfl

end
end

end Sys2Proof.Machine

/-! ### The statements of admission, streams, drains and the queue commands that reach outside -/

section
open Sys2Proof Sys2Proof.Machine

/-- Settles O12: a queue that may be served has its head admitted, or refused past its deadline, as the two tests of a head answer. -/
theorem admissionHeads : Obligations.AdmissionHeads := by
  unfold Obligations.AdmissionHeads
  refine ⟨?admitted, ?expired, ?released⟩
  case admitted =>
    intro queue n s hr hserve hadmit
    refine (gated_if_pos hr hserve).trans ?_
    simp only [hadmit]
  case expired =>
    intro queue x l s hr hserve hhead hpast hnone hopen n m
    refine (gated_if_pos hr hserve).trans ?_
    simp only [State.timeoutHead_past hhead hpast hnone hopen]
    rfl
  case released =>
    intro queue x l n s hr hhead hreplay hserve hadmit
    show execReplayHeadRelease queue s = _
    simp only [execReplayHeadRelease, gated_runs hr, hhead, hreplay, hserve, hadmit]
    rfl

/-- Settles O13: a stream that runs moves its next element or ends its count, and what comes back to it, or was aborted, lets it go on. -/
theorem streamsRun : Obligations.StreamsRun := by
  unfold Obligations.StreamsRun
  refine ⟨?block, ?record, ?read, ?counted, ?rearmed, ?buffered, ?aborted⟩
  case block => exact fun hub stream pick x s => execStreamElementIssue_block
  case record =>
    rintro hub stream pick rep x e s hr hstream hrunning hleft hkind hent hphase hstage hfirst hcascade htenant hreplica rfl
    exact execStreamElementIssue_record hr hstream hrunning hleft hkind hent ⟨hphase, hstage, hfirst, hcascade, htenant⟩ hreplica
  case read =>
    intro hub engine addr ok r s hr hread kind lines c
    refine ⟨?good, ?failed⟩
    case good =>
      rintro rfl
      show execFetchReadComplete hub engine addr true s = _
      simp only [execFetchReadComplete, gated_runs hr, hread]
      rfl
    case failed =>
      rintro rfl
      show execFetchReadComplete hub engine addr false s = _
      simp only [execFetchReadComplete, gated_runs hr, hread]
      rfl
  case counted =>
    intro hub stream x s hr hstream hrunning hdone
    have hends : ¬ (x.state ≠ 1 ∨ x.elem < x.desc.count) := by omega
    show execStreamCountEnd hub stream s = _
    simp only [execStreamCountEnd, gated_runs hr, hstream]
    rw [if_neg hends]
    cases x.rearm with
    | some r => rfl
    | none => rcases hpersist : x.desc.persist with _ | _ | k <;> simp
  case rearmed =>
    intro hub stream base count n s hr hrearm
    show execFetchRearm hub stream base count s = _
    simp only [execFetchRearm, gated_runs hr, hrearm, Option.getD_some]
  case buffered =>
    intro hub rec_ e s hr hent hphase hlater
    show execStageBufferIssue hub rec_ s = _
    simp only [execStageBufferIssue, gated_runs hr, hent]
    exact if_pos ⟨hphase, hlater⟩
  case aborted =>
    intro hub stream x s hr hstream haborting hnone n
    show execAbortComplete hub stream s = _
    simp only [execAbortComplete, gated_runs hr, hstream]
    rw [if_neg (not_not_intro haborting)]
    simp only [hnone]
    rfl

/-- Settles O14: a drain that is due is done, a timeout takes both hub dies at once, and a deadlock ends the youngest member of its group. -/
theorem drainsEnd : Obligations.DrainsEnd := by
  unfold Obligations.DrainsEnd
  refine ⟨?done, ?timeout, ?deadlock⟩
  case done =>
    intro tenant s hr hfrozen hdue hopen hswap
    show execDrainDone tenant s = _
    simp [execDrainDone, gated_runs hr, hfrozen, hdue, hopen, hswap]
  case timeout =>
    intro tenant n s hr hfrom hopen hall
    have hboth : (List.range 2).filter (fun h => !(s.freezeOf tenant).timedOut.contains h &&
        decide (n * s.epochLen + s.rd .weirDrain h 0 ≤ s.now)) = [0, 1] := by
      refine (List.filter_eq_self).2 fun h hh => ?_
      obtain ⟨hnew, hlate, -⟩ := hall h (List.mem_range.1 hh)
      simp [hnew, hlate]
    have hidle : [0, 1].flatMap (s.busyTasks tenant) = [] := by
      obtain ⟨-, -, h0⟩ := hall 0 (by decide)
      obtain ⟨-, -, h1⟩ := hall 1 (by decide)
      simp [h0, h1]
    show execDrainTimeout tenant s = _
    simp only [execDrainTimeout, gated_runs hr, hfrom, hboth, hidle]
    exact if_neg (by simp [hopen])
  case deadlock =>
    intro hub group m s hr hon hreached hblocked hyoungest htask k a b
    have hdue : ¬ (s.fld .bwCfg hub 0 0 0 = 0 ∨ SMap.getD (fun _ => 0) s.slu.bw (32 * hub + group) < 2 ^ s.fld .bwCfg hub 0 5 1 ∨
        s.groupBlocked hub group = false) := by
      simp [hon, hblocked, hreached]
    refine (gated_if_neg hr hdue).trans ?_
    simp only [hyoungest, htask, if_true]
    rfl

/-- Settles O30: a free queue executes its command at once, and goes on where that is done. -/
theorem queueCommandsReach : Obligations.QueueCommandsReach := by
  unfold Obligations.QueueCommandsReach
  intro q id amount flags arg s hr hfree c n b
  have hgiven : ∀ {op : Nat} {r : State × Bool}, qcmdOk q (c op) = true → (op = 8 → amount < 2 ^ 32) → (op = 7 → arg < 2 ^ 64) →
      (n op).execHead q (c op) = r → s.gated (.next (s.give q (c op).bytes)) = .next (if r.2 then r.1.runQueue q 255 else r.1) :=
    fun hok hamount harg hexec => (gated_runs hr _).trans (congrArg _ (State.give_bytes hfree hok hamount harg hexec))
  refine ⟨?bar, ?barnw, ?rearm, ?rsig, ?noCredit⟩
  case bar => exact fun hok hpart hnew => hgiven hok nofun nofun (State.execHead_bar hok rfl hpart hnew)
  case barnw => exact fun hok hpart hnew => hgiven hok nofun nofun (State.execHead_barnw hok rfl hpart hnew)
  case rearm => exact fun x hok hamount hstream hnone => hgiven hok (fun _ => hamount) nofun (State.execHead_rearm hok rfl hstream hnone)
  case rsig =>
    intro hok hcredit m
    refine (hgiven hok nofun nofun (State.execHead_rsig hok rfl hcredit)).trans ?_
    split <;> rfl
  case noCredit => exact fun hok hcredit => hgiven hok nofun nofun (State.execHead_rsig_noCredit hok rfl hcredit)

end

/-! ### The statement of a tenant's Eddy store on the move -/

section
open Sys2Proof Sys2Proof.Machine

/-- Settles O16: each command passes the tests of its conditions in their order, and a chunk opens under the key of its session before its header
is compared. -/
theorem eddyMoves : Obligations.EddyMoves := by
  unfold Obligations.EddyMoves
  refine ⟨?exported, ?closed, ?begun, ?forged, ?taken⟩
  case exported =>
    intro c l k s hr hfirst hlen n t id hdrained hkey hnone m chunks x st
    refine (cmd_first hr hfirst _).trans ?_
    subst n t
    simp only [hlen, hdrained, hkey, hnone]
    rfl
  case closed =>
    intro tenant x s hr hopen
    show execEddyExportDone tenant s = _
    simp only [execEddyExportDone, gated_runs hr, hopen]
  case begun =>
    intro c l k s hr hfirst hlen n t hdrained hkey hnone x
    refine (cmd_first hr hfirst _).trans ?_
    subst n t
    simp only [hlen, hdrained, hkey, hnone]
    rfl
  case forged =>
    intro c l x s hr hfirst hlen n hopen hforged
    refine (cmd_first hr hfirst _).trans ?_
    subst n
    simp only [hopen, Nat.not_lt.2 hlen, if_false, hforged]
  case taken =>
    intro c l x plain s hr hfirst hlen n b t cls part k count size hopen hplain hmagic hversion hpart hid hcheck hgen hslot hbuckets hsize hindex
      hnew put st y
    have hform : ¬ (leAt b 0 4 ≠ 0x58454445 ∨ leAt b 4 1 ≠ 1 ∨ 12 ≤ part ∨ leAt b 8 4 ≠ x.exportId) := by
      simp [hmagic, hversion, Nat.not_le.2 hpart, hid]
    have hhome : ¬ (leAt b 0x18 4 ≠ keyCheck (n.domKey t) ∨ leAt b 0x16 2 ≠ n.rd .eddyHomeGen t 0 % 65536 ∨ leAt b 0x1C 1 ≠ k.slot ∨
        leAt b 0x1D 1 ≠ k.bucketsLog2) := by
      simp [hcheck, hgen, hslot, hbuckets]
    have hwhole : ¬ (plain.length ≠ count * size ∨
        (List.range count).any (fun i => decide (2 ^ k.bucketsLog2 ≤ leAt plain (i * size) 4)) = true) := by
      simpa [hsize] using hindex
    have hfresh : ¬ x.taken.contains (12 * cls + part, leAt b 0xC 4) = true := Bool.eq_false_iff.1 hnew
    refine (cmd_first hr hfirst _).trans (congrArg (fun r => (.next (State.endCmd c r) : Out)) ?_)
    subst n b t
    simp only [hopen, Nat.not_lt.2 hlen, if_false, hplain]
    exact (if_neg hform).trans ((if_neg hhome).trans ((if_neg hwhole).trans (if_neg hfresh)))

end

/-! SUPPORT. Integer operations of the vector engines: the model's readings of numbers are those of 32-bit words. -/

namespace Sys2Proof.Machine

/-! ### Signed words -/

/-- A signed result that fits a word (R206). -/
def inWord (v : Int) : Prop := -2147483648 ≤ v ∧ v ≤ 2147483647

/-- The nearest signed value of a word. -/
def saturated (v : Int) : Int := max (-2147483648) (min 2147483647 v)

theorem inWord_toInt (a : Word) : inWord a.toInt := ⟨a.le_toInt, a.toInt_le⟩

theorem saturated_eq_self_iff {v : Int} : saturated v = v ↔ inWord v := by
  unfold saturated inWord
  omega

theorem sgn_toNat (a : Word) : sgn 32 a.toNat = a.toInt := by
  have hlt := a.isLt
  rw [BitVec.toInt_eq_toNat_cond]
  simp only [sgn, Nat.mod_eq_of_lt hlt]
  split <;> split <;> omega

theorem wrapI_eq (v : Int) : wrapI 32 v = (BitVec.ofInt 32 v).toNat := (BitVec.toNat_ofInt v).symm

theorem clampI_eq {lo hi : Int} (h : lo ≤ hi) (v : Int) : clampI lo hi v = max lo (min hi v) := by
  unfold clampI
  split
  · omega
  · split <;> omega

/-- A word that holds a value modulo 2³² holds the value itself just where that fits. -/
theorem toInt_eq_iff_inWord {x : Word} {v : Int} (h : x.toInt = v.bmod (2 ^ 32)) : x.toInt = v ↔ inWord v := by
  refine ⟨fun he => he ▸ inWord_toInt x, fun hv => ?_⟩
  obtain ⟨hlo, hhi⟩ := hv
  rw [h]
  exact Int.bmod_eq_of_le hlo (Int.lt_add_one_of_le hhi)

/-! ### Saturation -/

theorem clampI_signed (v : Int) : clampI (-(2 ^ 31 : Nat)) (2 ^ 31 - 1 : Nat) v = saturated v := clampI_eq (by decide) v

theorem satS_fst (v : Int) : (satS v).1 = (BitVec.ofInt 32 (saturated v)).toNat := by
  simp only [satS, clampI_signed, wrapI_eq]

theorem satS_snd (v : Int) : (satS v).2 = 0 ↔ inWord v := by
  rw [← saturated_eq_self_iff, ← clampI_signed]
  unfold satS
  simp [flIov]

/-- A word does not saturate. -/
theorem satS_toInt (a : Word) : (satS a.toInt).1 = a.toNat := by
  rw [satS_fst, saturated_eq_self_iff.2 (inWord_toInt a), BitVec.ofInt_toInt]

/-- The saturating operations raise IOV just where the wrapped result differs. -/
theorem satS_snd_eq_zero_iff {x : Word} {v : Int} (h : x.toInt = v.bmod (2 ^ 32)) : (satS v).2 = 0 ↔ x.toInt = v :=
  (satS_snd v).trans (toInt_eq_iff_inWord h).symm

theorem satU_fst (v : Int) : (satU v).1 = (max 0 (min 4294967295 v)).toNat := by
  simp only [satU, clampI_eq (show (0 : Int) ≤ (2 ^ 32 - 1 : Nat) by decide), wrapI]
  omega

/-! ### Each operation of Table 7.6 on words -/

section
variable (a b : Word)

theorem opSub_toNat : opSub a.toNat b.toNat = ((a - b).toNat, 0) := by
  have ha := a.isLt
  have hb := b.isLt
  rw [opSub, wrapI, BitVec.toNat_sub]
  congr 1
  omega

theorem opAddus_toNat : (opAddus a.toNat b.toNat).1 = min 4294967295 (a.toNat + b.toNat) := by
  rw [opAddus, satU_fst]
  omega

theorem opSubus_toNat : (opSubus a.toNat b.toNat).1 = a.toNat - b.toNat := by
  have ha := a.isLt
  rw [opSubus, satU_fst]
  omega

theorem opMulhs_toNat : ((opMulhs a.toNat b.toNat).1 : Int) = (a.toInt * b.toInt / 2 ^ 32) % 2 ^ 32 := by
  rw [opMulhs, sgn_toNat, sgn_toNat]
  exact Int.toNat_of_nonneg (Int.emod_nonneg _ (by decide))

theorem opMins_toNat : (opMins a.toNat b.toNat).1 = (if a.slt b then a else b).toNat := by
  simp only [opMins, sgn_toNat, BitVec.slt_iff_toInt_lt]
  obtain h | h | h := lt_trichotomy a.toInt b.toInt
  · rw [if_neg h.asymm, if_pos h]
  · rw [BitVec.eq_of_toInt_eq h, ite_self, ite_self]
  · rw [if_pos h, if_neg h.asymm]

theorem opMaxs_toNat : (opMaxs a.toNat b.toNat).1 = (if a.slt b then b else a).toNat := by
  simp only [opMaxs, sgn_toNat, BitVec.slt_iff_toInt_lt]
  split <;> rfl

/-- The one word whose absolute value does not fit saturates. -/
theorem opAbs_toNat : (opAbs a.toNat).1 = (if a = 0x80000000#32 then 0x7FFFFFFF#32 else a.abs).toNat := by
  split
  next h =>
    subst h
    rfl
  next h =>
    have habs : a.abs.toInt = a.toInt.natAbs := BitVec.toInt_abs_eq_natAbs_of_ne_intMin h
    rw [opAbs, sgn_toNat, ← habs, satS_toInt]

theorem opDivu_toNat : opDivu a.toNat b.toNat = if b = 0 then (0, 4) else ((a / b).toNat, 0) := by
  have hzero : b.toNat = 0 ↔ b = 0 := BitVec.toNat_inj (y := 0)
  simp only [opDivu, hzero]
  rfl

/-- The one quotient that does not fit saturates; a division by 0 gives 0, as `BitVec.sdiv` does. -/
theorem opDivs_toNat : (opDivs a.toNat b.toNat).1 =
    (if a = 0x80000000#32 ∧ b = 0xFFFFFFFF#32 then 0x7FFFFFFF#32 else a.sdiv b).toNat := by
  by_cases hb : b = 0
  · subst hb
    have hne : (0 : Word) ≠ 0xFFFFFFFF#32 := by decide
    rw [if_neg fun ⟨_, h⟩ => hne h]
    exact congrArg BitVec.toNat BitVec.sdiv_zero.symm
  · have hb' : b.toNat ≠ 0 := fun h => hb (BitVec.eq_of_toNat_eq h)
    rw [opDivs, if_neg hb', sgn_toNat, sgn_toNat]
    split
    next h =>
      obtain ⟨rfl, rfl⟩ := h
      rfl
    next h =>
      have hdiv : (a.sdiv b).toInt = a.toInt.tdiv b.toInt := BitVec.toInt_sdiv_of_ne_or_ne a b (not_and_or.1 h)
      rw [← hdiv, satS_toInt]

theorem opAndn_toNat : (opAndn a.toNat b.toNat).1 = (a &&& ~~~b).toNat := by
  rw [BitVec.toNat_and, BitVec.toNat_not]
  rfl

theorem opShl_toNat (n : Nat) : (opShl a.toNat n).1 = (a <<< (n % 32)).toNat := by
  rw [BitVec.toNat_shiftLeft, Nat.shiftLeft_eq]
  rfl

theorem opShr_toNat (n : Nat) : (opShr a.toNat n).1 = (a >>> (n % 32)).toNat := by
  rw [BitVec.toNat_ushiftRight, Nat.shiftRight_eq_div_pow]
  rfl

theorem opSar_toNat (n : Nat) : (opSar a.toNat n).1 = (a.sshiftRight (n % 32)).toNat := by
  rw [opSar, sgn_toNat, wrapI_eq, BitVec.sshiftRight, Int.shiftRight_eq_div_pow]

end

end Sys2Proof.Machine

/-! ### The statement of the integer results -/

section
open Sys2Proof Sys2Proof.Machine

/-- Settles O20: the model reads numbers as words do, and a saturating result is its word where it fits. -/
theorem veIntegerResults : Obligations.VeIntegerResults := by
  unfold Obligations.VeIntegerResults
  intro a b
  have hadds : opAdds a.toNat b.toNat = satS (a.toInt + b.toInt) := by rw [opAdds, sgn_toNat, sgn_toNat]
  have hsubs : opSubs a.toNat b.toNat = satS (a.toInt - b.toInt) := by rw [opSubs, sgn_toNat, sgn_toNat]
  rw [hadds, hsubs]
  exact ⟨rfl, opSub_toNat a b, satS_fst _, satS_snd_eq_zero_iff (BitVec.toInt_add a b), satS_fst _, satS_snd_eq_zero_iff BitVec.toInt_sub,
    opAddus_toNat a b, opSubus_toNat a b, rfl, rfl, opMulhs_toNat a b, opMins_toNat a b, opMaxs_toNat a b, opAbs_toNat a, opDivu_toNat a b,
    opDivs_toNat a b, rfl, rfl, rfl, opAndn_toNat a b, opShl_toNat a _, opShr_toNat a _, opSar_toNat a _⟩

end

/-! SUPPORT. Vector engines: what a command makes of the run of its engine, and the lanes at the start of a run. -/

namespace Sys2Proof.Machine

/-! ### An engine's run in the state -/

section
variable {s t : State} {hub engine op : Nat} {r : VeRun}

/-- A hub die with a run is one of those that the state holds. -/
theorem State.lt_of_veRun (h : (s.veHub hub).runs.find? engine = some r) : hub < s.ve.length := by
  by_contra hout
  have hnone : s.veHub hub = {} := List.getD_eq_default _ _ (Nat.not_lt.1 hout)
  rw [hnone] at h
  cases h

theorem State.veRun_ranTo_self (h : (s.veHub hub).runs.find? engine = some r) (q : VeRun) :
    ((s.ranTo hub engine q).veHub hub).runs.find? engine = some q := by
  rw [State.ranTo, State.veHub_setVe, if_pos ⟨rfl, State.lt_of_veRun h⟩, SMap.find_put_self]

theorem State.veRun_ranTo_ne {h e : Nat} (hne : h ≠ hub ∨ e ≠ engine) (q : VeRun) :
    ((s.ranTo hub engine q).veHub h).runs.find? e = (s.veHub h).runs.find? e := by
  rw [State.ranTo, State.veHub_setVe]
  split
  next hin =>
    obtain ⟨rfl, -⟩ := hin
    exact SMap.find_put_ne _ _ _ _ (hne.resolve_left (not_not_intro rfl))
  next => rfl

@[simp] theorem State.batches_ranTo (h : Nat) (q : VeRun) : ((s.ranTo hub engine q).veHub h).batches = (s.veHub h).batches := by
  rw [State.ranTo, State.veHub_setVe]
  split
  next hin =>
    obtain ⟨rfl, -⟩ := hin
    rfl
  next => rfl

/-! ### What a command makes of a run -/

/-- The common form of the vector engines' instructions: an engine that stands at the opcode goes on with a run made of its own; any other stays. -/
def State.veAdvance (s : State) (hub engine op : Nat) (g : VeRun → VeRun) : Out :=
  match (s.veHub hub).runs.find? engine with
  | none => .next s
  | some r => if r.prog.code.length ≤ r.pc ∨ r.ins.op ≠ op then .next s else .next (s.ranTo hub engine (g r))

theorem State.veAdvance_at (h : s.runAt hub engine op r) (g : VeRun → VeRun) :
    s.veAdvance hub engine op g = .next (s.ranTo hub engine (g r)) := by
  obtain ⟨hrun, hpc, hop⟩ := h
  simp only [State.veAdvance, hrun]
  exact if_neg (by simp [hop, hpc])

/-- A lane operation takes the run one instruction on (R200). -/
theorem State.veExec_eq_veAdvance (f : LoopFrame → VIns → Lane → Lane) :
    s.veExec hub engine op f = s.veAdvance hub engine op (·.stepped f) := rfl

/-- The next state is the same, or the engine stood at the opcode and has gone on. -/
theorem State.veAdvance_next {g : VeRun → VeRun} (h : s.gated (s.veAdvance hub engine op g) = .next t) :
    t = s ∨ ∃ r, s.runAt hub engine op r ∧ t = s.ranTo hub engine (g r) := by
  obtain ⟨-, h⟩ | ⟨-, rfl⟩ := gated_next h
  · unfold State.veAdvance at h
    split at h
    next => cases h; exact .inl rfl
    next r hrun =>
      split at h
      next => cases h; exact .inl rfl
      next hat =>
        obtain ⟨hpc, hop⟩ := not_or.1 hat
        cases h
        exact .inr ⟨r, ⟨hrun, Nat.not_le.1 hpc, Decidable.not_not.1 hop⟩, rfl⟩
  · exact .inl rfl

/-- An engine with a run keeps it, or goes on from it. -/
theorem State.veAdvance_next_of_run {g : VeRun → VeRun} (hrun : (s.veHub hub).runs.find? engine = some r)
    (h : s.gated (s.veAdvance hub engine op g) = .next t) : t = s ∨ t = s.ranTo hub engine (g r) := by
  obtain h | ⟨r', ⟨hrun', -, -⟩, h⟩ := State.veAdvance_next h
  · exact .inl h
  · obtain rfl := Option.some.inj (hrun.symm.trans hrun')
    exact .inr h

/-- The run past a LOOP (R209). -/
def VeRun.opened (r : VeRun) : VeRun :=
  { r with
    pc := r.pc + 1
    cycles := r.cycles + 1
    loops := { start := r.pc + 1, count := bits r.ins.imm 11 0 + 1, bstride := bits r.ins.imm 21 12, istride := bits r.ins.imm 29 22 } :: r.loops }

/-- The three fields of a LOOP's IMM in numbers (R209). -/
theorem VeRun.opened_eq (r : VeRun) : r.opened = { r with
    pc := r.pc + 1
    cycles := r.cycles + 1
    loops := { start := r.pc + 1, i := 0, count := r.ins.imm % 4096 + 1, bstride := r.ins.imm / 2 ^ 12 % 1024,
               istride := r.ins.imm / 2 ^ 22 % 256 } :: r.loops } := by
  simp [VeRun.opened, bits]

/-- The run past an ENDL (R209). -/
def VeRun.closed (r : VeRun) : VeRun :=
  match r.loops with
  | [] => { r with pc := r.pc + 1 }
  | fr :: rest =>
    if fr.i + 1 < fr.count then { r with pc := fr.start, loops := { fr with i := fr.i + 1 } :: rest }
    else { r with pc := r.pc + 1, loops := rest }

theorem VeRun.closed_of_loop {fr : LoopFrame} {rest : List LoopFrame} (h : r.loops = fr :: rest) :
    r.closed = if fr.i + 1 < fr.count then { r with pc := fr.start, loops := { fr with i := fr.i + 1 } :: rest }
      else { r with pc := r.pc + 1, loops := rest } := by
  simp only [VeRun.closed, h]

@[simp] theorem VeRun.closed_lanes (r : VeRun) : r.closed.lanes = r.lanes := by
  unfold VeRun.closed
  split
  · rfl
  · split <;> rfl

theorem exec_veLoop (hub engine : Nat) (s : State) : exec (.veLoop hub engine) s = s.gated (s.veAdvance hub engine 0x02 VeRun.opened) := rfl
theorem exec_veEndl (hub engine : Nat) (s : State) : exec (.veEndl hub engine) s = s.gated (s.veAdvance hub engine 0x03 VeRun.closed) := rfl

/-- Every instruction that heeds guards is a lane operation at one opcode (R200). -/
theorem veGuarded_exec : ∀ c ∈ veGuarded, ∃ op f, ∀ hub engine s,
    exec (c hub engine) s = s.gated (s.veExec hub engine op f) := by
  simp only [veGuarded, List.forall_mem_append, List.forall_mem_cons, List.not_mem_nil, false_implies, implies_true, and_true]
  and_intros <;> exact ⟨_, _, fun _ _ _ => rfl⟩

/-- LOOP and ENDL leave the lanes (R200, R209). -/
theorem veLoops_exec : ∀ c ∈ ([.veLoop, .veEndl] : List (Nat → Nat → Instr)), ∃ op g, (∀ r, VeRun.lanes (g r) = r.lanes) ∧
    ∀ hub engine s, exec (c hub engine) s = s.gated (s.veAdvance hub engine op g) := by
  simp only [List.forall_mem_cons, List.not_mem_nil, false_implies, implies_true, and_true]
  exact ⟨⟨0x02, VeRun.opened, fun _ => rfl, exec_veLoop⟩, ⟨0x03, VeRun.closed, VeRun.closed_lanes, exec_veEndl⟩⟩

theorem veCommands_exec : ∀ c ∈ veGuarded ++ [.veLoop, .veEndl], ∃ op g, ∀ hub engine s,
    exec (c hub engine) s = s.gated (s.veAdvance hub engine op g) := by
  rw [List.forall_mem_append]
  constructor
  · intro c hc
    obtain ⟨op, f, h⟩ := veGuarded_exec c hc
    exact ⟨op, (·.stepped f), h⟩
  · intro c hc
    obtain ⟨op, g, -, h⟩ := veLoops_exec c hc
    exact ⟨op, g, h⟩

/-! ### Lanes whose guard is false -/

theorem VeRun.stepped_lane_of_unguarded {f : LoopFrame → VIns → Lane → Lane} {k : Nat} {l : Lane} (hl : r.lanes[k]? = some l)
    (hg : l.guard r.ins = false) : (r.stepped f).lanes[k]? = some l := by
  simp [VeRun.stepped, hl, hg]

end

/-- The load check refuses a LOOP or ENDL that names a guard (R209). -/
theorem insR209_of_guarded_loop {i : VIns} (inner : Option (Nat × Nat)) (hop : i.op = 0x02 ∨ i.op = 0x03) (hg : i.pg ≠ 0 ∨ i.pn ≠ 0) :
    insR209 i inner = false := by
  have hloop : ((i.op == 0x02 || i.op == 0x03) && (i.pg != 0 || i.pn != 0)) = true := by simpa using ⟨hop, hg⟩
  simp only [insR209, hloop, Bool.not_true, Bool.and_false, Bool.false_and]

/-! ### Lanes at the start of a run (R198) -/

theorem nth_replicate {α : Type} (n i : Nat) (a : α) : nth (List.replicate n a) i a = a := by simp [nth]

theorem nth_replicate_of_lt {α : Type} {n i : Nat} (hi : i < n) (a d : α) : nth (List.replicate n a) i d = a := List.getD_replicate _ hi

section
variable (s : State) (e : RecEnt) (p : VProg) (finish : Bool)

/-- The registers start clear whatever the program's kind, and so do the predicates and the flags. -/
@[simp] theorem State.startLane_reg (i : Nat) : (s.startLane e p finish).reg i = (0, false) := by
  have hv : (s.startLane e p finish).v = List.replicate 32 (0, false) := by cases finish <;> rfl
  rw [Lane.reg, hv, nth_replicate, ite_self]

@[simp] theorem State.startLane_pred {i : Nat} (hi : i ≠ 0) : (s.startLane e p finish).pred i = false := by
  have hp : (s.startLane e p finish).p = List.replicate 8 false := by cases finish <;> rfl
  rw [Lane.pred, if_neg hi, hp, nth_replicate]

@[simp] theorem State.startLane_flags : (s.startLane e p finish).flags = 0 := by cases finish <;> rfl

theorem State.startLane_carry {i : Nat} (hi : i < 16) (d : VReg) : nth (s.startLane e p false).carry i d = (0, false) :=
  nth_replicate_of_lt hi _ d

end

/-- Unless the program starts from the record's own vector, every feature starts missing. -/
theorem startFeats_missing {ft : FTable} {p : VProg} {e : RecEnt} (h : bit p.flags 0 = false ∨ e.keys ≠ []) :
    startFeats ft p e = List.replicate ft.length (0, true) := by
  refine if_neg ?_
  rw [Bool.and_eq_true, List.isEmpty_iff]
  rintro ⟨hbit, hkeys⟩
  obtain h | h := h
  · exact Bool.false_ne_true (h.symm.trans hbit)
  · exact h hkeys

/-- A program with flag 0, on a record without keys, starts from the values and the mask of the payload. -/
theorem nth_startFeats {ft : FTable} {p : VProg} {e : RecEnt} (hbit : bit p.flags 0 = true) (hkeys : e.keys = []) {f : Nat} (hf : f < ft.length)
    (d : Nat × Bool) : nth (startFeats ft p e) f d =
      (leAt e.r.payload (featOffset ft f) (featWidth (nth ft f 0)), bit (leAt e.r.payload (featBytes ft + f / 8) 1) (f % 8)) := by
  simp [startFeats, hbit, hkeys, nth, hf]

end Sys2Proof.Machine

/-! ### The statements of the vector engines' runs and instructions -/

section
open Sys2Proof Sys2Proof.Machine

/-- Settles O17: each command's condition is its hypotheses, and a lane starts with all that it holds clear. -/
theorem veRunsGo : Obligations.VeRunsGo := by
  unfold Obligations.VeRunsGo
  refine ⟨?due, ?launched, ?completed, ?spare, ?loop, ?endl, carriesOut_of fun _ _ _ => rfl, ?lane⟩
  case due =>
    intro hub batch b s hr hbatch hpast
    show execVeBatchWaitExpiry hub batch s = _
    simp only [execVeBatchWaitExpiry, gated_runs hr, hbatch]
    exact if_neg (Nat.not_lt.2 hpast)
  case launched =>
    intro hub engine batch i b e es s hr hbatch hfree hnone hnext havoid hrecs p run n
    have htakes : ¬ ((s.engine hub engine).state ≠ 0 ∨ ((s.veHub hub).runs.find? engine).isSome = true ∨ s.nextBatch hub b = false ∨
        s.avoided hub engine b = true) := by
      simp [hfree, hnone, hnext, havoid]
    show execVeBatchLaunch hub engine batch s = _
    simp only [execVeBatchLaunch, gated_runs hr, hbatch, hrecs]
    exact if_neg htakes
  case completed =>
    intro hub engine r s hr hrun hend n
    show execVeBatchComplete hub engine s = _
    simp only [execVeBatchComplete, gated_runs hr, hrun]
    exact if_neg (Nat.not_lt.2 hend)
  case spare =>
    intro hub engine v s hr hloading n
    show execVeSpareIn hub engine s = _
    simp only [execVeSpareIn, gated_runs hr, hloading]
    split <;> rfl
  case loop =>
    intro hub engine r s hr hat fr
    rw [exec_veLoop, gated_runs hr, State.veAdvance_at hat, VeRun.opened_eq]
  case endl =>
    intro hub engine r fr rest s hr hat hopen
    rw [exec_veEndl, gated_runs hr, State.veAdvance_at hat, VeRun.closed_of_loop hopen]
  case lane =>
    intro e p finish s l ft
    refine ⟨fun i _ _ => s.startLane_reg e p finish i, fun i hi _ => s.startLane_pred e p finish (Nat.one_le_iff_ne_zero.1 hi),
      s.startLane_flags e p finish, ?carry, ?missing, ?vector⟩
    case carry =>
      rintro rfl i hi
      exact s.startLane_carry e p hi _
    case missing =>
      rintro rfl h
      exact startFeats_missing h
    case vector =>
      rintro rfl hbit hkeys f hf
      exact nth_startFeats hbit hkeys hf _

/-- Settles O18: each command executes its opcode with the operation of Table 7.6. -/
theorem veArithmetic : Obligations.VeArithmetic := by
  unfold Obligations.VeArithmetic
  and_intros <;> exact carriesOut_of fun _ _ _ => rfl

/-- Settles O19: each command executes its opcode with its lane operation. -/
theorem veLaneOps : Obligations.VeLaneOps := by
  unfold Obligations.VeLaneOps
  and_intros <;> exact carriesOut_of fun _ _ _ => rfl

/-- Settles O57: a guarded instruction maps the lanes of its run and leaves those whose guard is false; LOOP and ENDL leave all lanes. -/
theorem falseGuardDoesNothing : Obligations.FalseGuardDoesNothing := by
  unfold Obligations.FalseGuardDoesNothing
  refine ⟨?guarded, ?loops, fun i inner => insR209_of_guarded_loop inner⟩
  case guarded =>
    intro c hc hub engine r s t hr hrun hexec
    obtain ⟨op, f, hc⟩ := veGuarded_exec c hc
    rw [hc, State.veExec_eq_veAdvance] at hexec
    obtain rfl | rfl := State.veAdvance_next_of_run hrun hexec
    · exact .inl rfl
    · exact .inr ⟨r.stepped f, State.veRun_ranTo_self hrun _, rfl, List.length_map _, fun k l => VeRun.stepped_lane_of_unguarded⟩
  case loops =>
    intro c hc hub engine r s t hr hrun hexec
    obtain ⟨op, g, hlanes, hc⟩ := veLoops_exec c hc
    rw [hc] at hexec
    obtain rfl | rfl := State.veAdvance_next_of_run hrun hexec
    · exact ⟨r, hrun, rfl⟩
    · exact ⟨g r, State.veRun_ranTo_self hrun _, hlanes r⟩

/-- Settles O58: every instruction leaves the state or replaces the run of its engine. -/
theorem veCommandsFrame : Obligations.VeCommandsFrame := by
  unfold Obligations.VeCommandsFrame
  intro c hc hub engine s t hexec
  obtain ⟨op, g, hc⟩ := veCommands_exec c hc
  rw [hc] at hexec
  obtain rfl | ⟨r, -, rfl⟩ := State.veAdvance_next hexec
  · exact ⟨⟨_, rfl⟩, fun _ => rfl, fun _ _ _ => rfl⟩
  · exact ⟨⟨_, rfl⟩, fun h => State.batches_ranTo h _, fun h e hne => State.veRun_ranTo_ne hne _⟩

end

/-! SUPPORT. Traversal: what an EVAL does once its instruction stands on the unit, and when a command of a scoring die may act. -/

namespace Sys2Proof.Machine

/-! ### An instruction as it starts -/

/-- What an instruction that has just come to its unit does there (R234, R236, R243, R262): a tile evaluates the trees that have reached the leaf path
and the spilled tree that stands in the window, a match unit the selectors. -/
def State.startIns (n : State) (c : EvalCtx) (ups : Upsets) (t : TileIns) (ready : List Nat) : Out :=
  let q := n.evalTrees c t ready
  if t.unit < 66 then
    match q.1.windowTree c q.2 with
    | some i => .next ((q.1.evalTree c q.2 i).1.putIns { (q.1.evalTree c q.2 i).2 with spills := (q.1.evalTree c q.2 i).2.spills.filter (· ≠ i) })
    | none => .next (q.1.putIns q.2)
  else
    match n.evalSels c ups t ready with
    | (m, some u) => .next (m.putIns u).trimBufs
    | (m, none) => .next m

section
variable {n m : State} {c : EvalCtx} {ups : Upsets} {t u : TileIns} {ready : List Nat}

/-- A tile with no spilled tree of the instruction in its window leaves the spilled trees waiting. -/
theorem State.startIns_tile (hunit : t.unit < 66) (hwindow : (n.evalTrees c t ready).1.windowTree c (n.evalTrees c t ready).2 = none) :
    n.startIns c ups t ready = .next ((n.evalTrees c t ready).1.putIns (n.evalTrees c t ready).2) := by
  simp only [State.startIns, if_pos hunit, hwindow]

/-- A tile meets the spilled tree of the instruction that stands in its window. -/
theorem State.startIns_window {i : Nat} (hunit : t.unit < 66)
    (hwindow : (n.evalTrees c t ready).1.windowTree c (n.evalTrees c t ready).2 = some i) :
    let q := n.evalTrees c t ready
    n.startIns c ups t ready =
      .next ((q.1.evalTree c q.2 i).1.putIns { (q.1.evalTree c q.2 i).2 with spills := (q.1.evalTree c q.2 i).2.spills.filter (· ≠ i) }) := by
  simp only [State.startIns, if_pos hunit, hwindow]

/-- A match unit whose searches end well keeps the instruction with their sums. -/
theorem State.startIns_unit (hunit : 66 ≤ t.unit) (hsels : n.evalSels c ups t ready = (m, some u)) :
    n.startIns c ups t ready = .next (m.putIns u).trimBufs := by
  simp only [State.startIns, if_neg (Nat.not_lt.2 hunit), hsels]

/-- A match unit with an uncorrectable disagreement leaves what that has led to (R273). -/
theorem State.startIns_failed (hunit : 66 ≤ t.unit) (hsels : n.evalSels c ups t ready = (m, none)) :
    n.startIns c ups t ready = .next m := by
  simp only [State.startIns, if_neg (Nat.not_lt.2 hunit), hsels]

end

/-! ### An instruction that may end -/

/-- An instruction that has met its spilled trees and whose pooled units are drained waits for neither (R234). -/
theorem TileIns.not_waiting {t : TileIns} (hspills : t.spills = []) (hpooled : t.pooled = 0) : ¬ ((!t.spills.isEmpty) = true ∨ t.pooled ≠ 0) := by
  simp [hspills, hpooled]

end Sys2Proof.Machine

/-! ### The statements of traversal -/

section
open Sys2Proof Sys2Proof.Machine

/-- Settles O25: a unit that was loading comes into service as the spare or the host that it was loaded for, and neither a bad bundle nor a set that
has come meanwhile stands against it. -/
theorem sparesServe : Obligations.SparesServe := by
  unfold Obligations.SparesServe
  refine ⟨?tileSpare, ?tileHost, ?muSpare, ?muHost⟩
  case tileSpare =>
    intro die tile sl s hr hloading hspare hgood
    show execTileSpareLoaded die tile s = _
    simp only [execTileSpareLoaded, gated_runs hr, hloading]
    exact (if_neg (not_not_intro hspare)).trans (if_neg (Bool.eq_false_iff.1 hgood))
  case tileHost =>
    intro die tile sl s hr hloading hactive hcan
    show execTileSlotRemapped die tile s = _
    simp only [execTileSlotRemapped, gated_runs hr, hloading]
    exact (if_neg (not_not_intro hactive)).trans (if_neg (ne_false_of_eq_true hcan))
  case muSpare =>
    intro die unit l s hr hloading hspare hgood
    show execMuSpareLoaded die unit s = _
    simp only [execMuSpareLoaded, gated_runs hr, hloading]
    exact (if_neg (not_not_intro hspare)).trans (if_neg (Bool.eq_false_iff.1 hgood))
  case muHost =>
    intro die unit l s hr hloading hactive hcan
    show execMuRemapped die unit s = _
    simp only [execMuRemapped, gated_runs hr, hloading]
    exact (if_neg (not_not_intro hactive)).trans (if_neg (ne_false_of_eq_true hcan))

/-- Settles O21: EVAL takes what it needs all at once, puts its instruction on the unit, and lets that start. -/
theorem evalRuns : Obligations.EvalRuns := by
  unfold Obligations.EvalRuns
  refine ⟨?starts, ?lacks⟩
  case starts =>
    intro die unit hub ent phys acc opt order ups x y e run s w hr hrec hent hrun c hphys htodo hreplica hbank hacc hvector
      r sp chip ready set hosted t a n q
    have hmay : ¬ (unit ∉ x.todo ∨ s.replicaOk c.m x.ens run.replica = false) := by simp [htodo, hreplica]
    have hstarts : exec (.eval die unit hub ent opt order ups) s = n.startIns c ups t ready := by
      show execEval die unit hub ent opt order ups s = _
      simp only [execEval, gated_runs hr, hrec, hent, hrun]
      simp only [c] at hphys hmay hvector
      simp only [hphys, if_neg hmay, hbank, hacc, hvector]
      rfl
    refine ⟨?tile, ?window, ?unit, ?failed⟩
    case tile => exact fun hunit hwindow => hstarts.trans (State.startIns_tile hunit hwindow)
    case window => exact fun i hunit hwindow => hstarts.trans (State.startIns_window hunit hwindow)
    case unit => exact fun m u hunit hsels => hstarts.trans (State.startIns_unit hunit hsels)
    case failed => exact fun m hunit hsels => hstarts.trans (State.startIns_failed hunit hsels)
  case lacks =>
    intro die unit hub ent phys opt order ups x e run s hr hrec hent hrun hphys hlacks
    show execEval die unit hub ent opt order ups s = _
    simp only [execEval, gated_runs hr, hrec, hent, hrun, hphys]
    split
    · rfl
    · split
      next hbank hacc hvector => exact absurd hlacks (by simp [hbank, hacc, hvector])
      next => rfl

/-- Settles O22: an instruction of the current generation ends once it waits for no tree and no pooled unit, and its sums are added where its
generation is that of the die's entry; one of an old generation takes no part. -/
theorem dieSumsPass : Obligations.DieSumsPass := by
  unfold Obligations.DieSumsPass
  refine ⟨?tile, ?old, ?unit, ?preload, ?drain, ?drainOld, fun die unit hub ent opt s hr => gated_runs hr _⟩
  case tile =>
    intro die unit hub ent opt t e s hr hunit hins hent hnow hspills hpooled hfree
    show execEvalComplete die unit hub ent opt s = _
    simp only [execEvalComplete, gated_runs hr, hins, hent]
    rw [if_neg (ne_false_of_eq_true hnow), if_neg (TileIns.not_waiting hspills hpooled), if_pos hunit, if_neg (ne_false_of_eq_true hfree)]
  case old =>
    intro die unit hub ent opt t e s hr hins hent hold
    show execEvalComplete die unit hub ent opt s = _
    simp only [execEvalComplete, gated_runs hr, hins, hent]
    exact if_pos hold
  case unit =>
    intro die unit hub ent opt t u e s m hr hunit hins hent hnow hspills hpooled hsels
    show execEvalComplete die unit hub ent opt s = _
    simp only [execEvalComplete, gated_runs hr, hins, hent]
    rw [if_neg (ne_false_of_eq_true hnow), if_neg (TileIns.not_waiting hspills hpooled), if_neg (Nat.not_lt.2 hunit)]
    simp only [hsels]
  case preload =>
    intro die hub ent opt x y e run s hr hrec hent hrun hneed hbank
    show execPreload die hub ent opt s = _
    simp only [execPreload, gated_runs hr, hrec, hent, hrun, hbank]
    exact if_neg (ne_false_of_eq_true hneed)
  case drain =>
    intro die unit hub ent opt t x s hr hins hrec hgen hneed left n
    show execDrain die unit hub ent opt s = _
    simp only [execDrain, gated_runs hr, hins, hrec]
    rw [if_neg (not_not_intro hgen), if_neg (Bool.eq_false_iff.1 hneed)]
    subst n left
    cases t.pool <;> rfl
  case drainOld =>
    intro die unit hub ent opt t x s hr hins hrec hold
    show execDrain die unit hub ent opt s = _
    simp only [execDrain, gated_runs hr, hins, hrec]
    exact if_pos hold

/-- Settles O23: a pooling tile passes every test of R235, the stream of a filled window goes on to its next tree, and a partial of the run that waits
for its die is added, the last of them completing the stage. -/
theorem diesReturn : Obligations.DiesReturn := by
  unfold Obligations.DiesReturn
  refine ⟨?pool, ?window, ?partialReturn⟩
  case pool =>
    intro die tile owner hub ent first count acc opt t x e sl s hr hins hent hrec hgen hnow hfast hon hactive hfree hheld hslot hidle hmost htake
      hother hunit hacc take
    have hbusiest : (List.range 66).all (fun p => decide (s.pendingPairs die p t < s.pendingPairs die owner t) ||
        (decide (s.pendingPairs die p t = s.pendingPairs die owner t) && decide (owner ≤ p))) = true := by simpa using hmost
    show execPoolUnitTake die tile owner hub ent opt first count s = _
    simp only [execPoolUnitTake, gated_runs hr, hins, hent, hrec, hacc, hactive, hfree, hheld, hslot, hidle, hbusiest]
    exact if_neg (by simp only [List.isEmpty_eq_false_iff.2 htake]; simp [hfast, hon, hother, hunit, hgen, hnow])
  case window =>
    intro die unit idx h st x s hr hfilled
    show execSpillWindowFilled die unit idx s = _
    simp only [execSpillWindowFilled, gated_runs hr, hfilled]
  case partialReturn =>
    intro die hub p e x s hr hpart n hent hstream hopt hgen hrgen hrstream hissued hleft run en o
    show execDiePartialReturn die hub s = _
    have hrun : e.runOf none = some e.run := rfl
    have hcounts : ¬ (x.gen ≠ p.gen ∨ e.run.gen ≠ p.gen ∨ e.run.stream ≠ p.stream ∨ e.run.issued = false ∨ die ∉ e.run.left) := by
      simp [hgen, hrgen, hrstream, hissued, hleft]
    simp only [execDiePartialReturn, gated_runs hr, hpart]
    simp only [n] at hent hstream
    simp only [hent, hstream, hopt, hrun, if_neg hcounts]
    subst run en o n
    cases (e.run.left.erase die).isEmpty <;> rfl

end

/-! SUPPORT. Rule searches: whether a replica of a table is left, and what the record's change keeps of the state. -/

namespace Sys2Proof.Machine

section
variable {s : State} {m : ModelSet} {table : Nat}

/-- The test of R266 for a table that no replica serves any more. -/
theorem State.tableLost_all : (List.range (m.tableReplicas table)).all (fun r => s.tableLost m table r) = true ↔
    ∀ k < m.tableReplicas table, s.tableLost m table k = true := by
  simp only [List.all_eq_true, List.mem_range]

/-- A replica that is left keeps the search from FAULT_RETRY (R266). -/
theorem State.not_tableLost_all (h : ∃ k < m.tableReplicas table, s.tableLost m table k = false) :
    ¬ (List.range (m.tableReplicas table)).all (fun r => s.tableLost m table r) = true := by
  obtain ⟨k, hk, hleft⟩ := h
  exact fun hall => ne_true_of_eq_false hleft (State.tableLost_all.1 hall k hk)

end

/-- A record at its place leaves the epochs as they are. -/
@[simp] theorem State.setEnt_epochOf (s : State) (hub ent : Nat) (e : RecEnt) (t : Nat) : (s.setEnt hub ent e).epochOf t = s.epochOf t := rfl

end Sys2Proof.Machine

/-! ### The statement of rule searches and the scrub -/

section
open Sys2Proof Sys2Proof.Machine

/-- Settles O24: a search with a replica left and room there passes its tests and ends as its parts combine, one with none left ends its record, and a
scrub goes on to the next row and reports a row other than its copy. -/
theorem rulesSearched : Obligations.RulesSearched := by
  unfold Obligations.RulesSearched
  refine ⟨?search, ?lost, ?scrub⟩
  case search =>
    intro hub ent slot r ups x e f parts s n hr hent hsearch m inst hleft hreplica hroom w hparts hent' y
    show execRuleSearch hub ent slot ups s = _
    simp only [execRuleSearch, gated_runs hr, hent, hsearch]
    simp only [m, inst, w] at hleft hreplica hroom hparts
    rw [if_neg (State.not_tableLost_all hleft)]
    simp only [hreplica, if_neg (ne_false_of_eq_true hroom), State.setEnt_epochOf, hparts, hent']
    subst y m
    cases combineParts parts <;> rfl
  case lost =>
    intro hub ent slot ups x e s hr hent hsearch hlost
    show execRuleSearch hub ent slot ups s = _
    simp only [execRuleSearch, gated_runs hr, hent, hsearch]
    exact if_pos (State.tableLost_all.2 hlost)
  case scrub =>
    intro die unit upset s hr hunit hserves hready a n k
    have hscrubs : ¬ ((s.mu die unit).state = 3 ∨ (s.mu die unit).resetting = true ∨ 9 ≤ unit) := by
      simp [hserves, hready, hunit]
    show execMuScrubCompare die unit upset s = _
    simp only [execMuScrubCompare, gated_runs hr, if_neg hscrubs]
    cases upset with
    | none => rw [if_pos (Or.inl rfl)]
    | some row =>
      by_cases hrow : row = n.copyRow die unit a
      · rw [if_pos (Or.inr (congrArg some hrow))]
        exact if_pos hrow
      · rw [if_neg (by simp [hrow])]
        exact if_neg hrow

end

/-! SUPPORT. Distributary: when a settlement may open and when its ordered procedure may end (R310, R317). -/

namespace Sys2Proof.Machine

section
variable {s : State} {tenant epoch : Nat}

/-- Nothing bars the opening between its tick and the close (R310). -/
theorem State.not_settleOpen_barred (hopen : s.settleOpenAt epoch ≤ s.now) (hclose : s.now < s.settleCloseAt epoch)
    (hnone : s.settlement? tenant epoch = none) (htenant : tenant < 4) :
    ¬ (s.now < s.settleOpenAt epoch ∨ s.settleCloseAt epoch ≤ s.now ∨ (s.settlement? tenant epoch).isSome = true ∨ 4 ≤ tenant) := by
  rintro (hearly | hclosed | hopened | hbeyond)
  · exact Nat.not_lt.2 hopen hearly
  · exact Nat.not_le.2 hclose hclosed
  · simp [hnone] at hopened
  · exact Nat.not_le.2 htenant hbeyond

/-- An ordered procedure that is under way past the opening tick ends once its cycles are over on both hub dies (R317). -/
theorem State.not_orderedEnd_barred {x : Settlement} (hended : x.ended = false) (hopen : s.settleOpenAt epoch < s.now)
    (hcycles : ∀ h < 2, nth x.endAt h 0 ≤ s.hubCycles h) :
    ¬ (x.ended = true ∨ s.now ≤ s.settleOpenAt epoch ∨ s.hubCycles 0 < nth x.endAt 0 0 ∨ s.hubCycles 1 < nth x.endAt 1 0) := by
  rintro (hover | hearly | hhub0 | hhub1)
  · exact ne_true_of_eq_false hended hover
  · exact Nat.not_le.2 hopen hearly
  · exact Nat.not_lt.2 (hcycles 0 (by decide)) hhub0
  · exact Nat.not_lt.2 (hcycles 1 (by decide)) hhub1

end

end Sys2Proof.Machine

/-! ### The statement of settlement -/

section
open Sys2Proof Sys2Proof.Machine

/-- Settles O27: each command passes its test; a late part waits only for one to its destination that left less than 256 hub cycles ago. -/
theorem epochsSettle : Obligations.EpochsSettle := by
  unfold Obligations.EpochsSettle
  refine ⟨?opens, ?ordered, ?late, ?part, ?closes⟩
  case opens =>
    intro tenant epoch s hr hopen hclose hnone htenant
    show execSettlementOpen tenant epoch s = _
    simp only [execSettlementOpen, gated_runs hr]
    exact if_neg (State.not_settleOpen_barred hopen hclose hnone htenant)
  case ordered =>
    intro tenant epoch x s hr hx hended hopen hcycles
    show execOrderedProcedureEnd tenant epoch s = _
    simp only [execOrderedProcedureEnd, gated_runs hr, hx]
    exact if_neg (State.not_orderedEnd_barred hended hopen hcycles)
  case late =>
    intro tenant epoch x y l s hr hx hended hlate
    show execLateRecordSettle tenant epoch s = _
    simp only [execLateRecordSettle, gated_runs hr, hx, hended, hlate]
  case part =>
    intro tenant dest p s hr hp hwait
    show execLateCmdlistPart tenant dest s = _
    simp only [execLateCmdlistPart, gated_runs hr, hp]
    refine if_neg ?waits
    split
    next t hsent => exact fun hsoon => Nat.not_lt.2 (hwait t hsent) (of_decide_eq_true hsoon)
    next => exact Bool.false_ne_true
  case closes =>
    intro tenant epoch x s hr hx hclose
    show execSettlementClose tenant epoch s = _
    simp only [execSettlementClose, gated_runs hr, hx]
    exact if_neg (Nat.not_lt.2 hclose)

end

/-! SUPPORT. Capture and replay: what lets a ring be read, a session end at a launch, and a session be done. -/

namespace Sys2Proof.Machine

section
variable {s : State} {tenant : Nat}

/-- A read of 16 argument bytes with the last four clear, of at most 8,160 bytes that the ring holds, is in form (R341, Table 15.5). -/
theorem not_captureRead_barred {b : List Byte} {held : Nat} (hlen : b.length = 16) (hres : leAt b 12 4 = 0) (hmax : leAt b 8 4 ≤ 8160)
    (hrange : leAt b 0 8 + leAt b 8 4 ≤ held) :
    ¬ (b.length ≠ 16 ∨ leAt b 12 4 ≠ 0 ∨ 8160 < leAt b 8 4 ∨ held < leAt b 0 8 + leAt b 8 4) := by
  omega

/-- A gap entry is written once space has returned, where a loss run is open (R341). -/
theorem execCaptureGapEntry_fits (hr : s.runs) (hloss : (s.capOf tenant).loss.isSome = true) (hfits : (s.gapEntry tenant).2 = true) :
    execCaptureGapEntry tenant s = .next (s.gapEntry tenant).1 := by
  have hopen : ¬ (s.capOf tenant).loss.isNone = true := by simpa using Option.isSome_iff_ne_none.1 hloss
  exact (gated_if_neg hr hopen).trans (congrArg _ (if_pos hfits))

/-- A session whose end has come is done once no record of its tenant is in work before its tail and none stands in an admission queue (R347). -/
theorem execReplayDone_done {e : Nat} {z : Session12} (hr : s.runs) (hz : s.session tenant = some z) (hend : z.e = some e) (hpast : e ≤ s.epoch)
    (hrecs : s.weir.hubs.any (fun w => w.recs.any (fun r => r.2.phase != .tail && r.2.r.tenant == tenant)) = false)
    (hqueues : s.weir.queues.any (fun q => q.2.any (fun x => x.r.tenant == tenant && !x.ghost)) = false) :
    execReplayDone tenant s = .next ((s.setCap tenant { s.capOf tenant with session := none }).event 0x0C03 tenant tenant
      (detailOf [(4, sat32 z.count), (4, sat32 ((s.cnt .cntCapCnt (3 * tenant + 2) % 2 ^ 48 + 2 ^ 48 - z.miss0) % 2 ^ 48))])) := by
  simp only [execReplayDone, gated_runs hr, hz, hend, hrecs, hqueues]
  exact if_neg (by simp [hpast])

end

end Sys2Proof.Machine

/-! ### The statement of capture and replay -/

section
open Sys2Proof Sys2Proof.Machine

/-- Settles O28: a gap entry that fits is written, a read is in form and within the ring, a session's start and end are launches that nothing bars, and
an ended session with no record left is closed. -/
theorem captureAndReplay : Obligations.CaptureAndReplay := by
  unfold Obligations.CaptureAndReplay
  refine ⟨?gap, ?read, ?start, ?ended, ?done⟩
  case gap => exact fun tenant s => execCaptureGapEntry_fits
  case read =>
    intro c l s hr hfirst hlen hres n ring hmax hrange
    exact (cmd_first hr hfirst _).trans
      (congrArg (fun r => (.next (State.endCmd c r) : Out)) (if_neg (not_captureRead_barred hlen hres hmax hrange)))
  case start => exact fun c l s hr hfirst hlen hres href hbars => launch_first hr hfirst (if_pos ⟨hlen, hres⟩) href hbars
  case ended => exact fun c l s hr hfirst hempty href hopen => launch_first hr hfirst (if_pos hempty) href (if_pos hopen)
  case done => exact fun tenant e z s => execReplayDone_done

end

/-! SUPPORT. Memory: what holds of the stored bytes alone is kept by every operation that neither seals a sector nor resets the device cold, and what
sealing the copies of a sector leaves. -/

namespace Sys2Proof.Machine

/-! ### Predicates on the stored bytes -/

/-- A predicate on the stored bytes alone holds on over every change of another part, and over a warm reset, which keeps them (R493). -/
theorem data_closed (R : Memory → Prop) : Closed fun x => R x.mem.data where
  upd _ _ _ _ _ _ _ _ _ _ _ _ _ _ _ _ _ _ _ h hm := hm ▸ h
  wr _ _ _ _ _ h := h
  count _ _ _ _ h := h
  cnts _ _ _ h := h
  fresh _ _ h := h
  warm x a b h :=
    warmReset_of (fun _ _ h => h) (fun _ _ _ _ _ h => h) (fun _ _ _ h => h) x a b fun _ _ _ _ _ _ hm => hm ▸ h

/-! ### The copies of a sector -/

/-- Canonical bytes that are, outside some sector copies, those of another memory. -/
def Memory.AsOutside (m : Memory) (cs : List (Nat × Nat)) (n : Memory) : Prop :=
  Memory.wf n = true ∧ ∀ a : Nat, (∀ c ∈ cs, a < copyName c * 512 ∨ copyName c * 512 + 512 ≤ a) → Memory.read n a = Memory.read m a

/-- Sealing one of the copies leaves the bytes outside them (R440). -/
theorem Memory.AsOutside.seal {m : Memory} {cs : List (Nat × Nat)} {x : MemSt} (h : Memory.AsOutside m cs x.data) (o : Nat) {c : Nat × Nat} (hc : c ∈ cs)
    (b : List Byte) : Memory.AsOutside m cs (x.seal o c b).data := by
  obtain ⟨hwf, hread⟩ := h
  exact ⟨seal_wf _ _ _ _ hwf, fun a ha => (seal_read_out x o c b hwf a (ha c hc)).trans (hread a ha)⟩

/-- Sealing several of the copies leaves the bytes outside them. -/
theorem Memory.AsOutside.sealAll {m : Memory} {cs : List (Nat × Nat)} {s : State} (h : Memory.AsOutside m cs s.mem.data) (o : Nat) (b : List Byte) :
    Memory.AsOutside m cs (cs.foldl (fun s c => { s with mem := s.mem.seal o c b }) s : State).mem.data :=
  List.foldlRecOn (motive := fun n : State => Memory.AsOutside m cs n.mem.data) cs _ h fun _ hn _ hc => hn.seal o hc b

/-- A copy that holds a sector's data holds it on when any copy is sealed with the same data: copies are the same sector or lie apart. -/
theorem seal_plain_other {m : MemSt} {o : Nat} {c d : Nat × Nat} {b : List Byte} (hm : Memory.wf m.data = true) (hb : b.length = 512)
    (h : m.plain d = b) : (m.seal o c b).plain d = b := by
  by_cases hn : copyName d = copyName c
  · have hsame : (m.seal o c b).plain d = (m.seal o c b).plain c := by simp only [MemSt.plain, hn]
    exact hsame.trans (seal_plain m o c b hm hb)
  · refine Eq.trans (Memory.readBytes_congr 512 _ _ _ fun j hlo hhi => ?_) h
    exact seal_read_out m o c b hm j (by omega)

/-- Once every copy is sealed with a sector's data, each holds it (R441). -/
theorem sealAll_plain (o : Nat) {b : List Byte} (hb : b.length = 512) (l : List (Nat × Nat)) {s : State} (hwf : Memory.wf s.mem.data = true) :
    ∀ d : Nat × Nat, d ∈ l ∨ s.mem.plain d = b → (l.foldl (fun s c => { s with mem := s.mem.seal o c b }) s : State).mem.plain d = b := by
  induction l generalizing s with
  | nil => exact fun d hd => hd.resolve_left (List.not_mem_nil)
  | cons c l ih =>
    intro d hd
    refine ih (s := { s with mem := s.mem.seal o c b }) (seal_wf _ _ _ _ hwf) d ?_
    obtain hd | hd := hd
    · obtain rfl | hd := List.mem_cons.1 hd
      · exact .inr (seal_plain _ _ _ _ hwf hb)
      · exact .inl hd
    · exact .inr (seal_plain_other hwf hb hd)

/-! ### Reading a sector -/

section
variable {s : State}

/-- Counting the errors of a row leaves the states of the stacks. -/
theorem State.rowCount_stk (stack row corr fails : Nat) : (s.rowCount stack row corr fails).mem.stk = s.mem.stk := by
  have hdue : ∀ n : State, (n.rowDue stack row).mem.stk = n.mem.stk := fun n => by
    unfold State.rowDue
    split <;> rfl
  unfold State.rowCount
  extract_lets k w w' k' src n
  have hn : n.mem.stk = s.mem.stk := by
    simp only [n]
    split <;> rfl
  split
  · exact (hdue n).trans hn
  · exact hn

/-- A sector that is read well leaves the stacks, and so the copies of every address: it repairs copies at most. -/
theorem State.readSector_copies {reader hub addr who : Nat} {bad : List Nat} {row : Option Nat} {b : List Byte} {n : State}
    (h : s.readSector reader hub addr who bad row = (some b, n)) (hub' addr' : Nat) : n.copies hub' addr' = s.copies hub' addr' := by
  have hstk : n.mem.stk = s.mem.stk := by
    unfold State.readSector at h
    split at h
    · cases h
    · extract_lets cs hit src s1 fix at h
      split at h
      · extract_lets b at h
        obtain ⟨-, rfl⟩ := Prod.mk.inj h
        refine foldl_keeps (P := fun x => x.mem.stk = s.mem.stk) _ rfl fun x c hx => ?_
        refine (State.rowCount_stk ..).trans (Eq.trans ?_ hx)
        unfold MemSt.seal
        extract_lets n k m1
        split <;> rfl
      · clear_value cs
        split at h <;> exact nomatch h
  unfold State.copies
  rw [hstk]

/-- A sector that is read leaves the bytes outside its copies: it repairs copies, or reports their failure. -/
theorem State.readSector_asOutside {m : Memory} {hub addr : Nat} (reader who : Nat) (bad : List Nat) (row : Option Nat)
    (h : Memory.AsOutside m (s.copies hub addr) s.mem.data) : Memory.AsOutside m (s.copies hub addr) (s.readSector reader hub addr who bad row).2.mem.data := by
  unfold State.readSector
  split
  · exact h
  · extract_lets cs hit src s1 fix
    have h1 : Memory.AsOutside m cs s1.mem.data := h
    have hkeeps := data_closed (Memory.AsOutside m cs)
    change Memory.AsOutside m cs _
    clear_value cs s1
    split
    · refine List.foldlRecOn (motive := fun n : State => Memory.AsOutside m cs n.mem.data) fix _ h1 fun n hn c hc => ?_
      exact rowCount_keeps hkeeps _ _ _ _ _ (hn.seal _ (List.takeWhile_subset _ hc) _)
    · split
      · exact sectorFail_keeps hkeeps _ _ _ _ _ _ _ h1
      · exact readerFailed_keeps hkeeps _ _ _ _ _ _ h1

end

/-- A whole write of a sector seals every copy with its data, and ends the failure of the buckets in it (R441, R443). -/
theorem execSectorWrite_whole {writer hub addr who o : Nat} {data : List Byte} {s : State} (hr : s.runs) (herased : s.mem.erased = true)
    (howner : s.ownerOf addr = some o) (hlen : data.length = 512) (hfree : (s.copies hub addr).any (fun c => s.memHeld (c.1 / 6)) = false) :
    let n := { s with eddy := { s.eddy with bad := s.eddy.bad.filter (fun b => !(s.bucketsAt addr).contains b) } }
    execSectorWrite writer hub addr who (data.map some) s =
      .next ((n.copies hub addr).foldl (fun s c => { s with mem := s.mem.seal o c data }) n) := by
  have hwhole : (data.map some).all Option.isSome = true := by simp
  have hdata : (data.map some).map (·.getD 0) = data := by simp
  have hwrites : ¬ (s.mem.erased = false ∨ (data.map some).length ≠ 512 ∨ (s.copies hub addr).any (fun c => s.memHeld (c.1 / 6)) = true) := by
    simp [herased, hlen, hfree]
  simp only [execSectorWrite, gated_runs hr, howner]
  rw [if_neg hwrites, if_pos hwhole, hdata]

end Sys2Proof.Machine

/-! ### The statements of the stored bytes -/

section
open Sys2Proof Sys2Proof.Machine

/-- Settles O60: what the bytes are is a predicate on the stored bytes alone, which only a command of `Instr.movesMemory` can end. -/
theorem memoryKept : Obligations.MemoryKept := by
  unfold Obligations.MemoryKept
  intro c s t hmoves h
  exact (exec_keeps (data_closed (· = s.mem.data)) c (fun hm => absurd hm (by simp [hmoves])) s rfl).out t h

/-- Settles O59: a write seals the copies and no other sector, a read seals copies that failed at most, and what either reports is kept apart from the
stored bytes. -/
theorem sectorsFrame : Obligations.SectorsFrame := by
  unfold Obligations.SectorsFrame
  have hstart : ∀ {s : State} (cs : List (Nat × Nat)), s.canon → Memory.AsOutside s.mem.data cs s.mem.data :=
    fun _ hcanon => ⟨hcanon.2.2, fun _ _ => rfl⟩
  refine ⟨?whole, ?write, ?read⟩
  case whole =>
    intro writer hub addr who o data s hr hcanon herased howner hlen hfree
    exact ⟨_, execSectorWrite_whole hr herased howner hlen hfree, fun c hc => sealAll_plain o hlen (s.copies hub addr) (s := { s with
      eddy := { s.eddy with bad := s.eddy.bad.filter (fun b => !(s.bucketsAt addr).contains b) } }) hcanon.2.2 c (.inl hc)⟩
  case write =>
    intro writer hub addr who data s t hcanon hexec
    suffices h : Memory.AsOutside s.mem.data (s.copies hub addr) t.mem.data from h.2
    have h0 := hstart (s.copies hub addr) hcanon
    obtain ⟨-, hexec⟩ | ⟨-, rfl⟩ := gated_next hexec
    · split at hexec
      · cases hexec
        split <;> exact h0
      next o howner =>
        split at hexec
        · cases hexec
          exact h0
        · split at hexec
          · cases hexec
            exact Memory.AsOutside.sealAll (s := { s with
              eddy := { s.eddy with bad := s.eddy.bad.filter (fun b => !(s.bucketsAt addr).contains b) } }) h0 o _
          · have hread := State.readSector_asOutside writer who [] none h0
            split at hexec
            next old n hn =>
              cases hexec
              rw [hn] at hread
              beta_reduce
              rw [State.readSector_copies hn]
              exact hread.sealAll o _
            next n hn =>
              cases hexec
              rw [hn] at hread
              exact hread
    · exact h0
  case read =>
    intro reader hub addr who own other s t hcanon hexec
    suffices h : Memory.AsOutside s.mem.data (s.copies hub addr) t.mem.data from h.2
    have h0 := hstart (s.copies hub addr) hcanon
    obtain ⟨-, hexec⟩ | ⟨-, rfl⟩ := gated_next hexec
    · split at hexec
      · cases hexec
        exact h0
      · split at hexec
        · cases hexec
          exact h0
        · extract_lets bad at hexec
          have hread := State.readSector_asOutside reader who bad none h0
          split at hexec
          next hn =>
            cases hexec
            rw [hn] at hread
            exact hread
          next hn =>
            cases hexec
            rw [hn] at hread
            exact hread
    · exact h0

end

/-! SUPPORT. Sluice: the bytes of a queue command, what a free queue makes of the commands on counts and ticks, and when its registers may be written. -/

namespace Sys2Proof.Machine

/-! ### The bytes of a queue command -/

/-- Each field stands at its place of Table 13.2. -/
theorem QCmd.bytes_fields (c : QCmd) : c.bytes.length = 16 ∧ leAt c.bytes 0 1 = c.op % 2 ^ 8 ∧ leAt c.bytes 1 1 = c.flags % 2 ^ 8 ∧
    leAt c.bytes 2 2 = c.id % 2 ^ 16 ∧ leAt c.bytes 4 4 = c.amount % 2 ^ 32 ∧ leAt c.bytes 8 8 = c.arg % 2 ^ 64 := by
  obtain ⟨op, flags, id, amount, arg⟩ := c
  simp only [QCmd.bytes, leAt, slice, leBytes, List.cons_append, List.nil_append, List.drop_succ_cons, List.drop_zero, List.take_succ_cons,
    List.take_zero, leNat, BitVec.toNat_ofNat, List.length_cons, List.length_nil]
  refine ⟨trivial, ?_, ?_, ?_, ?_, ?_⟩ <;> omega

/-! ### Counts and ticks -/

section
variable {s : State} {q : Nat} {c : QCmd}

@[simp] theorem State.queued_sem (s : State) (q i : Nat) (c : QCmd) : (s.queued q c).sem i = s.sem i := rfl
@[simp] theorem State.queued_now (s : State) (q : Nat) (c : QCmd) : (s.queued q c).now = s.now := rfl
@[simp] theorem State.queued_cmds (s : State) (q : Nat) (c : QCmd) : ((s.queued q c).que q).cmds = [c] := by simp [State.queued]

/-- A write of a semaphore leaves the queues. -/
@[simp] theorem State.setSem_que (s : State) (i j : Nat) (x : Sem) : (s.setSem i x).que j = s.que j := rfl

section
variable (hok : qcmdOk q c = true)
include hok

/-- A SIG adds to its semaphore (R356). -/
theorem State.execHead_sig (hop : c.op = 1) : s.execHead q c = ((s.semAdd c.id c.amount).popQue q, true) := by
  simp [State.execHead, hok, hop]

/-- A WAIT that is first in line is granted at once where the count suffices (R357). -/
theorem State.execHead_wait_granted (hop : c.op = 2) (hfirst : (s.sem c.id).waiters = []) (hcount : c.amount ≤ (s.sem c.id).count) :
    s.execHead q c = ((s.setSem c.id { s.sem c.id with count := (s.sem c.id).count - c.amount }).popQue q, true) := by
  simp [State.execHead, hok, hop, hfirst, hcount]

/-- A WAIT for more than the count joins the line (R357). -/
theorem State.execHead_wait_waits (hop : c.op = 2) (hcount : (s.sem c.id).count < c.amount) :
    s.execHead q c =
      ((s.setSem c.id { s.sem c.id with waiters := (s.sem c.id).waiters ++ [q] }).setQue q { s.que q with wait := .sem }, false) := by
  simp [State.execHead, hok, hop, Nat.not_le.2 hcount]

/-- A DEC that does not underflow subtracts (R358). -/
theorem State.execHead_dec (hop : c.op = 3) (hcount : c.amount ≤ (s.sem c.id).count) :
    s.execHead q c = ((s.setSem c.id { s.sem c.id with count := (s.sem c.id).count - c.amount }).popQue q, true) := by
  simp [State.execHead, State.semDec, hok, hop, hcount]

/-- An SSET writes the count (R359). -/
theorem State.execHead_sset (hop : c.op = 4) :
    s.execHead q c = ((s.setSem c.id { s.sem c.id with count := c.amount }).popQue q, true) := by
  simp [State.execHead, hok, hop]

/-- A WAITBT whose tick has come is done (R356). -/
theorem State.execHead_waitbt_done (hop : c.op = 7) (hpast : c.arg ≤ s.now) : s.execHead q c = (s.popQue q, true) := by
  simp [State.execHead, hok, hop, hpast]

/-- A WAITBT waits for its tick (R356). -/
theorem State.execHead_waitbt_waits (hop : c.op = 7) (hearly : s.now < c.arg) : s.execHead q c = (s.setQue q { s.que q with wait := .bt }, false) := by
  simp [State.execHead, hok, hop, Nat.not_le.2 hearly]

end

/-- A free queue whose only command is done stands empty. -/
theorem State.give_popped {m : State} (hfree : s.queueFree q) (hok : qcmdOk q c = true) (hop : c.op ≠ 8) (harg : c.op = 7 → c.arg < 2 ^ 64)
    (hexec : (s.queued q c).execHead q c = (m.popQue q, true)) (hm : (m.que q).cmds = [c]) : s.give q c.bytes = m.popQue q := by
  refine (State.give_bytes hfree hok (fun h => absurd h hop) harg hexec).trans ?_
  rw [if_pos rfl, runQueue_empty]
  simp [State.popQue, hm]

/-- A free queue whose only command waits keeps it at its head. -/
theorem State.give_waits {m : State} (hfree : s.queueFree q) (hok : qcmdOk q c = true) (hop : c.op ≠ 8) (harg : c.op = 7 → c.arg < 2 ^ 64)
    (hexec : (s.queued q c).execHead q c = (m, false)) : s.give q c.bytes = m :=
  (State.give_bytes hfree hok (fun h => absurd h hop) harg hexec).trans (if_neg Bool.false_ne_true)

end

/-- Adding to a semaphore leaves the queues: OVF and its event are the semaphore's own (R358). -/
theorem State.semAdd_que (s : State) (i k q : Nat) : (s.semAdd i k).que q = s.que q := by
  unfold State.semAdd
  extract_lets x v n
  split
  · rfl
  · exact congrArg (fun sl : SluiceSt => SMap.getD (fun _ => {}) sl.queues q) (State.event_slu ..)

/-! ### When a wait ends, and when a register may be written -/

section
variable {s : State}

/-- A barrier of the device with every participant counted is released once (R361). -/
theorem execBarrierRelease_releases {b : Nat} (hr : s.runs) (hall : s.allCounted b = true) (hopen : (s.bar b).releasing = false)
    (hlocal : s.barDomain b = false) : execBarrierRelease b s = .next (s.releaseBar b) :=
  gated_if_neg hr (by simp [hall, hopen, hlocal])

/-- An arrival of the generation under way, or of the next, that is the first of its device is held, and reported where its release would already
have been due (R366, R367). -/
theorem execSluiceArrival_new {dev k gen a : Nat} (hr : s.runs) (hk : k < 8) (hdomain : s.barDomain (160 + k) = true)
    (hgen : gen = (s.bar (160 + k)).gen ∨ gen = ((s.bar (160 + k)).gen + 1) % 4)
    (hnew : (s.bar (160 + k)).msgs.any (fun m => m.1 == gen && m.2.1 == dev) = false) :
    let x := s.bar (160 + k)
    let n := s.setBar (160 + k) { x with msgs := x.msgs ++ [(gen, dev, a)] }
    execSluiceArrival dev k gen a s = .next (if a + s.fence < s.now then
      (n.tick .cntSluDevCnt 0).event 0x0D03 (16 + k) 0xFF (detailOf [(2, dev), (6, a)]) else n) := by
  intro x n
  have hthere : ¬ (8 ≤ k ∨ s.barDomain (160 + k) = false) := by simp [hk, hdomain]
  have hnow : ¬ (gen ≠ (s.bar (160 + k)).gen ∧ gen ≠ ((s.bar (160 + k)).gen + 1) % 4) := by omega
  refine (gated_if_neg hr hthere).trans ((if_neg hnow).trans ((if_neg (Bool.eq_false_iff.1 hnew)).trans ?_))
  exact (apply_ite Host.Outcome.next _ _ _).symm

/-- A mask that adds no participant is taken, on a device barrier of a hub die (R364). -/
theorem State.setMask_shrinks {b value : Nat} (hb : b < 32) (hless : ∀ p < 128, bit value p = true → bit (s.barMask b) p = true) :
    (s.setMask b value).isSome = true := by
  have hadds : (List.range 128).any (fun p => bit value p && !bit (s.barMask b) p) = false := by
    simp only [List.any_eq_false, List.mem_range, Bool.and_eq_true, Bool.not_eq_true', not_and, Bool.not_eq_false]
    exact hless
  unfold State.setMask
  extract_lets old x adds
  rw [if_neg (by simp [adds, old, hadds]; omega)]
  rfl

/-- A domain barrier with no generation open takes a configuration that is in range, and starts from generation 0 (R365). -/
theorem State.writeDbarcfg_idle {k value : Nat} (hnone : (s.bar (160 + k)).counted = []) (hopen : (s.bar (160 + k)).releasing = false)
    (hmsgs : ∀ m ∈ (s.bar (160 + k)).msgs, m.1 ≠ (s.bar (160 + k)).gen) (hleast : bit value 0 = true → 1 ≤ bits value 14 1)
    (hmost : bits value 14 1 ≤ 8192) (hgroup : bits value 30 15 < 64) :
    s.writeDbarcfg k value = some ((s.setBar (160 + k) {}).wr .sluDbarcfg k 0 (value % 2 ^ 31)) := by
  have hidle : (s.bar (160 + k)).msgs.any (fun m => m.1 == (s.bar (160 + k)).gen) = false := by simpa using hmsgs
  have hcount : ¬ (bit value 0 = true ∧ bits value 14 1 = 0) := fun ⟨hon, hzero⟩ => by have := hleast hon; omega
  refine if_neg ?_
  simp only [hnone, hopen, hidle, List.isEmpty_nil]
  simpa [Nat.not_lt.2 hmost, Nat.not_le.2 hgroup] using hcount

end

end Sys2Proof.Machine

/-! ### The statements of Sluice -/

section
open Sys2Proof Sys2Proof.Machine

/-- Settles O29: the bytes are the fields of Table 13.2 in order, and a free queue executes its only command at once, which is done or waits. -/
theorem queueCommandsRun : Obligations.QueueCommandsRun := by
  unfold Obligations.QueueCommandsRun
  refine ⟨QCmd.bytes_fields, qcmdOfBytes_bytes, ?given, ?run⟩
  case given =>
    intro q id amount flags arg s hr b
    exact ⟨gated_runs hr _, gated_runs hr _, gated_runs hr _, gated_runs hr _, gated_runs hr _, gated_runs hr _, gated_runs hr _, gated_runs hr _,
      gated_runs hr _⟩
  case run =>
    intro q id amount arg s hr hfree n ok
    have hdone : ∀ {op : Nat} {m : State}, ok op → op ≠ 8 → (op = 7 → arg < 2 ^ 64) →
        (n op).execHead q { op := op, flags := 0, id := id, amount := amount, arg := arg } = (m.popQue q, true) →
        m.que q = (n op).que q →
        s.gated (.next (s.give q (QCmd.bytes { op := op, flags := 0, id := id, amount := amount, arg := arg }))) = .next (m.popQue q) :=
      fun hok hop harg hexec hque =>
        (gated_runs hr _).trans (congrArg _ (State.give_popped hfree hok hop harg hexec (by rw [hque, State.queued_cmds])))
    have hwaits : ∀ {op : Nat} {m : State}, ok op → op ≠ 8 → (op = 7 → arg < 2 ^ 64) →
        (n op).execHead q { op := op, flags := 0, id := id, amount := amount, arg := arg } = (m, false) →
        s.gated (.next (s.give q (QCmd.bytes { op := op, flags := 0, id := id, amount := amount, arg := arg }))) = .next m :=
      fun hok hop harg hexec => (gated_runs hr _).trans (congrArg _ (State.give_waits hfree hok hop harg hexec))
    refine ⟨?sig, ?granted, ?waits, ?dec, ?sset, ?reached, ?early⟩
    case sig => exact fun hok => hdone hok (by decide) nofun (State.execHead_sig hok rfl) (State.semAdd_que ..)
    case granted => exact fun hok hfirst hcount => hdone hok (by decide) nofun (State.execHead_wait_granted hok rfl hfirst hcount) rfl
    case waits => exact fun hok hcount => hwaits hok (by decide) nofun (State.execHead_wait_waits hok rfl hcount)
    case dec => exact fun hok hcount => hdone hok (by decide) nofun (State.execHead_dec hok rfl hcount) rfl
    case sset => exact fun hok => hdone hok (by decide) nofun (State.execHead_sset hok rfl) rfl
    case reached => exact fun hok hfits hpast => hdone hok (by decide) (fun _ => hfits) (State.execHead_waitbt_done hok rfl hpast) rfl
    case early => exact fun hok hfits hearly => hwaits hok (by decide) (fun _ => hfits) (State.execHead_waitbt_waits hok rfl hearly)

/-- Settles O31: each wait ends by its own command, whose condition is its hypotheses. -/
theorem waitsEnd : Obligations.WaitsEnd := by
  unfold Obligations.WaitsEnd
  refine ⟨?granted, fun b s => execBarrierRelease_releases, ?full, ?reached, ?signal, ?arrival, ?domain, ?stalled⟩
  case granted =>
    intro sem q ws s hr hline hcount
    show execWaitGrant sem s = _
    simp only [execWaitGrant, gated_runs hr, hline]
    exact if_neg (Nat.not_lt.2 hcount)
  case full => exact fun b s hr hopen hempty => gated_if_neg hr (by simp [hopen, hempty])
  case reached => exact fun q s hr hwaits hpast => gated_if_pos hr ⟨hwaits, hpast⟩
  case signal => exact fun port dev flags id value s hr hup => gated_if_neg hr (not_not_intro hup)
  case arrival => exact fun dev k gen a s hr hk hdomain hgen hnew => execSluiceArrival_new hr hk hdomain hgen hnew
  case domain =>
    intro k s hr hdomain hopen ms hcount hdue
    simp only [ms] at hcount hdue
    refine gated_if_neg hr ?_
    rw [hdomain, hopen]
    simp only [Bool.true_eq_false, Bool.false_eq_true, false_or]
    omega
  case stalled =>
    intro k t s hr hsent hopen hnew hdue x
    show execSluDbarStalled k s = _
    simp only [execSluDbarStalled, gated_runs hr, hsent, x]
    refine if_neg ?_
    simp [hopen, hnew, hdue]

/-- Settles O32: each write is of a register that there is, with a value that it takes. -/
theorem sluiceWrites : Obligations.SluiceWrites := by
  unfold Obligations.SluiceWrites
  refine ⟨?count, ?mask, ?staged, ?domain, ?hold, ?resume, ?flush⟩
  case count => exact fun sem value s hr hsem => gated_if_neg hr (Nat.not_le.2 hsem)
  case mask =>
    intro b value s hr hb hless
    refine ⟨(gated_runs hr _).trans ?_, State.setMask_shrinks hb hless⟩
    simp [State.writeMask, (by omega : b < 160)]
  case staged =>
    intro k word value s hr hk hword
    refine (gated_runs hr _).trans ?_
    simp [State.writeMask, (by omega : ¬ 168 ≤ 160 + k ∧ ¬ 4 ≤ word ∧ ¬ word = 3)]
  case domain =>
    intro k value s hr hk hnone hopen hmsgs hleast hmost hgroup
    refine (gated_if_neg hr (Nat.not_le.2 hk)).trans ?_
    rw [State.writeDbarcfg_idle hnone hopen hmsgs hleast hmost hgroup]
    rfl
  case hold => exact fun q s hr hq => ⟨gated_if_neg hr (Nat.not_le.2 hq), gated_if_neg hr (Nat.not_le.2 hq)⟩
  case resume =>
    intro q s hr hq hhalted
    exact (gated_if_neg hr (Nat.not_le.2 hq)).trans (congrArg _ (if_pos hhalted))
  case flush => exact fun q s hr hq => gated_if_neg hr (Nat.not_le.2 hq)

end

/-! SUPPORT. Braid: what a command of the link makes of a message that arrives whole, and which message an attached port discards. -/

namespace Sys2Proof.Machine

section
variable {s : State} {port : Nat} {m : BrMsg}

/-- A message that its link does not hold yet and whose check passed is taken (R383). -/
theorem brTake_new (f : State → State) (hport : port < 12) (hup : (s.brPort port).step = 6) (hnew : s.linkHeld port m = false) (hok : m.ok = true) :
    s.brTake port m f = f (s.linkTake port m) :=
  (brTake_up m f hport hup hnew).trans (if_pos hok)

/-- A message that its link does not hold yet and whose check failed is counted (R387). -/
theorem brTake_bad (f : State → State) (hport : port < 12) (hup : (s.brPort port).step = 6) (hnew : s.linkHeld port m = false) (hbad : m.ok = false) :
    s.brTake port m f = (s.linkTake port m).tick .cntBraidPortCnt (port * 9 + 4) :=
  (brTake_up m f hport hup hnew).trans (if_neg (Bool.eq_false_iff.1 hbad))

/-- A message of the request channel comes to its link, but for a record that finds its admission queue full (R388). -/
theorem execBraidRecord_takes {ago : Nat} (hr : s.runs) (htype : m.ok = true → m.type = 1 ∨ m.type = 3 ∨ m.type = 5)
    (hroom : m.ok = true → m.type = 1 → m.dst = s.device → qLen (s.queue (32 + port)) < s.queueCap (32 + port)) :
    execBraidRecord port m ago s =
      .next (s.brTake port m (fun s => if m.type = 1 then s.braidRecord port m ago else s.passOn port m)) := by
  have hrow : ¬ (m.type ≠ 1 ∧ m.type ≠ 3 ∧ m.type ≠ 5 ∧ m.ok = true) := by
    rintro ⟨h1, h3, h5, hok⟩
    rcases htype hok with h | h | h <;> contradiction
  refine (gated_if_neg hr hrow).trans (if_neg ?_)
  rintro ⟨h1, hfull, hok⟩
  simp only [Bool.and_eq_true, decide_eq_true_eq] at hfull
  exact absurd (hroom hok h1 hfull.1) (by omega)

/-- Taking a message leaves the transfers. -/
@[simp] theorem State.linkTake_xfer? (s : State) (port : Nat) (m : BrMsg) (d i : Nat) : (s.linkTake port m).xfer? d i = s.xfer? d i := rfl

/-- A command list or signal that this device sent, discarded at an attached port, is reported undeliverable (R323, R369, R403). -/
theorem execAttEgressTimeout_drops (hr : s.runs) (hatt : s.fld .braidPortCfg port 0 2 1 = 1)
    (hdue : (foundFull 0 (s.brPort port).egress).find? (fun m => (m.type == 5 || m.type == 8 || m.type == 9) &&
      decide (m.since + s.rd .braidAtt 0 0 ≤ s.now)) = some m) :
    let n := (s.setBrPort port { s.brPort port with egress := (s.brPort port).egress.erase m }).attDrop port
    let u := n.peerUndeliv (m.que.getD 0xFFFF) m.dst
    execAttEgressTimeout port s = .next (
      if m.type = 5 ∧ m.src = n.device then (match m.que with
        | some q => if (u.que q).wait = .link then u.goOn q else u
        | none => u)
      else if m.type = 9 ∧ m.src = n.device then n.listUndeliv m.tenant (leAt m.body 8 2) (leAt m.body 4 4) else n) := by
  intro n u
  refine (gated_if_neg hr (not_not_intro hatt)).trans ?_
  simp only [hdue]
  by_cases hsig : m.type = 5 ∧ m.src = n.device
  · refine (if_pos hsig).trans (Eq.trans ?_ (congrArg Host.Outcome.next (if_pos hsig).symm))
    simp only [u, n]
    cases m.que <;> rfl
  · exact (if_neg hsig).trans (congrArg Host.Outcome.next (if_neg hsig).symm)

end

end Sys2Proof.Machine

/-! ### The statements of Braid -/

section
open Sys2Proof Sys2Proof.Machine

/-- Settles O33: each command finds its port at the step that it is for. -/
theorem braidPortsChange : Obligations.BraidPortsChange := by
  unfold Obligations.BraidPortsChange
  refine ⟨?goesOn, ?comesUp, ?timeout, ?identity, ?replay, ?down⟩
  case goesOn =>
    intro port s hr hport hon hword hbefore herr n
    have hacts : ¬ (12 ≤ port ∨ (s.brPort port).step = 0 ∨ (s.brPort port).step = 4 ∨ 6 ≤ (s.brPort port).step ∨ s.sec.error = true) := by
      simp [hon, hword, herr]
      omega
    show execBraidBringupStepDone port s = _
    simp only [execBraidBringupStepDone, gated_runs hr, if_neg hacts, if_pos hbefore]
    rfl
  case comesUp =>
    intro port s hr hport hlast herr a n m
    have hacts : ¬ (12 ≤ port ∨ (s.brPort port).step = 0 ∨ (s.brPort port).step = 4 ∨ 6 ≤ (s.brPort port).step ∨ s.sec.error = true) := by
      simp [hlast, herr, hport]
    have hbefore : ¬ (s.brPort port).step < 5 := by omega
    refine (gated_if_neg hr hacts).trans ?_
    refine (if_neg hbefore).trans ?_
    extract_lets s1 s2 u s3
    rfl
  case timeout =>
    intro port s hr hport hon hbefore hdue
    exact gated_if_neg hr (by simp only [bringupLimit]; omega)
  case identity =>
    intro port w s hr hport hword x
    refine (gated_if_neg hr (by omega)).trans ?_
    exact (apply_ite Host.Outcome.next _ _ _).symm
  case replay =>
    intro port corr uncorr s hr hport hup n
    refine (gated_if_neg hr (by dsimp only; omega)).trans ?_
    exact (apply_ite Host.Outcome.next _ _ _).symm
  case down => exact fun port cause s hr hport hon hbefore => gated_if_neg hr (by omega)

/-- Settles O34: a message of its row's type comes to the link of its port, which discards a copy, takes a new message, and counts a bad one. -/
theorem braidMessagesArrive : Obligations.BraidMessagesArrive := by
  unfold Obligations.BraidMessagesArrive
  intro port m s hr hport hup n old
  refine ⟨?held, ?new, ?bad⟩
  case held =>
    intro hheld
    have hold : ∀ f, (.next (s.brTake port m f) : Out) = .next old := fun f => congrArg _ (brTake_held m f hport hup hheld)
    exact ⟨fun ago htype hroom => (execBraidRecord_takes hr (fun _ => htype) (fun _ => hroom)).trans (hold _),
      fun htype => (gated_if_neg hr (by omega)).trans (hold _), fun htype => (gated_if_neg hr (by omega)).trans (hold _),
      fun htype => (gated_if_neg hr (by omega)).trans (hold _), fun htype => (gated_if_neg hr (by omega)).trans (hold _),
      fun htype => (gated_if_neg hr (by omega)).trans (hold _)⟩
  case new =>
    intro hnew hok
    have htaken : ∀ f, (.next (s.brTake port m f) : Out) = .next (f n) := fun f => congrArg _ (brTake_new f hport hup hnew hok)
    refine ⟨?record, ?passed, ?reply, ?mcast, ?credit, ?repair, ?list⟩
    case record =>
      intro ago htype hroom
      exact (execBraidRecord_takes hr (fun _ => .inl htype) (fun _ _ => hroom)).trans ((htaken _).trans (congrArg _ (if_pos htype)))
    case passed =>
      intro ago htype
      refine (execBraidRecord_takes hr (fun _ => .inr htype) (fun _ h => ?_)).trans ((htaken _).trans (congrArg _ (if_neg ?_)))
      all_goals omega
    case reply => exact fun htype => (gated_if_neg hr (by omega)).trans (htaken _)
    case mcast => exact fun htype => (gated_if_neg hr (by omega)).trans (htaken _)
    case credit =>
      intro x k c htype hx hhop hmore
      refine (gated_if_neg hr (by omega)).trans ((htaken _).trans (congrArg _ ?_))
      simp only [n, State.linkTake_xfer?, hx, hhop]
      exact if_neg (Nat.not_le.2 hmore)
    case repair => exact fun htype => (gated_if_neg hr (by omega)).trans (htaken _)
    case list => exact fun htype => (gated_if_neg hr (by omega)).trans (htaken _)
  case bad =>
    intro hnew hbad ago d
    have hcounted : ∀ f, (.next (s.brTake port m f) : Out) = .next d := fun f => congrArg _ (brTake_bad f hport hup hnew hbad)
    have hno : ∀ {p : Prop}, m.ok = true → p := fun h => absurd h (Bool.eq_false_iff.1 hbad)
    exact ⟨(execBraidRecord_takes hr (fun h => hno h) (fun h => hno h)).trans (hcounted _), (gated_if_neg hr (by simp [hbad])).trans (hcounted _),
      (gated_if_neg hr (by simp [hbad])).trans (hcounted _), (gated_if_neg hr (by simp [hbad])).trans (hcounted _),
      (gated_if_neg hr (by simp [hbad])).trans (hcounted _), (gated_if_neg hr (by simp [hbad])).trans (hcounted _)⟩

/-- Settles O35: each command finds its transfer, and passes the tests of its conditions. -/
theorem transfersRun : Obligations.TransfersRun := by
  unfold Obligations.TransfersRun
  refine ⟨?send, ?pruneLocal, ?pruneHop, ?outOfSet, ?repair, ?retention, fun port m s => execAttEgressTimeout_drops⟩
  case send =>
    intro i x bytes s hr hx hchunk hcredit m n
    show execMcastChunkSend i s = _
    simp only [execMcastChunkSend, gated_runs hr, hx, hchunk]
    exact if_neg (Nat.not_le.2 hcredit)
  case pruneLocal =>
    intro i x s hr hx hin hother hwaits hdue n
    show execMcastPrune i 12 s = _
    simp only [execMcastPrune, gated_runs hr, hx]
    refine (if_pos trivial).trans (if_neg ?_)
    rw [hin]
    simp only [Bool.false_eq_true, false_or]
    omega
  case pruneHop =>
    intro i hop c x s hr hhop hx hcredited hbehind hdue
    show execMcastPrune i hop s = _
    simp only [execMcastPrune, gated_runs hr, hx, hcredited]
    exact (if_neg hhop).trans (if_neg (by omega))
  case outOfSet =>
    intro i x s hr hx hmine hother hin hnotAll hsome hdue
    have hall : (decide (0 < x.chunks) && decide (x.sent = x.chunks)) = false := by simpa using fun h => hnotAll.resolve_left (by omega)
    show execMcastOutOfSet i s = _
    simp only [execMcastOutOfSet, gated_runs hr, hx, hmine, hin, hall]
    exact if_neg (by simp only [Bool.true_eq_false, Bool.false_eq_true, false_or]; omega)
  case repair =>
    intro i x s hr hx hout hnone hempty
    show execMcastRepairSend i s = _
    simp only [execMcastRepairSend, gated_runs hr, hx]
    exact if_neg (by simp [hout, hnone, hempty])
  case retention =>
    intro i x s hr hx hknown hall hdue
    show execMcastRetentionExpiry i s = _
    simp only [execMcastRetentionExpiry, gated_runs hr, hx]
    exact if_pos ⟨hknown, hall, hdue⟩

end

/-! SUPPORT. Boot and Headwater: a boot step that may complete, and a signed command that comes to what its meaning says. -/

namespace Sys2Proof.Machine

section
variable {s : State}

/-! ### Boot -/

/-- On a cold boot step 4 holds every check of the image (R408, R411). -/
theorem State.sectionsHold_cold (hcold : s.warmBoot = false) : s.sectionsHold = true ↔ s.imageFault (b2n s.head.bootedB) 6 = 0 := by
  simp [State.sectionsHold, hcold]

/-- On a warm boot step 4 holds the hashes of the sections (R411, log 82). -/
theorem State.sectionsHold_warm (hwarm : s.warmBoot = true) : s.sectionsHold = true ↔ ∀ e ∈ s.bootImage.sections, e.hash = hash384 e.data := by
  simp [State.sectionsHold, hwarm]

/-- A warm boot never changes the image (R409, log 82). -/
theorem State.imageInvalid_warm (hwarm : s.warmBoot = true) : s.imageInvalid = s.bootStop := by
  simp [State.imageInvalid, hwarm]

/-! ### Signed commands -/

/-- The first command of a kind comes to what its meaning says of the state that it leaves behind it. -/
theorem cmd_first_eq {kind : Nat} {c : HwCmd} {l : List HwCmd} {f : HwCmd → State → CmdRes} {r : CmdRes} (hr : s.runs) (hfirst : s.firstCmd kind c l)
    (h : f c (s.leaving l) = r) : s.gated (s.runCmd kind f) = .next (State.endCmd c r) :=
  (cmd_first hr hfirst f).trans (congrArg (fun r => Host.Outcome.next (State.endCmd c r)) h)

/-- A key other than the owner's that names a register it may not write with tenancy on is refused (R549). -/
theorem State.tenantMay_barred {addr t k : Nat} {d : RegDesc} {i f : Nat} (hon : s.tenancy = true) (hkey : k ≠ 0)
    (hreg : locate addr = some (d, i, f)) (hno : s.tenantMay t d i = false) :
    (s.tenancy && k != 0 && (match locate addr with | some (d, i, _) => !s.tenantMay t d i | none => false)) = true := by
  simp [hon, hkey, hreg, hno]

end

end Sys2Proof.Machine

/-! ### The statements of boot, Headwater and bundles -/

section
open Sys2Proof Sys2Proof.Machine

/-- Settles O36: a boot that has not stopped completes the step that it stands at. -/
theorem bootStepsLead : Obligations.BootStepsLead := by
  unfold Obligations.BootStepsLead
  intro b s hr halive
  have hgoes : ¬ s.head.dead = true := by simp [halive]
  refine ⟨?supplies, ?testFails, ?testPasses, ?choice, ?cold, ?warm, ?memory, ?config, ?locked, ?sets⟩
  case supplies =>
    intro hstep hok hrefs
    refine (gated_if_neg hr hgoes).trans ?_
    simp only [hstep]
    exact if_neg (by simp [hok, hrefs])
  case testFails =>
    intro k hstep hfails
    refine (gated_if_neg hr hgoes).trans ?_
    simp only [hstep, State.selfTestBoot, hfails]
  case testPasses =>
    intro hstep herr hnone n
    have hpasses : (if s.sec.error = true then some s.sec.failTest else b.testFail) = none := by simp [herr, hnone]
    refine (gated_if_neg hr hgoes).trans ?_
    simp only [hstep, State.selfTestBoot, hpasses]
    rfl
  case choice =>
    intro hstep
    refine (gated_if_neg hr hgoes).trans ?_
    simp only [hstep]
  case cold =>
    intro hstep hcold
    refine (gated_if_neg hr hgoes).trans ?_
    simp only [hstep, State.sectionsHold_cold hcold]
  case warm =>
    intro hstep hwarm
    refine (gated_if_neg hr hgoes).trans ?_
    simp only [hstep, State.sectionsHold_warm hwarm, State.imageInvalid_warm hwarm]
  case memory =>
    intro hstep hok
    refine (gated_if_neg hr hgoes).trans ?_
    simp only [hstep, hok, if_true]
  case config =>
    intro hstep
    refine (gated_if_neg hr hgoes).trans ?_
    simp only [hstep]
  case locked =>
    intro hstep hlocked
    refine (gated_if_neg hr hgoes).trans ?_
    simp only [hstep, hlocked, if_true]
  case sets =>
    intro hstep herased
    refine (gated_if_neg hr hgoes).trans ?_
    simp only [hstep, herased, if_true]

/-- Settles O37: what waits at Headwater is taken, what has waited too long is discarded, and a register command in form comes to its words. -/
theorem headwaterTakes : Obligations.HeadwaterTakes := by
  unfold Obligations.HeadwaterTakes
  refine ⟨?segment, ?chunk, fun tenant port tag s hr => gated_runs hr _, ?idle, ?read, ?write, ?barred⟩
  case segment =>
    intro r s n hr hhead
    show execControlSegment s = _
    simp only [execControlSegment, gated_runs hr, hhead]
  case chunk =>
    intro r s n hr hhead
    show execModelChunk s = _
    simp only [execModelChunk, gated_runs hr, hhead]
  case idle =>
    intro tenant x s hr hxfer hdue
    show execBundleIdleExpiry tenant s = _
    simp only [execBundleIdleExpiry, gated_runs hr, hxfer]
    exact if_neg (Nat.not_lt.2 hdue)
  case read =>
    intro c l w m s hr hfirst hlen k hsome hmost haligned hwords
    refine cmd_first_eq hr hfirst ?_
    dsimp only
    rw [if_neg (by omega), hwords]
  case write =>
    intro c l m s hr hfirst hlen hres hoff hword
    refine cmd_first_eq hr hfirst ?_
    dsimp only
    rw [if_neg (by omega), hoff, Bool.false_and, Bool.false_and, if_neg Bool.false_ne_true, hword]
  case barred =>
    intro c l i f d s hr hfirst hlen hres n hon hkey hreg hno
    refine cmd_first_eq hr hfirst ?_
    dsimp only
    rw [if_neg (by omega)]
    exact if_pos (State.tenantMay_barred hon hkey hreg hno)

/-- Settles O39: the state of a tenant's load says which of the commands goes on with it, and the bundle's checks and placement what it comes to. -/
theorem bundlesPlace : Obligations.BundlesPlace := by
  unfold Obligations.BundlesPlace
  refine ⟨?check, ?placement, ?release, ?drain⟩
  case check =>
    intro tenant s hr hstate h k x
    refine ⟨?failed, ?passed⟩
    case failed =>
      intro hfault
      exact (gated_if_neg hr (not_not_intro hstate)).trans (if_pos hfault)
    case passed =>
      intro hpass n m
      refine (gated_if_neg hr (not_not_intro hstate)).trans ((if_neg (not_not_intro hpass)).trans ?_)
      exact (apply_ite Host.Outcome.next _ _ _).symm
  case placement => exact fun tenant s hr hstate hdirect => gated_if_neg hr (by simp [hstate, hdirect])
  case release =>
    intro tenant o s hr hold hpassed hempty h n
    show execOldHalfRelease tenant s = _
    simp only [execOldHalfRelease, gated_runs hr, hold]
    exact if_neg (by rw [hpassed, hempty]; simp)
  case drain =>
    intro tenant l s hr hswap hplacing h k m q r w i n v o done
    have hacts : ¬ h.placing = false := by simp [h, hplacing]
    refine ⟨?placed, ?failed⟩
    case placed =>
      intro hplaced
      refine (gated_runs hr _).trans ?_
      extract_lets
      rw [show h.drainSwap = some l from hswap]
      dsimp only
      rw [if_neg hacts, if_pos hplaced]
    case failed =>
      intro hfailed
      refine (gated_runs hr _).trans ?_
      extract_lets
      rw [show h.drainSwap = some l from hswap]
      dsimp only
      rw [if_neg hacts, if_neg (Bool.eq_false_iff.1 hfailed), ← hswap] <;> rfl

end

/-! SUPPORT. The external memory and the security module: a service whose arguments are in form, and an SPDM request that is answered. -/

namespace Sys2Proof.Machine

section
variable {s : State}

/-! ### Reading a sector for a unit -/

/-- A read of a sector that lies in an area comes to what the read answers (R440, R443). -/
theorem execSectorRead_owned {reader hub addr who : Nat} {own other : Bool} {r : Option (List Byte)} {n : State} (hr : s.runs)
    (herased : s.mem.erased = true) (hfree : ((s.copies hub addr).head?.any (fun c => s.memHeld (c.1 / 6))) = false)
    (howner : (s.ownerOf addr).isSome = true)
    (hread : s.readSector reader hub addr who ((placeOf addr).filterMap (fun c => if (if c.1 / 6 = hub then own else other) then some c.1 else none))
      none = (r, n)) :
    execSectorRead reader hub addr who own other s =
      .next (n.memOut reader addr (if r.isSome then 0 else 1) (r.getD [])) := by
  have hissued : ¬ (s.mem.erased = false ∨ ((s.copies hub addr).head?.any (fun c => s.memHeld (c.1 / 6))) = true) := by simp [herased, hfree]
  have hthere : ¬ (s.ownerOf addr).isNone = true := by simpa using Option.isSome_iff_ne_none.1 howner
  refine (gated_if_neg hr hissued).trans ((if_neg hthere).trans ?_)
  dsimp only
  rw [hread]
  cases r <;> rfl

/-- A partial write of a sector reads it first, and seals every copy with what it makes of that (R441). -/
theorem execSectorWrite_partial {writer hub addr who o : Nat} {data : List (Option Byte)} {old : List Byte} {n : State} (hr : s.runs)
    (herased : s.mem.erased = true) (howner : s.ownerOf addr = some o) (hlen : data.length = 512)
    (hfree : (s.copies hub addr).any (fun c => s.memHeld (c.1 / 6)) = false) (hpart : none ∈ data)
    (hread : s.readSector writer hub addr who [] none = (some old, n)) :
    let new := List.zipWith (fun (x : Option Byte) (y : Byte) => x.getD y) data old
    execSectorWrite writer hub addr who data s = .next ((n.copies hub addr).foldl (fun s c => { s with mem := s.mem.seal o c new }) n) := by
  have hwrites : ¬ (s.mem.erased = false ∨ data.length ≠ 512 ∨ (s.copies hub addr).any (fun c => s.memHeld (c.1 / 6)) = true) := by
    simp [herased, hlen, hfree]
  have hparts : ¬ data.all Option.isSome = true := fun hall => Bool.false_ne_true (List.all_eq_true.1 hall none hpart)
  simp only [execSectorWrite, gated_runs hr, howner]
  rw [if_neg hwrites, if_neg hparts, hread]

/-! ### The scrub -/

/-- The state in which the scrub of a tenant has ended and others are left in line: the tenant's data, seals and failures are gone, and its areas are
filled under its new key (R450). -/
def State.scrubbed (s : State) (t : Nat) (l : List Nat) : State :=
  { s with mem := { s.mem with
    data := s.mem.data.filter (fun x => !s.ownsPage t (x.1 / 512 / 2048)), seals := s.mem.seals.keep (fun c _ => !s.ownsPage t (c / 2048))
    failed := s.mem.failed.filter (fun c => !s.ownsPage t (c / 2048)), sweeps := s.mem.sweeps.keep (fun n _ => !s.ownsPage t n)
    fills := { tenancy := s.tenancy, shares := s.shares, keys := s.mem.keys.map (·.1), only := some t } :: s.mem.fills
    scrubs := l, restarted := false
    rotation := if l = [] then s.mem.rotation.map (fun r => { r with paused := false }) else s.mem.rotation } }

/-- The scrub that is first in line ends, and the next in line begins, or the tenancy that waited for the last takes effect (R450, R453, R475). -/
theorem execMemScrubDone_ends {tenant : Nat} {l : List Nat} (hr : s.runs) (hline : s.mem.scrubs = tenant :: l) (herr : s.sec.error = false) :
    let n := s.scrubbed tenant l
    let m := n.event 0x1001 tenant tenant (detailOf [(4, s.pagesOn tenant), (4, n.now)])
    execMemScrubDone tenant s = .next (l.head?.elim m.tenancySet m.beginScrub) := by
  have hends : ¬ (tenant ≠ tenant ∨ s.sec.error = true) := by simp [herr]
  unfold execMemScrubDone
  rw [gated_runs hr, hline]
  refine (if_neg hends).trans ?_
  cases l <;> rfl

/-! ### Services and SPDM -/

section
variable {b code : Nat} {c : SignedCmd} {f : SignedCmd → State → SvcRes} {r : SvcRes}

/-- A service of the unauthenticated role answers what its meaning says (R467). -/
theorem service_open_eq (h : s.serves b code c) (hopen : openService code = true) (hf : f c s = r) : s.service b code none f = .next (r.sent b) :=
  (service_open h hopen f).trans (congrArg (fun r : SvcRes => Host.Outcome.next (r.sent b)) hf)

/-- A service of a role answers what its meaning says of the state in which its command is authenticated (R413, R467). -/
theorem service_role_eq {g : SignedCmd → KeyEnt → Bool} {n : State} (h : s.serves b code c) (hrole : openService code = false)
    (hproves : s.proves c (g c) n) (hf : f c n = r) : s.service b code (some g) f = .next (r.sent b) :=
  (service_role h hrole g hproves f).trans (congrArg (fun r : SvcRes => Host.Outcome.next (r.sent b)) hf)

/-- An import that unwraps has its arguments' length (R470). -/
theorem State.importKey_length {off : Nat} {key : List Byte} (h : s.importKey c code off = some key) : c.body.length = off + 1608 := by
  by_contra hlen
  rw [State.importKey, if_pos hlen] at h
  exact nomatch h

end

/-- An SPDM request is answered in approved mode (R461, R473). -/
theorem spdmWith_asked {b code : Nat} {m : List Byte} (happroved : s.sec.approved = true) (hasked : s.asked b (5, 0, code) m)
    (f : List Byte → State → State × List Byte) : s.spdmWith b code f = .next ((f m s).1.answered b (f m s).2) := by
  refine (serveMsg_asked hasked _).trans ?_
  rw [if_pos happroved]

/-- The same for a request that changes nothing. -/
theorem spdm_asked {b code : Nat} {m : List Byte} (happroved : s.sec.approved = true) (hasked : s.asked b (5, 0, code) m) (f : List Byte → List Byte) :
    s.spdm b code f = .next (s.answered b (f m)) :=
  spdmWith_asked happroved hasked _

end

end Sys2Proof.Machine

/-! ### The statements of the external memory and the security module -/

section
open Sys2Proof Sys2Proof.Machine

/-- Settles O40: an access that is issued comes to what its sector holds or to its refusal, and each upkeep command finds what it is for. -/
theorem memoryServes : Obligations.MemoryServes := by
  unfold Obligations.MemoryServes
  refine ⟨?read, fun writer hub addr who o data s hr herased howner hlen hfree => execSectorWrite_whole hr herased howner hlen hfree,
    fun writer hub addr who o data old s n => execSectorWrite_partial, ?unowned, ?poll, fun stack pc s hr => gated_runs hr _, ?refresh, ?repair, ?sweep,
    ?erase, ?scrub, ?lastScrub⟩
  case read =>
    intro reader hub addr who own other s hr herased hfree
    refine ⟨?refused, ?good, ?failed⟩
    case refused =>
      intro howner
      have hissued : ¬ (s.mem.erased = false ∨ ((s.copies hub addr).head?.any (fun c => s.memHeld (c.1 / 6))) = true) := by simp [herased, hfree]
      exact (gated_if_neg hr hissued).trans (if_pos (by simp [howner]))
    case good => exact fun bytes n howner hread => execSectorRead_owned hr herased hfree howner hread
    case failed => exact fun n howner hread => execSectorRead_owned hr herased hfree howner hread
  case unowned =>
    intro writer hub addr who data s hr herased howner
    show execSectorWrite writer hub addr who data s = _
    simp only [execSectorWrite, gated_runs hr, howner, herased, if_true]
  case poll =>
    intro stack rows s hr hstack herased hworks
    exact gated_if_neg hr (by simp [hstack, herased, hworks])
  case refresh =>
    intro stack perBank rfm s hr hstack hworks
    refine (gated_runs hr _).trans ?_
    simp only [hstack, hworks, true_and, and_true, ne_eq, not_false_eq_true]
  case repair =>
    intro stack row spare s hr hstack hdue hsppr hworks x m y n
    have hrepairs : ¬ (12 ≤ stack ∨ (nth s.mem.stk stack {}).state = 2 ∨ s.mem.due.contains (stack, row) = false ∨ s.fld .memPprCfg 0 0 4 4 = 0) := by
      simp [hstack, hdue, hsppr, hworks]
    refine (gated_if_neg hr hrepairs).trans ?_
    cases spare <;> rfl
  case sweep =>
    intro stack page r s hr hrotation hgoes hstack hworks hpage k step n m
    have hsweeps : ¬ (r.paused = true ∨ 12 ≤ stack ∨ (nth s.mem.stk stack {}).state = 2 ∨
        nextPage (s.ownerSpans r.owner stack) (nth r.next stack 0) ≠ some page) := by
      simp [hgoes, hstack, hworks, hpage]
    show execSweepPageDone stack page s = _
    simp only [execSweepPageDone, gated_runs hr, hrotation]
    exact if_neg hsweeps
  case erase =>
    intro s hr hstep hfilling
    exact ⟨_, gated_if_neg hr (by simp [hfilling, hstep]), rfl, rfl, rfl, rfl, rfl, rfl, rfl⟩
  case scrub => exact fun tenant x l s hr hline herr => ⟨s.scrubbed tenant (x :: l), execMemScrubDone_ends hr hline herr, rfl, rfl, rfl, rfl⟩
  case lastScrub => exact fun tenant s hr hline herr => ⟨s.scrubbed tenant [], execMemScrubDone_ends hr hline herr, rfl, rfl, rfl⟩

/-- Settles O41: each service finds its arguments in form, and a self-test runs from its request until its tests end. -/
theorem servicesShow : Obligations.ServicesShow := by
  unfold Obligations.ServicesShow
  refine ⟨?status, ?starts, ?passes, ?fails, ?kem, ?owner⟩
  case status =>
    intro b c k s hserves harg hkey data
    show execShowStatus b s = _
    refine service_open_eq hserves rfl ?_
    rw [oneArgFault_none harg rfl, hkey]
  case starts =>
    intro b c failed s hserves hempty
    obtain ⟨m, ⟨hfront, hask⟩, hc, happroved, hidle, hform⟩ := hserves
    have hnone : (svcFault (parseSigned (m.drop 6)) true).or (argsFault [] 0 (parseSigned (m.drop 6)).body.length) = none := by
      rw [← hc, hempty, show svcFault c true = none from hform]
      rfl
    show execSelfTest b failed s = _
    simp only [execSelfTest, hfront, hask, hidle, hnone]
    simp [happroved]
  case passes =>
    intro b m s hasked htesting
    obtain ⟨hfront, hask⟩ := hasked
    show execSelfTest b none s = _
    unfold execSelfTest
    rw [hfront]
    dsimp only
    rw [if_neg (not_not_intro hask), if_pos htesting]
    rfl
  case fails =>
    intro b k m s hasked htesting n
    obtain ⟨hfront, hask⟩ := hasked
    show execSelfTest b (some k) s = _
    unfold execSelfTest
    rw [hfront]
    dsimp only
    rw [if_neg (not_not_intro hask), if_pos htesting]
    rfl
  case kem =>
    intro b c s hserves hempty k
    show execKemPublic b s = _
    refine service_open_eq hserves rfl ?_
    dsimp only
    rw [hempty]
    rfl
  case owner =>
    intro b c s hserves hlen h howner keys
    show execSetOwner b s = _
    refine service_open_eq hserves rfl ?_
    have hargs : argsFault [96, 2592] 0 c.body.length = none := by rw [hlen]; rfl
    have hmay : (match s.sec.owner with | none => true | some o => s.sec.lost && o == h) = true := by
      obtain hblank | ⟨hfused, hlost⟩ := howner
      · rw [hblank]
      · rw [hfused]
        simp [hlost]
    dsimp only
    rw [hargs]
    exact if_neg (ne_false_of_eq_true hmay)

/-- Settles O42: each service of the crypto officer finds its arguments in form and its own conditions met. -/
theorem officerManages : Obligations.OfficerManages := by
  unfold Obligations.OfficerManages
  refine ⟨?enrol, ?revoke, ?raise, ?policy, ?tenancy, ?zeroise⟩
  case enrol =>
    intro b c s n hserves hproves hlen hentry hroom k a
    show execEnrolKey b s = _
    refine service_role_eq hserves rfl hproves ?_
    have hform : (argsFault [2736] 0 c.body.length).or (n.entryFault c.body) = none := by rw [hlen, hentry]; rfl
    dsimp only
    rw [hform]
    exact if_neg (Nat.not_le.2 hroom)
  case revoke =>
    intro b c s n hserves hproves harg hother hthere a
    show execRevokeKey b s = _
    refine service_role_eq hserves rfl hproves ?_
    dsimp only
    rw [oneArgFault_none harg (by simpa [hother] using hthere)]
  case raise =>
    intro b c s n hserves hproves harg hmore hslot a
    show execRaiseMinVersion b s = _
    refine service_role_eq hserves rfl hproves ?_
    dsimp only
    rw [oneArgFault_none harg (by simpa using hmore)]
    exact if_neg (Nat.not_le.2 hslot)
  case policy =>
    intro b c s n hserves hproves harg hpolicy
    show execSetSigPolicy b s = _
    refine service_role_eq hserves rfl hproves ?_
    dsimp only
    rw [oneArgFault_none harg (by simpa using hpolicy)]
  case tenancy =>
    intro b c s n hserves hproves harg hvalue hdrained hnone hchange a
    show execSetTenancy b s = _
    refine service_role_eq hserves rfl hproves ?_
    dsimp only
    rw [oneArgFault_none harg (by simpa using hvalue)]
    refine (if_neg (ne_false_of_eq_true hdrained)).trans ((if_neg ?_).trans (if_neg hchange))
    simp [hnone]
  case zeroise =>
    intro b c s n hserves hproves hempty keep a
    show execZeroise b s = _
    refine service_role_eq hserves rfl hproves ?_
    dsimp only
    rw [hempty]
    rfl

/-- Settles O43: each service on a key finds its arguments in form; an import has the length that its wrapped key gives it. -/
theorem keysMove : Obligations.KeysMove := by
  unfold Obligations.KeysMove
  refine ⟨?cak, ?load, fun n => rfl, ?delete, ?rotate, ?release⟩
  case cak =>
    intro b c key s n hserves p t hproves hres hport hkey
    show execLoadMacsecCak b s = _
    unfold execLoadMacsecCak
    extract_lets tenantOf
    refine service_role_eq (g := fun c k => k.officer (tenantOf (leAt c.body 0 4))) hserves rfl hproves ?_
    have hargs : argsFault [4, 4, 32, 1568, 40] 0 c.body.length = none := by rw [State.importKey_length hkey]; rfl
    dsimp only
    rw [if_neg (not_not_intro hport), if_neg (not_not_intro hres), hargs]
    dsimp only
    rw [hkey]
  case load =>
    intro b c key s n hserves hproves id t rest ht hkey hroom keys
    show execLoadExportKey b s = _
    refine service_role_eq hserves rfl hproves ?_
    have hargs : argsFault [4, 4, 1568, 40] 0 c.body.length = none := by rw [State.importKey_length hkey]; rfl
    dsimp only
    rw [if_neg (Nat.not_le.2 ht), hargs]
    dsimp only
    rw [hkey]
    exact if_neg (Nat.not_le.2 hroom)
  case delete =>
    intro b c s n hserves hproves id t ht hlen hthere hexport himport
    show execDeleteExportKey b s = _
    refine service_role_eq hserves rfl hproves ?_
    have hargs : argsFault [4, 4] 0 c.body.length = none := by rw [hlen]; rfl
    have hnamed : ¬ (n.exportKey? t id).isNone = true := by simpa using Option.isSome_iff_ne_none.1 hthere
    dsimp only
    rw [if_neg (Nat.not_le.2 ht), if_neg hnamed, hargs]
    exact if_neg (by rw [hexport, himport]; exact Bool.false_ne_true)
  case rotate =>
    intro b c s n hserves hproves harg howner hnone
    show execRotateMemKey b s = _
    refine service_role_eq hserves rfl hproves ?_
    dsimp only
    rw [oneArgFault_none harg (by simpa using howner)]
    dsimp only
    rw [hnone]
  case release =>
    intro b c s n hserves hproves harg t ht hdrained a
    show execReleaseTenant b s = _
    refine service_role_eq hserves rfl hproves ?_
    dsimp only
    rw [oneArgFault_none harg (by simpa using ht)]
    exact if_neg (ne_false_of_eq_true hdrained)

/-- Settles O44: in approved mode each request gets its answer, and one that draws a nonce leaves the generator moved on. -/
theorem spdmAnswers : Obligations.SpdmAnswers := by
  unfold Obligations.SpdmAnswers
  intro b m s happroved
  refine ⟨?version, ?capabilities, ?algorithms, ?digests, ?certificate, ?challenge, ?measurements⟩
  case version =>
    intro hasked
    show execGetVersion b s = _
    exact spdm_asked happroved hasked _
  case capabilities =>
    intro hasked
    show execGetCapabilities b s = _
    exact spdm_asked happroved hasked _
  case algorithms =>
    intro hasked
    show execNegotiateAlgorithms b s = _
    exact spdm_asked happroved hasked _
  case digests =>
    intro hasked
    show execGetDigests b s = _
    exact spdm_asked happroved hasked _
  case certificate =>
    intro hasked
    show execGetCertificate b s = _
    exact spdm_asked happroved hasked _
  case challenge =>
    intro hasked hslot all body
    show execChallenge b s = _
    refine (spdmWith_asked happroved hasked _).trans ?_
    dsimp only
    rw [if_neg (not_not_intro hslot)]
  case measurements =>
    intro hasked hop op wanted blocks body sign
    show execGetMeasurements b s = _
    refine (spdmWith_asked happroved hasked _).trans ?_
    dsimp only
    rw [if_neg (by omega)]

end

/-! SUPPORT. Registers and units: where an address lies in no register, the reads of a run of words, the parts of a unit's address. -/

namespace Sys2Proof.Machine

/-! ### Addresses in no register (R545, R550) -/

/-- The bytes from the base of a register to past its last copy. -/
def RegDesc.extent (d : RegDesc) : Nat := (d.dims.map (fun x => x.1 * x.2)).sum + 4 * d.words

/-- The walk over the copies takes off at most the bytes of all copies. -/
theorem le_walkDims_add (dims : List (Nat × Nat)) (off i : Nat) : off ≤ (walkDims dims off i).2 + (dims.map (fun x => x.1 * x.2)).sum := by
  induction dims generalizing off i with
  | nil => simp [walkDims]
  | cons x l ih =>
    obtain ⟨n, st⟩ := x
    have hrest := ih (off - min (off / st) (n - 1) * st) (i * n + min (off / st) (n - 1))
    have htaken : min (off / st) (n - 1) * st ≤ n * st := Nat.mul_le_mul_right _ (by omega)
    simp only [walkDims, List.map_cons, List.sum_cons]
    omega

/-- An address below a register lies not in it. -/
theorem RegDesc.at_below {d : RegDesc} {addr : Nat} (h : addr < d.base) : d.at_ addr = none := if_pos h

/-- An address past a register lies not in it. -/
theorem RegDesc.at_past {d : RegDesc} {addr : Nat} (h : d.base + d.extent ≤ addr) : d.at_ addr = none := by
  unfold RegDesc.extent at h
  have hwalk := le_walkDims_add d.dims (addr - d.base) 0
  have hword : ¬ (walkDims d.dims (addr - d.base) 0).2 / 4 < d.words := by omega
  unfold RegDesc.at_
  rw [if_neg (by omega)]
  exact if_neg (by simp [hword])

/-- An address lies in no register where it lies in none of the table. -/
theorem locate_none {addr : Nat} (h : ∀ d ∈ regTable, d.at_ addr = none) : locate addr = none := by
  unfold locate
  rw [List.findSome?_eq_none_iff]
  intro d hd
  rw [h d hd]
  rfl

/-- Every register lies in the blocks up to 0x19. -/
theorem regTable_extent : ∀ d ∈ regTable, d.base + d.extent ≤ 0x1B * 2 ^ 24 := by
  have hall : regTable.all (fun d => decide (d.base + d.extent ≤ 0x1B * 2 ^ 24)) = true := rfl
  simpa only [List.all_eq_true, decide_eq_true_eq] using hall

/-- An address in no block lies in no register. -/
theorem locate_noBlock {addr : Nat} (h : 0x1A < addr / 2 ^ 24) : locate addr = none :=
  locate_none fun d hd => RegDesc.at_past ((regTable_extent d hd).trans (by omega))

/-- Every register but TOP_ID lies past block 0x00. -/
theorem regTable_base : ∀ d ∈ regTable.tail, 2 ^ 24 ≤ d.base := by
  have hall : regTable.tail.all (fun d => decide (2 ^ 24 ≤ d.base)) = true := rfl
  simpa only [List.all_eq_true, decide_eq_true_eq] using hall

/-- The addresses of block 0x00 but the first lie in no register (R576). -/
theorem locate_block0 {addr : Nat} (hpos : 0 < addr) (h : addr < 2 ^ 24) : locate addr = none := by
  refine locate_none fun d hd => ?_
  rcases List.mem_cons.1 (show d ∈ RegDesc.mk .topId 0x00000000 1 false [] .ro false [] [] [] [] :: regTable.tail from hd) with rfl | hd
  · simp only [RegDesc.at_, walkDims]
    rw [if_neg (by omega)]
    exact if_neg (by simp; omega)
  · exact RegDesc.at_below (Nat.lt_of_lt_of_le h (regTable_base d hd))

/-- The first address is TOP_ID's. -/
theorem locate_topId : locate 0 = some (RegDesc.mk .topId 0x00000000 1 false [] .ro false [] [] [] [], 0, 0) := rfl

/-! ### Reads and writes of one word -/

section
variable {s : State} {path tenant addr : Nat}

/-- An address in no block is refused on a read (R550). -/
theorem State.readWord_noBlock (h : 0x1A < addr / 2 ^ 24) : s.readWord path tenant addr = .error (rcOk, 0x17) := if_pos h

/-- An address in no block is refused on a write (R550). -/
theorem State.writeWord_noBlock (h : 0x1A < addr / 2 ^ 24) (mask value : Nat) : s.writeWord path tenant addr mask value = .error (rcOk, 0x17) := if_pos h

/-- An address of a block that answers, in no register, reads as 0 (R550). -/
theorem State.readWord_noReg (hblock : addr / 2 ^ 24 < 0x1A) (hnone : locate addr = none) (hans : s.answers (addr / 2 ^ 24) = true) :
    s.readWord path tenant addr = .ok (0, s) := by
  unfold State.readWord
  dsimp only
  rw [if_neg (by omega), if_neg (ne_false_of_eq_true hans), if_neg (by omega), hnone]

/-- A write to it is refused (R12, R550). -/
theorem State.writeWord_noReg (hblock : addr / 2 ^ 24 < 0x1A) (hnone : locate addr = none) (hans : s.answers (addr / 2 ^ 24) = true) (mask value : Nat) :
    s.writeWord path tenant addr mask value = .error (rcOk, 0x18) := by
  unfold State.writeWord
  dsimp only
  rw [if_neg (by omega), if_neg (ne_false_of_eq_true hans), if_neg (by omega), hnone]

/-- A write to an address in no register leaves no staging word behind. -/
theorem State.writeRefused_noReg (hnone : locate addr = none) : s.writeRefused path tenant addr = s := by
  unfold State.writeRefused
  rw [hnone]

end

/-- A run of words that has been read up to a word goes on from it. -/
theorem State.readWords_upTo {path tenant addr : Nat} {s m : State} {i j : Nat} {acc w : List Byte} (n : Nat)
    (h : s.readWords path tenant addr i j acc = .ok (w, m)) :
    s.readWords path tenant addr (i + n) j acc = m.readWords path tenant addr n (j + i) w := by
  induction i generalizing s j acc with
  | zero =>
    obtain ⟨rfl, rfl⟩ := Prod.mk.inj (Except.ok.inj h)
    rw [Nat.zero_add, Nat.add_zero]
  | succ i ih =>
    rw [State.readWords] at h
    rw [Nat.add_right_comm, State.readWords]
    cases hread : s.readWord path tenant (addr + 4 * j) with
    | error e => rw [hread] at h; cases h
    | ok x =>
      rw [hread] at h
      exact (ih h).trans (by rw [Nat.add_right_comm, Nat.add_assoc])

/-! ### The parts of a unit's address (Table 18.1) -/

/-- A tile's address gives its class, its die and its tile. -/
theorem unit_of_tile {die tile : Nat} (hdie : die < 8) (htile : tile < 66) :
    (0x1000 + 66 * die + tile) / 4096 = 1 ∧ (0x1000 + 66 * die + tile) % 4096 / 66 = die ∧ (0x1000 + 66 * die + tile) % 4096 % 66 = tile ∧
      unitNamed (0x1000 + 66 * die + tile) = true := by
  have hclass : (0x1000 + 66 * die + tile) / 4096 = 1 := by omega
  refine ⟨hclass, by omega, by omega, ?_⟩
  simp only [unitNamed, hclass, decide_eq_true_eq]
  omega

/-- A match unit's address gives its class, its die and its unit. -/
theorem unit_of_mu {die mu : Nat} (hdie : die < 8) (hmu : mu < 9) :
    (0x2000 + 9 * die + mu) / 4096 = 2 ∧ (0x2000 + 9 * die + mu) % 4096 / 9 = die ∧ (0x2000 + 9 * die + mu) % 4096 % 9 = mu ∧
      unitNamed (0x2000 + 9 * die + mu) = true := by
  have hclass : (0x2000 + 9 * die + mu) / 4096 = 2 := by omega
  refine ⟨hclass, by omega, by omega, ?_⟩
  simp only [unitNamed, hclass, decide_eq_true_eq]
  omega

/-- A die link's address gives its class, and the link is there. -/
theorem unit_of_link {link : Nat} (s : State) (h : link < 17) : (0x4000 + link) / 4096 = 4 ∧ s.unitThere (0x4000 + link) = true := by
  have hclass : (0x4000 + link) / 4096 = 4 := by omega
  have hin : (0x4000 + link) % 4096 < 17 := by omega
  exact ⟨hclass, by simp [State.unitThere, unitNamed, hclass, hin]⟩

/-! ### A held reset -/

/-- A command of a part in reset does nothing while a reset is held (R528, R554, R567, R571). -/
theorem exec_held {c : Instr} {s : State} (hc : c.inReset = false) (h : ¬ s.runs) : exec c s = .next s := by
  cases c <;> simp only [Instr.inReset, Bool.true_eq_false] at hc <;> exact gated_held h _

/-- A reading does nothing while a cold reset is held. -/
theorem gatedCold_held {s : State} (h : s.pins.held = true) (x : Out) : s.gatedCold x = .next s := if_pos h

/-- A device whose pins let it go leaves a held cold reset (R568, R570). -/
theorem State.release_goes {s : State} (hcold : s.pins.coldN = true) (haux : s.pins.auxPg = true) (htrip : s.power.trip = none) :
    s.release = State.putStraps { s with pins := { s.pins with coreEn := true, held := false, straps := s.pins.pinStraps } } s.pins.pinStraps :=
  if_pos ⟨hcold, haux, by rw [htrip]; rfl⟩

end Sys2Proof.Machine

/-! ### The statements of the queue, the pins, the units and the registers -/

section
open Sys2Proof Sys2Proof.Machine

/-- Settles O1: the definition of a step. -/
theorem stepRunsFront : Obligations.StepRunsFront := by
  unfold Obligations.StepRunsFront
  intro c rest s
  rfl

/-- Settles O6: every other command stands behind the gate of a held reset. -/
theorem heldResetStopsParts : Obligations.HeldResetStopsParts := by
  unfold Obligations.HeldResetStopsParts
  refine ⟨fun _ _ hc h => exec_held hc h, fun _ _ _ _ hheld => ⟨gatedCold_held hheld _, gatedCold_held hheld _⟩⟩

/-- Settles O45: while no reset is held each error, reset and return of a unit has its effect. -/
theorem unitsFail : Obligations.UnitsFail := by
  unfold Obligations.UnitsFail
  refine ⟨?corrected, ?retried, ?uncorrected, ?tileReset, ?muReset, ?retire, ?reset, ?reinstate, ?core, ?watchdog, ?link⟩
  case corrected =>
    intro unit s hr hthere
    show execCorrectableError { unit := unit } s = _
    refine (gated_runs hr _).trans (congrArg Host.Outcome.next ?_)
    rw [if_neg (by simp [hthere])]
    exact if_neg (by simp)
  case retried =>
    intro link s hr hlink
    obtain ⟨hclass, hthere⟩ := unit_of_link s hlink
    show execCorrectableError { unit := 0x4000 + link, once := true } s = _
    refine (gated_runs hr _).trans (congrArg Host.Outcome.next ?_)
    rw [if_neg (by simp [hthere])]
    exact if_pos ⟨rfl, hclass⟩
  case uncorrected =>
    intro unit detail s hr hthere
    show execUncorrectableError unit detail s = _
    exact (gated_runs hr _).trans (congrArg Host.Outcome.next (if_pos hthere))
  case tileReset =>
    intro die tile pass s hr hdie htile hresetting u v n m
    obtain ⟨hclass, hd, ht, hnamed⟩ := unit_of_tile hdie htile
    show execRelUnitReset u pass s = _
    unfold execRelUnitReset
    rw [gated_runs hr]
    dsimp only
    rw [if_pos hclass, if_pos hclass, hd, ht, if_neg (by simp [u, hclass, hnamed, hresetting])]
  case muReset =>
    intro die mu pass s hr hdie hmu hresetting u v n m
    obtain ⟨hclass, hd, hm, hnamed⟩ := unit_of_mu hdie hmu
    have hother : ¬ u / 4096 = 1 := by simp only [u]; omega
    show execRelUnitReset u pass s = _
    unfold execRelUnitReset
    rw [gated_runs hr]
    dsimp only
    rw [if_neg hother, if_neg hother, hd, hm, if_neg (by simp [u, hclass, hnamed, hresetting])]
  case retire =>
    intro unit s hr hmay
    show execUnitRetire unit s = _
    exact (gated_runs hr _).trans (congrArg Host.Outcome.next (if_pos hmay))
  case reset =>
    intro unit s hr hmay
    show execUnitReset unit s = _
    exact (gated_runs hr _).trans (congrArg Host.Outcome.next (if_pos hmay))
  case reinstate =>
    intro unit s hr hmay n
    have hgoes : ¬ s.canReinstate unit = false := by simp [hmay]
    refine ⟨fun hclass => ?tile, fun hclass => ?mu, fun hclass => ?engine, fun hclass => ?fails⟩
    case tile =>
      show execUnitReinstate unit true s = _
      refine (gated_if_neg hr hgoes).trans ?_
      rw [hclass]
      rfl
    case mu =>
      show execUnitReinstate unit true s = _
      refine (gated_if_neg hr hgoes).trans ?_
      rw [hclass]
      rfl
    case engine =>
      show execUnitReinstate unit true s = _
      refine (gated_if_neg hr hgoes).trans ?_
      rw [hclass]
      rfl
    case fails =>
      show execUnitReinstate unit false s = _
      refine (gated_if_neg hr hgoes).trans ?_
      rcases hclass with hclass | hclass | hclass <;> rw [hclass] <;> rfl
  case core =>
    intro core s hr hresetting u n
    show execRelCoreReset core s = _
    exact gated_if_neg hr (by simp [hresetting])
  case watchdog => exact fun s hr => gated_runs hr _
  case link =>
    intro link s hr htesting hlink n
    show execDieLinkTrainingComplete link s = _
    refine gated_if_neg hr ?_
    rintro (hnot | hpast)
    · exact hnot htesting
    · omega

/-- Settles O51: an access is what the word's write or read comes to. -/
theorem registersAnswer : Obligations.RegistersAnswer := by
  unfold Obligations.RegistersAnswer
  refine ⟨?written, ?refused, ?latched, ?cold, ?warm⟩
  case written =>
    intro path tenant addr mask value s n h
    show execRegisterWrite path tenant addr mask value s = _
    unfold execRegisterWrite
    rw [h]
  case refused =>
    intro path tenant addr mask value rc d s h n
    show execRegisterWrite path tenant addr mask value s = _
    unfold execRegisterWrite
    rw [h]
  case latched =>
    intro path tenant addr v s n h
    show execWord0ReadLatch path tenant addr s = _
    unfold execWord0ReadLatch
    rw [h]
  case cold =>
    intro value s h
    exact congrArg Host.Outcome.next (if_pos h)
  case warm =>
    intro value s hcold hwarm
    exact congrArg Host.Outcome.next ((if_neg (by simp [hcold])).trans (if_pos hwarm))

/-- Settles O52: each pin acts at its edge, and a test instruction is loaded while the test logic is out of reset. -/
theorem pinsAct : Obligations.PinsAct := by
  unfold Obligations.PinsAct
  refine ⟨?coldLow, ?coldHigh, ?auxLow, ?auxHigh, ?warmLow, fun _ => rfl, fun _ => rfl, fun _ => rfl, ?jtag, ?power⟩
  case coldLow => exact fun s h => if_neg (by simp [h])
  case coldHigh =>
    intro s hcold haux htrip p
    show execColdRstNDeassert s = _
    refine (if_neg (by simp [hcold])).trans (congrArg Host.Outcome.next ?_)
    exact State.release_goes rfl haux htrip
  case auxLow => exact fun s h => if_neg (by simp [h])
  case auxHigh =>
    intro s haux hcold htrip p
    show execAuxPgRise s = _
    refine (if_neg (by simp [haux])).trans (congrArg Host.Outcome.next ?_)
    exact State.release_goes hcold rfl htrip
  case warmLow =>
    intro s hwarm hheld n
    show execWarmRstNAssert s = _
    exact (if_neg (by simp [hwarm])).trans (if_neg (by simp [hheld]))
  case jtag =>
    intro s htrst ir
    have hload : ∀ k, Host.Outcome.next (s.loadIr k) = (Host.Outcome.next (ir k) : Out) := fun _ => congrArg Host.Outcome.next (if_pos htrst)
    exact ⟨hload 0, hload 1, hload 2, hload 3, hload 4, hload 5, hload 6⟩
  case power => exact fun straps flash s => ⟨_, rfl, rfl, rfl, rfl, rfl, rfl, rfl⟩

/-- Settles O53: TOP_ID is the register of the first address, and no other register lies in its block. -/
theorem topIdReads : Obligations.TopIdReads := by
  unfold Obligations.TopIdReads
  have hreads : ∀ (path tenant : Nat) (s : State), s.readWord path tenant 0 = .ok (0x0A771100 + 16 * s.fuse.grade, s) := fun _ _ _ => rfl
  refine ⟨fun path tenant s => ⟨hreads path tenant s, ?a, ?b⟩, fun _ _ _ _ _ => rfl, fun _ => locate_block0⟩
  case a => exact fun hgrade => by rw [hreads, hgrade]
  case b => exact fun hgrade => by rw [hreads, hgrade]

/-- Settles O54: an address in no register reads as 0 and takes no write; one in no block ends a command at the first word that names it. -/
theorem unlistedAddresses : Obligations.UnlistedAddresses := by
  unfold Obligations.UnlistedAddresses
  refine ⟨?noReg, ?noView, ?noBlock, ?reads, ?writes⟩
  case noReg =>
    intro path tenant addr s hblock hnone hans
    exact ⟨State.readWord_noReg hblock hnone hans, State.writeWord_noReg hblock hnone hans⟩
  case noView =>
    intro path tenant addr s hblock hoff hans
    refine ⟨?_, fun mask value => ?_⟩
    · unfold State.readWord
      dsimp only
      rw [if_neg (by omega), hblock, if_neg (by simp [hans]), if_pos rfl, if_neg (by simp; omega)]
      unfold State.viewWord
      dsimp only
      rw [if_neg (by omega), if_neg (by omega)]
    · unfold State.writeWord
      dsimp only
      rw [if_neg (by omega), hblock, if_neg (by simp [hans]), if_pos rfl, if_pos hoff]
  case noBlock =>
    intro path tenant addr mask value s hblock
    exact ⟨State.readWord_noBlock hblock, State.writeWord_noBlock hblock mask value⟩
  case reads =>
    intro c l i w m s hr hfirst hlen a k halign hi hk hread hblock
    obtain ⟨r, hkr⟩ : ∃ r, k = i + (r + 1) := ⟨k - i - 1, by omega⟩
    have hfails : (s.leaving l).readWords c.path c.cmd.tenant a k 0 [] = .error (rcOk, 0x17, i) := by
      rw [hkr, State.readWords_upTo _ hread, State.readWords, Nat.zero_add, State.readWord_noBlock hblock]
    show execReadReg s = _
    refine cmd_first_eq hr hfirst ?_
    dsimp only
    rw [if_neg (by omega), hfails]
    exact if_pos rfl
  case writes =>
    intro c l s hr hfirst hlen hzero hblock
    have hnone := locate_noBlock hblock
    show execWriteReg s = _
    refine cmd_first_eq hr hfirst ?_
    dsimp only
    rw [if_neg (by simp [hlen, hzero]), hnone, if_neg (by simp), State.writeWord_noBlock hblock]
    dsimp only
    rw [State.writeRefused_noReg hnone]
    exact if_pos rfl

end

/-! ### The statements of power, clocks and heat -/

section
open Sys2Proof Sys2Proof.Machine

/-- Settles O46: each supply command acts under its own condition, and a setpoint that is asked for waits or is taken. -/
theorem suppliesAct : Obligations.SuppliesAct := by
  unfold Obligations.SuppliesAct
  refine ⟨?current, ?warned, ?asked, ?step, ?reached, ?warns, ?release, ?resets, fun _ _ _ => rfl, ?range⟩
  case current => exact fun d cur s hr => gated_runs hr _
  case warned =>
    intro d k s hwarn
    unfold State.askSetpoint
    simp [hwarn]
  case asked =>
    intro d k s hwarn waits
    unfold State.askSetpoint
    simp [hwarn, waits]
  case step =>
    intro d margin s hr hd hon hgoal hlast k go
    have hgoes : exec (.adaptiveVoltageStep d margin) s =
        (if 8 ≤ margin ∧ s.vmin d < k then .next (go (k - 1)) else if margin < 4 ∧ k < s.vmax d then .next (go (k + 1)) else .next s) := by
      show execAdaptiveVoltageStep d margin s = _
      refine gated_if_neg hr ?_
      cases hlastStep : (s.sup d).lastStep with
      | none => simp [hon, hgoal, hd]
      | some t =>
        have := hlast t hlastStep
        simp [hon, hgoal, hd]
        omega
    rw [hgoes]
    exact ⟨fun hwide hlow => if_pos ⟨hwide, hlow⟩, fun hthin hhigh => (if_neg (by omega)).trans (if_pos ⟨hthin, hhigh⟩),
      fun hthin hwide => (if_neg (by omega)).trans (if_neg (by omega))⟩
  case reached =>
    intro d t reported s hr hraised hdone x
    show execSetpointReached d reported s = _
    refine (gated_runs hr _).trans ?_
    dsimp only
    rw [hraised]
    exact if_pos (by simpa using hdone)
  case warns =>
    intro d mv s hr hd hbelow n
    show execVwarnCrossing d mv s = _
    exact gated_if_neg hr (by omega)
  case release =>
    intro d mv above ok margin s hr x n warnEnds timingEnds
    show execStretchRelease d mv above margin ok s = _
    refine (gated_runs hr _).trans ?_
    simp only [warnEnds, timingEnds, Bool.decide_and, Bool.and_assoc]
    rfl
  case resets =>
    intro d mv s hr hd hbelow n
    show execVrstCrossing d mv s = _
    exact gated_if_neg hr (by omega)
  case range =>
    intro d s hr hstep
    show execSupplyRangeTimeout d s = _
    exact gated_if_neg hr (by omega)

/-- Settles O47: a lost input, a return and an expiry act on the reference; an island's clock steps towards its goal. -/
theorem clocksMove : Obligations.ClocksMove := by
  unfold Obligations.ClocksMove
  refine ⟨?main, ?redundant, ?revert, ?expiry, ?step, ?emergency⟩
  case main =>
    intro s hok f g n
    show execRefInputLost false s = _
    refine (if_neg (by simp [hok])).trans ?_
    dsimp only
    cases hred : s.power.ref.redOk <;> simp [f, g, n, hred, apply_ite Host.Outcome.next]
  case redundant =>
    intro s hok f g n
    show execRefInputLost true s = _
    refine (if_neg (by simp [hok])).trans ?_
    dsimp only
    cases hmain : s.power.ref.mainOk <;> simp [f, g, n, hmain, apply_ite Host.Outcome.next]
  case revert =>
    intro good s hpos hsince n
    show execRefRevert good s = _
    refine (if_neg (by omega)).trans ?_
    exact (apply_ite Host.Outcome.next _ _ _).symm
  case expiry =>
    intro t s hlost hpast n
    show execRefHoldExpiry s = _
    unfold execRefHoldExpiry
    rw [hlost]
    exact if_neg (by omega)
  case step =>
    intro die limit s hr hdie hon hlast x top goal
    show execAdaptiveClockStep die limit s = _
    refine (gated_if_neg hr ?_).trans ?_
    · cases hlastClk : (s.heat die).lastClk with
      | none => simp [hon, hdie]
      | some t =>
        have := hlast t hlastClk
        simp [hon, hdie]
        omega
    · simp only [apply_ite Host.Outcome.next]
      rfl
  case emergency =>
    intro d margin s hr hd hoff hmargin hmax htiming n
    show execTimingEmergency d margin s = _
    exact gated_if_neg hr (by simp [hoff, hmax, htiming]; omega)

/-- Settles O48: a reading trips its die or stack, or sets its stage; a trip ends once all has cooled; the cap's loop decides at the end of its period. -/
theorem heatActs : Obligations.HeatActs := by
  unfold Obligations.HeatActs
  refine ⟨?reading, ?blind, ?restore, ?stack, ?gauge, ?cap⟩
  case reading =>
    intro die ds s hheld hdie hds hsome ok temp x
    have hgoes : ¬ (10 ≤ die ∨ SMap.getD (fun _ => []) s.mgmt.gauge die = []) := by
      rintro (hfar | hnone)
      · omega
      · exact hsome (by rw [← hds, hnone]; rfl)
    refine ⟨fun hhot => ?trips, fun hcool => ?stays⟩
    case trips =>
      show execThermalReading die s = _
      refine (gatedCold_runs hheld _).trans ?_
      refine (if_neg hgoes).trans ?_
      dsimp only
      rw [hds, if_neg hsome]
      exact if_pos ⟨hsome, hhot⟩
    case stays =>
      show execThermalReading die s = _
      refine (gatedCold_runs hheld _).trans ?_
      refine (if_neg hgoes).trans ?_
      dsimp only
      rw [hds, if_neg hsome, if_neg (fun h => absurd h.2 (Int.not_le.2 hcool)), if_neg hsome, List.isEmpty_eq_false_iff.2 hsome, Bool.false_or]
      exact (apply_ite Host.Outcome.next _ _ _).symm
  case blind =>
    intro die ds s hheld hdie hds hne hnone x low y n
    have hgoes : ¬ (10 ≤ die ∨ SMap.getD (fun _ => []) s.mgmt.gauge die = []) := by
      rintro (hfar | hempty)
      · omega
      · exact hne (hds ▸ hempty)
    show execThermalReading die s = _
    refine (gatedCold_runs hheld _).trans ?_
    refine (if_neg hgoes).trans ?_
    dsimp only
    rw [hds, hnone, if_pos rfl, if_neg (fun h => h.1 rfl), if_pos rfl, List.isEmpty_nil, Bool.true_or, Bool.and_true]
    by_cases hlimit : x.stage = 2
    · exact (if_pos hlimit.symm).trans (congrArg Host.Outcome.next (if_pos hlimit).symm)
    · exact (if_neg (Ne.symm hlimit)).trans (congrArg Host.Outcome.next (if_neg hlimit).symm)
  case restore =>
    intro temps sts u t s htrip htemps hsts hcool hcooled up p w
    show execTripRestore temps sts s = _
    unfold execTripRestore
    rw [htrip]
    exact if_neg (by simp [htemps, hsts]; exact ⟨hcool, hcooled⟩)
  case stack =>
    intro stack temp s hheld hstack x
    have hgoes : ¬ 12 ≤ stack := by omega
    refine ⟨fun hhot => ?trips, fun hcool => ?stays⟩
    case trips =>
      show execStackTemperatureReport stack temp s = _
      exact (gatedCold_runs hheld _).trans ((if_neg hgoes).trans (if_pos hhot))
    case stays =>
      intro hot n
      show execStackTemperatureReport stack temp s = _
      refine (gatedCold_runs hheld _).trans ((if_neg hgoes).trans ((if_neg (Nat.not_le.2 hcool)).trans ?_))
      exact (apply_ite Host.Outcome.next _ _ _).symm
  case gauge =>
    intro die temps s hdie hlen was anew n
    show execGaugeSample die temps s = _
    exact if_neg (by omega)
  case cap =>
    intro core share cur s hr hstep
    extract_lets e pj p hubs n hot above was c a m
    show execCapPeriodEnd core share cur s = _
    refine (gated_if_neg hr (by omega)).trans ?_
    rw [apply_ite Host.Outcome.next, apply_ite Host.Outcome.next]

end

/-! SUPPORT. The firmware update: a state of it that leads to another. -/

namespace Sys2Proof.Machine

/-- An update that leaves a state keeps it as the last one. -/
theorem FwupSt.to_eq {f : FwupSt} {k : Nat} (h : f.state = k) (n : Nat) : f.to n = { f with state := n, prev := k } := by
  rw [FwupSt.to, h]

end Sys2Proof.Machine

/-! ### The statements of the management path and the firmware update -/

section
open Sys2Proof Sys2Proof.Machine

/-- Settles O49: a packet of one whole message is taken, and each request gets its answer. -/
theorem mgmtServes : Obligations.MgmtServes := by
  unfold Obligations.MgmtServes
  refine ⟨?packet, ?control, ?address, fun _ _ => rfl, ?pldm⟩
  case packet =>
    intro b pkt s hb hlink hshort hlong hversion hdest hfirst hlast key
    show execMctpPacket b pkt s = _
    refine (if_neg ?_).trans ((if_neg ?_).trans ((if_neg ?_).trans ?_))
    · rintro (hfar | ⟨hone, hoff⟩)
      · omega
      · obtain ⟨hon, hup⟩ := hlink hone
        rcases hoff with hoff | hdown
        · exact hon hoff
        · exact absurd (hup.symm.trans hdown) Bool.noConfusion
    · omega
    · omega
    · dsimp only
      rw [if_pos hfirst]
      exact if_pos hlast
  case control =>
    intro b m s
    refine ⟨fun hasked hop hlow hhigh => ?setId, fun hasked => ?getId, fun hasked => ?uuid, fun hasked => ?versions, fun hasked => ?types,
      fun hasked => ?vendor⟩
    case setId =>
      intro n
      show execSetEndpointId b s = _
      refine (serveMsg_asked hasked _).trans ?_
      dsimp only
      rw [if_neg (by omega)]
    case getId =>
      show execGetEndpointId b s = _
      exact serveMsg_asked hasked _
    case uuid =>
      show execGetEndpointUuid b s = _
      exact serveMsg_asked hasked _
    case versions =>
      show execGetMctpVersionSupport b s = _
      exact serveMsg_asked hasked _
    case types =>
      show execGetMessageTypeSupport b s = _
      exact serveMsg_asked hasked _
    case vendor =>
      show execGetVendorDefinedMessageSupport b s = _
      exact serveMsg_asked hasked _
  case address => exact fun addr s hpos htop => if_neg (by omega)
  case pldm =>
    intro b m s
    refine ⟨fun hasked => ?tid, fun hasked => ?version, fun hasked => ?types, fun hasked htype => ?commands, fun v hasked hsensor => ?numeric,
      fun v hasked hsensor => ?states, fun hasked => ?repository, fun hasked => ?record, fun hasked => ?receiver⟩
    case tid =>
      show execGetTid b s = _
      exact serveMsg_asked hasked _
    case version =>
      show execGetPldmVersion b s = _
      exact serveMsg_asked hasked _
    case types =>
      show execGetPldmTypes b s = _
      exact serveMsg_asked hasked _
    case commands =>
      show execGetPldmCommands b s = _
      refine (serveMsg_asked hasked _).trans ?_
      dsimp only
      rw [if_neg (by simp only [List.mem_cons, List.not_mem_nil, or_false]; exact not_not_intro htype)]
    case numeric =>
      show execGetSensorReading b s = _
      refine (serveMsg_asked hasked _).trans ?_
      dsimp only
      rw [hsensor]
      cases v <;> rfl
    case states =>
      show execGetStateSensorReadings b s = _
      refine (serveMsg_asked hasked _).trans ?_
      dsimp only
      rw [hsensor]
      cases v <;> rfl
    case repository =>
      show execGetPdrRepositoryInfo b s = _
      exact serveMsg_asked hasked _
    case record =>
      show execGetPdr b s = _
      exact serveMsg_asked hasked _
    case receiver =>
      show execSetEventReceiver b s = _
      exact serveMsg_asked hasked _

/-- Settles O50: each request of the update agent is answered in its state, and each message of the device leads to the next. -/
theorem updateRuns : Obligations.UpdateRuns := by
  unfold Obligations.UpdateRuns
  refine ⟨?asked, ?sends⟩
  case asked =>
    intro b m s f
    refine ⟨fun hasked => ?identifiers, fun hasked => ?parameters, fun hasked hon hidle happroved => ?request, fun hasked hstate => ?table,
      fun hasked hstate hsize hclass hid => ?component, fun hasked hstate happlied hplain => ?activate, fun hasked => ?status,
      fun hasked hbusy => ?cancel⟩
    case identifiers =>
      show execQueryDeviceIdentifiers b s = _
      exact serveMsg_asked hasked _
    case parameters =>
      show execGetFirmwareParameters b s = _
      exact serveMsg_asked hasked _
    case request =>
      intro g
      show execRequestUpdate b s = _
      refine (serveMsg_asked hasked _).trans ?_
      dsimp only
      rw [if_neg (by simp [happroved, hon]; exact hidle), FwupSt.to_eq hidle]
    case table =>
      intro last known
      show execPassComponentTable b s = _
      refine (serveMsg_asked hasked _).trans ?_
      dsimp only
      have hlast : ((leAt m 4 1 == 4 || leAt m 4 1 == 5) = true) = last := by simp [last]
      have hknown : (leAt m 5 2 == fwClass && leAt m 7 2 == 1) = decide known := (Bool.decide_and _ _).symm
      rw [if_neg (not_not_intro hstate), FwupSt.to_eq hstate, hknown]
      simp only [hlast, decide_eq_true_eq, b2n, ← decide_not]
      by_cases hk : known <;> simp [hk]
    case component =>
      intro n g
      show execUpdateComponent b s = _
      refine (serveMsg_asked hasked _).trans ?_
      dsimp only
      rw [if_neg (not_not_intro hstate), if_neg (by simp only [fwClass]; omega), FwupSt.to_eq hstate]
    case activate =>
      intro n
      show execActivateFirmware b s = _
      refine (serveMsg_asked hasked _).trans ?_
      rw [if_neg (by simp only [f] at hstate; omega), if_neg (by simp only [f] at hstate happlied; simp [hstate, happlied]), if_neg (not_not_intro hplain), FwupSt.to_eq hstate]
    case status =>
      show execGetStatus b s = _
      exact serveMsg_asked hasked _
    case cancel =>
      show execCancelUpdate b s = _
      refine (serveMsg_asked hasked _).trans ?_
      rw [if_neg hbusy]
  case sends =>
    intro b s hb f
    refine ⟨fun data hstate hmore => ?data, fun hstate hall => ?transfer, fun hstate => ?verify, fun hstate => ?apply⟩
    case data =>
      intro k d n m
      simp only [f] at hstate hmore
      show execRequestFirmwareData b data s = _
      exact if_neg (by omega)
    case transfer =>
      show execTransferComplete b s = _
      refine (if_neg ?_).trans ?_
      · simp only [f] at hstate hall
        omega
      · rw [FwupSt.to_eq hstate]
    case verify =>
      intro k n
      show execVerifyComplete b s = _
      refine (if_neg ?_).trans ?_
      · simp only [f] at hstate
        omega
      · rw [FwupSt.to_eq hstate]
        exact (apply_ite Host.Outcome.next _ _ _).symm
    case apply =>
      show execApplyComplete b s = _
      refine (if_neg ?_).trans ?_
      · simp only [f] at hstate
        omega
      · rw [FwupSt.to_eq hstate]

end

/-! SUPPORT. Performance counters over the resets: what a reset of the device keeps of them, and what the writes of a unit's images count. -/

namespace Sys2Proof.Machine

/-- Two registers whose copies fit their bits have one store key only where they are one, with one copy. -/
theorem regKey_inj {n m : RegName} {i j : Nat} (hi : i < 2 ^ 26) (hj : j < 2 ^ 26) (h : regKey n i 0 = regKey m j 0) : n = m ∧ i = j := by
  unfold regKey at h
  have hidx : n.ctorIdx = m.ctorIdx := by omega
  exact ⟨by rw [← RegName.ofNat_ctorIdx n, hidx, RegName.ofNat_ctorIdx], by omega⟩

/-! ### Resets of the device -/

/-- A cold reset clears every performance counter (R541). -/
theorem State.cnt_coldReset (s : State) (cause unit : Nat) (n : RegName) (copy : Nat) : (s.coldReset cause unit).cnt n copy = 0 := by
  refine coldReset_of (P := fun x => x.cnt n copy = 0) (fun _ _ h => h) (fun _ _ _ _ _ h => h) (fun _ _ _ h => h) s cause unit ?_
  intro x _ _ _ _ hcnts _
  unfold State.cnt
  rw [hcnts]
  rfl

/-- A warm reset clears every performance counter but those of Reliability (R541). -/
theorem State.cnt_warmReset {s : State} (hs : s.canon) (cause domain : Nat) (n : RegName) {copy : Nat} (hcopy : copy < 2 ^ 26) :
    (s.warmReset cause domain).cnt n copy = if n = .cntRelCnt then s.cnt n copy else 0 := by
  refine warmReset_of (P := fun x => x.cnt n copy = if n = .cntRelCnt then s.cnt n copy else 0) (fun _ _ h => h) (fun _ _ _ _ _ h => h)
    (fun _ _ _ h => h) s cause domain ?_
  intro x _ _ _ _ hcnts _
  obtain ⟨_, hcanon, _⟩ := hs
  have hwf := ((SMap.wfD_iff _ _).1 hcanon).1
  have hidx : regKey n copy 0 / 2 ^ 32 = n.ctorIdx := by unfold regKey; omega
  unfold State.cnt SMap.getD
  rw [hcnts, SMap.find_keep _ hwf (fun k => k / 2 ^ 32 == RegName.cntRelCnt.ctorIdx), hidx]
  by_cases hn : n = .cntRelCnt
  · simp [hn]
  · have hne : ¬ n.ctorIdx = RegName.cntRelCnt.ctorIdx := fun h =>
      hn (by rw [← RegName.ofNat_ctorIdx n, h, RegName.ofNat_ctorIdx])
    rw [if_neg hn, if_neg (by simpa using hne)]

/-- A warm reset keeps the fault windows (R493). -/
theorem State.wins_warmReset (s : State) (cause domain : Nat) : (s.warmReset cause domain).rel.wins = s.rel.wins := by
  unfold State.warmReset State.fwupReset
  extract_lets n _ k new
  split
  · rw [State.event_rel]
    rfl
  · rfl

/-! ### The reset of a unit -/

/-- As a unit's reset begins, only the end of the work on it counts (R485). -/
theorem State.cnts_beginReset (s : State) (unit : Nat) : (s.beginReset unit).cnts = (s.endWork unit).cnts := by
  unfold State.beginReset
  generalize s.endWork unit = w
  dsimp only
  split <;> split <;> rfl

/-- The counters are canonical, and one of them reads as it did in another state. -/
def State.CountsAs (s : State) (n : RegName) (copy : Nat) (t : State) : Prop := SMap.wfD (fun _ => 0) t.cnts = true ∧ t.cnt n copy = s.cnt n copy

/-- An event counts nothing. -/
theorem State.CountsAs.event {s t : State} {n : RegName} {copy : Nat} (h : s.CountsAs n copy t) (a b c d : Nat) : s.CountsAs n copy (t.event a b c d) := by
  unfold State.CountsAs State.cnt at h ⊢
  rw [State.event_cnts]
  exact h

/-- Counting leaves every other counter. -/
theorem State.CountsAs.count {s t : State} {n m : RegName} {copy i : Nat} (h : s.CountsAs n copy t) (hcopy : copy < 2 ^ 26) (hi : i < 2 ^ 26)
    (hother : n = m → copy ≠ i) (k : Nat) : s.CountsAs n copy (t.count m i k) := by
  obtain ⟨hcanon, hcnt⟩ := h
  have hkey : regKey n copy 0 ≠ regKey m i 0 := fun heq => by
    obtain ⟨hreg, hsame⟩ := regKey_inj hcopy hi heq
    exact hother hreg hsame
  refine ⟨SMap.setD_wfD _ _ _ _ hcanon, ?_⟩
  unfold State.cnt State.count
  dsimp only
  rw [SMap.getD_setD _ _ ((SMap.wfD_iff _ _).1 hcanon).1, if_neg hkey]
  exact hcnt

/-- Writing a unit's images again counts entries written alone (R277, R485). -/
theorem State.CountsAs.imagesAgain {s t : State} {n : RegName} {copy : Nat} (h : s.CountsAs n copy t) (hcopy : copy < 2 ^ 26)
    (hother : n = .cntMuCnt → copy % 5 ≠ 1) (unit : Nat) : s.CountsAs n copy (t.imagesAgain unit) := by
  have hwrites : ∀ (x : State) (l : Nat) (us : SMap MuImage), s.CountsAs n copy x →
      s.CountsAs n copy (x.countWrites (unit % 4096 / 9) (unit % 4096 % 9) l us) := fun x l us hx =>
    hx.count hcopy (by omega) (fun hn hsame => hother hn (by omega)) _
  unfold State.imagesAgain
  dsimp only
  split
  · exact h
  · refine foldl_keeps _ (foldl_keeps _ h fun x l hx => foldl_keeps _ hx fun y i hy => hwrites y l i.units hy) fun x l hx =>
      foldl_keeps _ hx fun y i hy => hwrites y l i.units hy

/-- A single-tile reset leaves every counter as the end of the work on the unit left it (R541). -/
theorem cnt_unitReset {s t : State} {unit : Nat} (h : exec (.unitReset unit) s = .next t) (n : RegName) (copy : Nat) :
    (s.runs → s.canReset unit = true → t.cnt n copy = (s.endWork unit).cnt n copy) ∧
    (¬ s.runs ∨ s.canReset unit = false → t.cnt n copy = s.cnt n copy) := by
  have hcommand : s.gated (.next (if s.canReset unit then s.beginReset unit else s)) = .next t := h
  refine ⟨fun hr hmay => ?_, fun hnot => ?_⟩
  · rw [gated_runs hr, if_pos hmay] at hcommand
    rw [← Host.Outcome.next.inj hcommand]
    exact congrArg (fun m => SMap.getD (fun _ => 0) m (regKey n copy 0)) (State.cnts_beginReset s unit)
  · rcases gated_next hcommand with ⟨hr, hbody⟩ | ⟨_, rfl⟩
    · rw [if_neg (by simpa [hr] using hnot)] at hbody
      rw [← Host.Outcome.next.inj hbody]
    · rfl

/-- As it ends, only the counts of entries written can rise, where the counters are canonical (R541). -/
theorem cnt_relUnitReset {s t : State} {unit : Nat} {n : RegName} {copy : Nat} (hs : s.canon) (hcopy : copy < 2 ^ 26)
    (hother : n = .cntMuCnt → copy % 5 ≠ 1) (h : exec (.relUnitReset unit true) s = .next t) : t.cnt n copy = s.cnt n copy := by
  obtain ⟨_, hcanon, _⟩ := hs
  have hself : s.CountsAs n copy s := ⟨hcanon, rfl⟩
  have hends : OutP (s.CountsAs n copy) (execRelUnitReset unit true s) := by
    unfold execRelUnitReset
    refine out_gated hself (ite_OutP (out_next hself) (out_next ?_))
    rw [if_pos rfl, if_pos rfl]
    refine State.CountsAs.event (State.CountsAs.imagesAgain ?_ hcopy hother unit) _ _ _ _
    exact ite_P ⟨hcanon, rfl⟩ ⟨hcanon, rfl⟩
  exact (hends.out t h).2

/-! ### Counters out of order -/

/-- A match unit whose reset ends, with a set of no entries loaded, and counters that are not canonical: an entry of 0 stands before one of a smaller
key, and hides it. -/
def unorderedCounters : State where
  cnts := [(regKey .cntMuCnt 1 0, 0), (regKey .cntTribPortCnt 0 0, 5)]
  rel := { mus := [(0, { held := some 0, resetting := true })] }
  head := { tenants := [{ active := some {} }, {}, {}, {}] }

/-- The hidden counter reads as 0. -/
theorem unorderedCounters_cnt : unorderedCounters.cnt .cntTribPortCnt 0 = 0 := by decide

/-- Counting no entries takes the entry of 0 away. -/
theorem unorderedCounters_imagesAgain :
    (State.imagesAgain (unorderedCounters.setMu 0 0 { unorderedCounters.mu 0 0 with resetting := false }) (0x2000 + 9 * 0 + 0)).cnts =
      [(regKey .cntTribPortCnt 0 0, 5)] := by decide

end Sys2Proof.Machine

/-! ### The statement of the counters -/

section
open Sys2Proof Sys2Proof.Machine

/-- What of O55 holds: its first three clauses, and its last one where the counters are canonical, as every step keeps them. -/
theorem countersClear_of_canon :
    (∀ (cause unit : Nat) (n : RegName) (copy : Nat) (s : State), (s.coldReset cause unit).cnt n copy = 0) ∧
    (∀ (cause domain : Nat) (n : RegName) (copy : Nat) (s : State), s.canon → copy < 2 ^ 26 →
      (s.warmReset cause domain).cnt n copy = (if n = .cntRelCnt then s.cnt n copy else 0) ∧ (s.warmReset cause domain).rel.wins = s.rel.wins) ∧
    (∀ (unit : Nat) (n : RegName) (copy : Nat) (s t : State), exec (.unitReset unit) s = .next t →
      (s.runs → s.canReset unit = true → t.cnt n copy = (s.endWork unit).cnt n copy) ∧
      (¬ s.runs ∨ s.canReset unit = false → t.cnt n copy = s.cnt n copy)) ∧
    (∀ (unit : Nat) (n : RegName) (copy : Nat) (s t : State), s.canon → copy < 2 ^ 26 → (n = .cntMuCnt → copy % 5 ≠ 1) →
      exec (.relUnitReset unit true) s = .next t → t.cnt n copy = s.cnt n copy) :=
  ⟨fun cause unit n copy s => s.cnt_coldReset cause unit n copy,
    fun cause domain n _ s hs hcopy => ⟨State.cnt_warmReset hs cause domain n hcopy, s.wins_warmReset cause domain⟩,
    fun _ n copy _ _ h => cnt_unitReset h n copy, fun _ _ _ _ _ hs hcopy hother h => cnt_relUnitReset hs hcopy hother h⟩

/-- Refutes O55: its last clause does not ask for canonical counters, and where an entry of 0 hides a counter, the end of a unit's reset takes the
entry away as it counts no entries written, and the counter of a port reads 5 instead of 0. -/
theorem not_countersClear : ¬ Obligations.CountersClear := by
  unfold Obligations.CountersClear
  rintro ⟨_, _, _, hends⟩
  have hunits := unitsFail
  unfold Obligations.UnitsFail at hunits
  obtain ⟨_, _, _, _, hmuReset, _⟩ := hunits
  have hreset := hmuReset 0 0 true unorderedCounters ⟨rfl, rfl⟩ (by decide) (by decide) rfl
  have hkept := hends _ .cntTribPortCnt 0 _ _ (by decide) (by decide) hreset
  rw [unorderedCounters_cnt, if_pos rfl, if_pos rfl] at hkept
  unfold State.cnt at hkept
  rw [State.event_cnts, unorderedCounters_imagesAgain] at hkept
  exact absurd hkept (by decide)

end
